-- ==== Sys2Proof/Word.lean ====
section
/-! DEFINITION. The word types of the part and their plainest arithmetic (R2, R6). -/
namespace Sys2Proof

/-- A 64-bit register, frame slot or instruction word. -/
abbrev Word := BitVec 64

/-- One byte of memory. -/
abbrev Byte := BitVec 8

/-- A register field: s0 to s15 (R56). -/
abbrev Reg := BitVec 4

/-- A predicate field: p0 to p7 (R56). -/
abbrev PredReg := BitVec 3

/-- The helper `sext(v, n)` of R6, as an exact integer. -/
def sext (v n : Nat) : Int :=
  let m := v % 2 ^ n
  if n ≠ 0 ∧ 2 ^ (n - 1) ≤ m then (m : Int) - (2 ^ n : Nat) else m

/-- The helper `zext(v, n)` of R6. -/
def zext (v n : Nat) : Nat := v % 2 ^ n

/-- Bits `lo + len - 1` down to `lo` of `v`, as an unsigned number. -/
def bits (v lo len : Nat) : Nat := v / 2 ^ lo % 2 ^ len

/-- Bit `i` of `v`. -/
def bit (v i : Nat) : Bool := v / 2 ^ i % 2 == 1

end Sys2Proof
end

