-- ==== Sys2Proof/Config.lean ====
section
/-! DEFINITION. What an implementation fixes, and the free values: constants with no known value, so that a claim holds
whatever they are. Each is named by an entry of the assumption log. -/
namespace Sys2Proof.Config

/-- Which enabled move step takes when no turn is set (log entry 2): drawn with the counter `State.free`. -/
opaque pick : Nat → Nat

/-- Which of the values that R84 allows a read of an 8 B unit returns (log entry 5). -/
opaque readChoice : Nat → Nat → Nat

/-- What a damaged 8 B unit reads as, besides being reported (R173, R211; log entry 5). -/
opaque damaged : Nat → Nat → BitVec 64

/-- The bytes of a weight-store bank that a failed copy leaves undefined (R247, R364; log entry 8). -/
opaque wsUndefined : Nat → Nat → Byte

/-- For each line of a failed collective operation's destination, whether it holds a result (R346; log entry 9). -/
opaque collLine : Nat → Nat → Bool

/-- A reading of a die's hottest sensor, in °C (R290, R300; log entry 6). -/
opaque temperature : Nat → Nat → BitVec 8

/-- SHAKE256 of FIPS 202, by output length in bytes (R441, R442; log entry 10). -/
opaque shake256 : List Byte → Nat → List Byte

/-- Verification of SLH-DSA-SHAKE-256s of FIPS 205: key, message, signature (R441; log entry 10). -/
opaque slhVerify : List Byte → List Byte → List Byte → Bool

/-- Signing with SLH-DSA-SHAKE-256s under the private key of this key pair seed (R442; log entry 10). -/
opaque slhSign : List Byte → List Byte → List Byte

/-- The fused device secret and firmware key digest (R440; log entry 10). -/
opaque fusedSecret : List Byte
opaque fusedKeyDigest : List Byte

/-- The security version that a firmware image carries: the manual names no place for it in the image (R441; log entry 10). -/
opaque imageVersion : List Byte → Nat

/-- Whether a sparse plane reads as 4:16 before its first `mspm` (R251, R276; log entry 27). -/
opaque sparsityBefore : Nat → Bool

/-- The completion payload of a request for which the manual states none (R221; log entry 29). -/
opaque openPayload : Nat → BitVec 64

/-- What a peer device answers to a request, by request number: 0 accepted, else the code of its refusal (R222; log entry 30). -/
opaque peerCode : Nat → BitVec 16

/-- Whether the host has masked an MSI-X vector (R413; log entry 37). -/
opaque msixMasked : Nat → Nat → Bool

/-- The bytes that a peer device answers with, by request number and place (R222; log entry 30). -/
opaque peerByte : Nat → Nat → Byte

/-- How the host completes a read of a stream or of a peer: 0 with data, else 1 Unsupported Request, 2 Completer Abort, 3 no completion
(R413; log entry 30). -/
opaque hostCode : Nat → Nat

/-- The bytes that the host answers such a read with, by request number and host address (R413; log entry 30). -/
opaque hostByte : Nat → Nat → Byte

/-- Bytes for which the manual gives no value: the seed-log record of a link token (R301; log entry 33). -/
opaque unstatedByte : Nat → Nat → Byte

/-- How many clk of a window the governor found beyond the declared class, 1 to 1,024 (R299; log entry 34). -/
opaque clkCount : Nat → Nat

end Sys2Proof.Config
end

