-- ==== Sys2Proof/Syntax.lean ====
section
/-! DEFINITION. The abstract syntax: one constructor of `Instr` per row of the opcode table. Rows that are words of the
instruction set carry their decoded fields (R48 to R55); rows that are steps of the engines carry what names the step. -/
namespace Sys2Proof

/-- The guard of every format but E: `PG` and `PN` (R48). -/
structure Guard where
  pg : PredReg
  pn : Bool
  deriving DecidableEq, Repr

/-- Element formats (R159): the code table is `EF.code`. -/
inductive EF where
  | i8 | n8 | i4 | n4 | i16 | n16 | i32 | n32 | i64 | n64
  /-- binary8 of precision `p + 1` (p = 0 to 6), `s` signed, `x` extended. -/
  | b8 (x s : Bool) (p : Fin 7)
  | f16 | bf16 | f32 | f64 | f4x
  deriving DecidableEq, Repr

/-- Rounding codes (R52, R168). -/
inductive Rnd where
  | rne | rtz | rdn | rup | rna | sr | rno
  deriving DecidableEq, Repr

/-- Precision of a scalar float form (R134). -/
inductive Prec where
  | single | double
  deriving DecidableEq, Repr

inductive BitopFn where
  | clz | ctz | popc | brev | bswap
  deriving DecidableEq, Repr

inductive LogFn where
  | and | or | xor | andn
  deriving DecidableEq, Repr

inductive ShFn where
  | shl | shr | sra | rotl
  deriving DecidableEq, Repr

inductive Cond where
  | eq | ne | lt | le | gt | ge | lo | ls | hi | hs
  deriving DecidableEq, Repr

/-- Float comparisons of `fcmp` and `vcmp` (R135, R192). -/
inductive FCond where
  | eq | ne | lt | le | gt | ge | un
  deriving DecidableEq, Repr

/-- `fcvt` subfunctions (R136). -/
inductive CvtFn where
  | cvf | toi | ton | fri | frn
  deriving DecidableEq, Repr

inductive ClampFn where
  | signed | unsigned | single | double
  deriving DecidableEq, Repr

/-- `pop` functions (R139). -/
inductive PopFn where
  | and | or | xor | andn | not | set | clr
  deriving DecidableEq, Repr

/-- `psn` forms (R158): `.test` names its destination predicate. -/
inductive PsnFn where
  | test (d : PredReg) | set | clr
  deriving DecidableEq, Repr

/-- Arity of an entry (R50). -/
inductive Arity where
  | ctl | mon | dya | sel
  deriving DecidableEq, Repr

/-- KIND of `send` (R51). -/
inductive SendKind where
  | scalar | tile | ctl | sys
  deriving DecidableEq, Repr

/-- `vlog` functions (R191). -/
inductive VlogFn where
  | and | or | xor | andn | not
  deriving DecidableEq, Repr

/-- `vbit` functions (R191). -/
inductive VbitFn where
  | clz | ctz | brev | bswap
  deriving DecidableEq, Repr

/-- The functions of `vfn` and of an epilogue function node (R200, R262). -/
inductive FnFn where
  | exp2 | log2 | rcp | rsqrt | tanh | sigmoid | silu | gelu
  deriving DecidableEq, Repr

inductive RedFn where
  | sum | max | min | amax | argmax | argmin
  deriving DecidableEq, Repr

inductive ScanFn where
  | sum | max | min
  deriving DecidableEq, Repr

inductive FillFn where
  | const | iota | cix | rix | rand
  deriving DecidableEq, Repr

/-- `vmask` functions (R194). -/
inductive MaskFn where
  | pfx | rows | lower | upper
  deriving DecidableEq, Repr

/-- ORD of a memory word (R52). -/
inductive MemOrd where
  | plain | acquire | release | acqRel
  deriving DecidableEq, Repr

/-- `atom` and `vatom` operations (R55, R242). -/
inductive AtomFn where
  | add | min | max | minn | maxn | and | or | xor | xchg | cas | fadd
  deriving DecidableEq, Repr

/-- The format E word of `ent` (R50). -/
structure EntF where
  arity : Arity
  slot : BitVec 8
  len : BitVec 6
  feat : BitVec 5
  pcls : BitVec 4
  alt : BitVec 11
  deriving DecidableEq, Repr

/-- The shared fields of format T (R49, R51): V, F, I, PORT and TIX. -/
structure TF where
  g : Guard
  v : Reg
  f : Reg
  i : Reg
  port : Bool
  tix : BitVec 9
  deriving DecidableEq, Repr

/-- The shared fields of format X (R49, R186): CT is MOD[12:4], `m` is MOD[3:0]. -/
structure XF where
  g : Guard
  d : Reg
  a : Reg
  b : Reg
  c : Reg
  ef : EF
  rnd : Rnd
  sat : Bool
  gap : BitVec 3
  ct : BitVec 9
  m : BitVec 4
  deriving DecidableEq, Repr

/-- The shared fields of format M (R49, R52, R219). -/
structure MF where
  g : Guard
  d : Reg
  a : Reg
  b : Reg
  alc : BitVec 4
  scp : BitVec 4
  ord : MemOrd
  md : BitVec 5
  tix : BitVec 9
  off : BitVec 15
  deriving DecidableEq, Repr

/-- The shared fields of format S (R49, R321): RT is IMM32[8:0], `hi` is IMM32[31:9]. -/
structure SF where
  g : Guard
  d : Reg
  a : Reg
  b : Reg
  rt : BitVec 9
  hi : BitVec 23
  deriving DecidableEq, Repr

/-- How an inbound write was sent (R222): by a store, a `put`, or a `dst`. -/
inductive InboundWrite where
  | store | put | dst
  deriving DecidableEq, Repr

/-- What an inbound message asks: a read (`get` for that of a copy), a write, an atomic, or a link token for a launch of an ASID (R297),
as header and payload words. -/
inductive InboundKind where
  | read (get : Bool) (len : Nat)
  | write (how : InboundWrite) (data : List Byte)
  | atomic (fn : AtomFn) (size : Nat) (x c : Word)
  | link (handle asid : Nat) (hdr payload : Word)
  deriving DecidableEq, Repr

/-- An inbound request of a peer device or of the host (R409): `src` is none for the host; `port` is the port at which a peer's message
arrives, and the BAR of a host access; the address is in this device's map; `earlier` counts the STOREs that its source sent to this
device before it (R88); `tag` names it in its answer. -/
structure Inbound where
  src : Option Nat
  port : Nat
  pa : Nat
  kind : InboundKind
  earlier : Nat
  tag : Nat
  /-- the sequence number of a peer's message within its class (R404) -/
  num : Nat := 0
  deriving DecidableEq, Repr

/-- A value on a collective tree (R340 to R342): binary32 partials, exact integers with flags, or bytes. -/
structure CollVal where
  s : Int
  nan : Bool
  pos : Bool
  neg : Bool
  psn : Bool
  deriving DecidableEq, Repr

/-- What a collective message is for (R330, R339, R345, R346). -/
inductive CollKind where
  /-- a participant has issued operation `op` with this digest, and whether it had done so before it adopted the message's version -/
  | issue (digest : Nat) (earlier : Bool)
  | up (chunk pass : Nat)
  | down (chunk pass : Nat) (invs ovfs psns : List Bool)
  /-- the mark exchange (R345): the AND so far, and its result -/
  | markUp (marks : List Bool)
  | markDown (marks : List Bool)
  /-- the operation failed at device `origin` (R346) -/
  | cancel (origin : Nat)
  deriving DecidableEq, Repr

structure CollMsg where
  src : Nat
  gtag : Nat
  key : Nat
  op : Nat
  ver : Nat
  kind : CollKind
  data : List CollVal
  deriving DecidableEq, Repr

/-- The one instruction type: one constructor per row of the opcode table. -/
inductive Instr where
  -- group 0: scalar integer (R128 to R133)
  | nop (g : Guard)
  | add (g : Guard) (d a b : Reg)
  | sub (g : Guard) (d a b : Reg)
  | mul (g : Guard) (d a b : Reg)
  | mulh (g : Guard) (d a b : Reg)
  | mulhn (g : Guard) (d a b : Reg)
  | div (g : Guard) (d a b : Reg)
  | divn (g : Guard) (d a b : Reg)
  | rem (g : Guard) (d a b : Reg)
  | remn (g : Guard) (d a b : Reg)
  | and (g : Guard) (d a b : Reg)
  | or (g : Guard) (d a b : Reg)
  | xor (g : Guard) (d a b : Reg)
  | andn (g : Guard) (d a b : Reg)
  | shl (g : Guard) (d a b : Reg)
  | shr (g : Guard) (d a b : Reg)
  | sra (g : Guard) (d a b : Reg)
  | rotl (g : Guard) (d a b : Reg)
  | min (g : Guard) (d a b : Reg)
  | max (g : Guard) (d a b : Reg)
  | minn (g : Guard) (d a b : Reg)
  | maxn (g : Guard) (d a b : Reg)
  | bitop (g : Guard) (fn : BitopFn) (d a : Reg)
  | bfx (g : Guard) (d a : Reg) (lsb : BitVec 6) (width : BitVec 7) (sx : Bool)
  | bfi (g : Guard) (d a : Reg) (lsb : BitVec 6) (width : BitVec 7)
  | sel (g : Guard) (d a b : Reg) (p : PredReg)
  | movi (g : Guard) (hi : Bool) (d : Reg) (imm : BitVec 32)
  | addi (g : Guard) (d a : Reg) (imm : BitVec 32)
  | logi (g : Guard) (fn : LogFn) (d a : Reg) (imm : BitVec 32)
  | shfi (g : Guard) (fn : ShFn) (d a : Reg) (n : BitVec 6)
  | cmp (g : Guard) (c : Cond) (p : PredReg) (a b : Reg)
  | cmpi (g : Guard) (c : Cond) (p : PredReg) (a : Reg) (imm : BitVec 32)
  -- group 1: scalar float, predicates, special registers (R134 to R143)
  | fadd (g : Guard) (pr : Prec) (rnd : Rnd) (d a b : Reg)
  | fsub (g : Guard) (pr : Prec) (rnd : Rnd) (d a b : Reg)
  | fmul (g : Guard) (pr : Prec) (rnd : Rnd) (d a b : Reg)
  | fma (g : Guard) (pr : Prec) (rnd : Rnd) (d a b c : Reg)
  | fmin (g : Guard) (pr : Prec) (d a b : Reg)
  | fmax (g : Guard) (pr : Prec) (d a b : Reg)
  | fdiv (g : Guard) (pr : Prec) (rnd : Rnd) (d a b : Reg)
  | fsqrt (g : Guard) (pr : Prec) (rnd : Rnd) (d a : Reg)
  | fcmp (g : Guard) (pr : Prec) (c : FCond) (p : PredReg) (a b : Reg)
  | fcvt (g : Guard) (pr : Prec) (rnd : Rnd) (fn : CvtFn) (d a : Reg)
  | fcls (g : Guard) (pr : Prec) (d a : Reg)
  | lea (g : Guard) (shift : BitVec 2) (d a b : Reg) (imm : BitVec 32)
  | mhash (g : Guard) (nbits : BitVec 7) (d a : Reg) (mult : BitVec 32)
  | pop (g : Guard) (fn : PopFn) (d a b : PredReg)
  | pmov (g : Guard) (toPred : Bool) (r : Reg)
  | mfs (g : Guard) (d : Reg) (no : BitVec 16) (ctx : BitVec 3)
  | mts (g : Guard) (a : Reg) (no : BitVec 16) (ctx : BitVec 3)
  | clamp (g : Guard) (fn : ClampFn) (d a b c : Reg)
  | iabs (g : Guard) (neg : Bool) (d a : Reg)
  -- group 2: entries, frames, sends, groups, handles, traps (R144 to R158)
  | ent (e : EntF)
  | ldf (g : Guard) (side : Bool) (d a : Reg) (n : BitVec 8)
  | stf (g : Guard) (d a : Reg) (n : BitVec 8)
  | fclr (g : Guard) (a : Reg) (n cnt : BitVec 8)
  | falloc (t : TF) (cls level : BitVec 3) (useRes : Bool)
  | ffree (g : Guard) (a : Reg)
  | send (t : TF) (kind : SendKind) (imm : BitVec 18)
  | sendc (t : TF) (cop rank : BitVec 8)
  | sendx (t : TF) (e : Reg) (imm : BitVec 18)
  | swt (t : TF) (tix2 : BitVec 9) (p : PredReg)
  | sendm (t : TF) (tix2 : BitVec 9) (imm : BitVec 18)
  | wadv (g : Guard) (d : Reg)
  | endH (g : Guard)
  | join (t : TF)
  | leave (t : TF)
  | arrive (t : TF) (scope : BitVec 4)
  | wait (t : TF)
  | halloc (t : TF) (kind : BitVec 4)
  | hinc (g : Guard) (a : Reg)
  | hdec (g : Guard) (a : Reg)
  | hinfo (t : TF) (sel : Bool)
  | trap (g : Guard) (imm : BitVec 32)
  | brk (g : Guard) (imm : BitVec 32)
  | sys (t : TF) (service : BitVec 18)
  | resmGo (g : Guard) (a : Reg)
  | resmDrop (g : Guard) (a : Reg)
  | resmStep (g : Guard) (a : Reg)
  | psn (g : Guard) (fn : PsnFn)
  -- group 3: the vector engine (R186 to R209)
  | vadd (x : XF)
  | vsub (x : XF)
  | vmul (x : XF)
  | vfma (x : XF)
  | vmin (x : XF)
  | vmax (x : XF)
  | vabs (x : XF)
  | vneg (x : XF)
  | vlog (fn : VlogFn) (x : XF)
  | vsh (fn : ShFn) (x : XF)
  | vcmp (c : FCond) (x : XF)
  | vsel (x : XF)
  | vcvt (x : XF)
  | vqnt (x : XF)
  | vdqn (x : XF)
  | vfn (fn : FnFn) (x : XF)
  | vred (fn : RedFn) (x : XF)
  | vscan (fn : ScanFn) (x : XF)
  | vbc (x : XF)
  | vfill (fn : FillFn) (x : XF)
  | vtrn (x : XF)
  | vperm (x : XF)
  | vhash (nbits : BitVec 7) (x : XF)
  | vpopc (rows : Bool) (x : XF)
  | vhist (x : XF)
  | vpack (rowmask : Bool) (x : XF)
  | vunpk (rowmask : Bool) (x : XF)
  | vmov (x : XF)
  | vrnd (x : XF)
  | vbit (fn : VbitFn) (x : XF)
  | vmask (fn : MaskFn) (x : XF)
  -- group 4: the matrix engine (R273 to R285)
  | mlds (x : XF)
  | mldw (x : XF)
  | mswp (x : XF)
  | mstr (x : XF)
  | mstt (x : XF)
  | macc (anc : Bool) (x : XF)
  | manc (x : XF)
  | mepc (x : XF)
  | mout (x : XF)
  | mclr (x : XF)
  | mtkr (idx : Bool) (x : XF)
  | mtkc (x : XF)
  | mspm (s4 : Bool) (x : XF)
  | mclaim (x : XF)
  | mrel (x : XF)
  | msave (x : XF)
  | mrest (x : XF)
  | mstat (take : Bool) (x : XF)
  -- group 5: the memory port (R219, R239 to R247)
  | ld (m : MF)
  | st (m : MF)
  | dst (m : MF)
  | ldt (m : MF)
  | stt (m : MF)
  | gth (m : MF)
  | sct (m : MF)
  | atom (fn : AtomFn) (m : MF)
  | vatom (fn : AtomFn) (m : MF)
  | put (m : MF)
  | get (m : MF)
  | sopen (m : MF)
  | sclose (m : MF)
  | fence (m : MF)
  | pref (m : MF)
  | migr (m : MF)
  | wsld (m : MF)
  | inv (m : MF)
  | gbump (m : MF)
  -- group 6: system requests
  | pplace (now : Bool) (x : SF)
  | pevictVacate (x : SF)
  | pevictKill (x : SF)
  | pevictContain (x : SF)
  | rmarkCut (x : SF)
  | rmarkFreeze (x : SF)
  | rmarkResume (x : SF)
  | qryState (x : SF)
  | qryQuiet (x : SF)
  | qryPower (x : SF)
  | lnch (ctl : Bool) (x : SF)
  | pclaimClaim (x : SF)
  | pclaimRelease (x : SF)
  | twinOn (x : SF)
  | twinOff (x : SF)
  | cgrpMake (x : SF)
  | cgrpDrop (x : SF)
  | cred (fn : BitVec 2) (x : SF)
  | cstat (prog : Bool) (x : SF)
  | ccan (x : SF)
  | xcntAdd (x : SF)
  | xcntArr (x : SF)
  | xcntHist (x : SF)
  | xcntTake (x : SF)
  | xdspOne (x : SF)
  | xdspArr (x : SF)
  | xdspFlush (x : SF)
  | xverGet (x : SF)
  | xverWait (x : SF)
  | xverResize (x : SF)
  | xmrg (x : SF)
  | xrep (x : SF)
  | xretDrain (x : SF)
  | xretFree (x : SF)
  | rpnt (x : SF)
  | rseal (x : SF)
  | rrdpStat (x : SF)
  | rrdpCheck (x : SF)
  | rbak (x : SF)
  | omrkWalk (x : SF)
  | omrkTag (x : SF)
  | octrRead (x : SF)
  | octrTotal (x : SF)
  | otrc (x : SF)
  | oinjArm (x : SF)
  | oinjOff (x : SF)
  | ostpArm (x : SF)
  | ostpOff (x : SF)
  -- steps of the sequencer
  | tokenArrival (n : Nat)
  | cswHold (n : Nat)
  | cswRelease (n : Nat)
  | rmkArrival (n : Nat)
  | cisternWrite (n : Nat)
  | activationSlotGrant (site : Nat)
  | heldTokenRetry (site : Nat)
  | commit (site : Nat)
  | trapDelivery (site : Nat)
  | serviceDelivery (site : Nat)
  | frameGrant (site n : Nat)
  | groupRequest (n : Nat)
  | handleRequest (n : Nat)
  | tileFree (site gran : Nat)
  | hallocGrant (site n : Nat)
  -- steps of the vector and matrix engines
  | vectorOpStart (site : Nat)
  | gapBookingDrop (site : Nat)
  | vectorOpComplete (site : Nat)
  | bankReconfigure (site : Nat) (v : Word)
  | bankWipeDone (site n : Nat)
  | matrixOpStart (site : Nat)
  | matrixOpComplete (site : Nat)
  -- steps of the memory port
  | memTranslate (id : Nat)
  | pageWalkDone (n : Nat)
  | fltctlRetry (site asid : Nat)
  | fltctlFail (site asid : Nat)
  | memAccessPerform (id : Nat)
  | staleGenerationRetry (id : Nat)
  | wsRefreshEnd (die bank : Nat)
  | streamItem (site gen : Nat)
  | streamGeneratorGrant (site : Nat)
  | bubEmit (site gen : Nat)
  | migrationGranuleCopy (n : Nat)
  | migrationComplete (n : Nat)
  -- steps of the region pager
  | linkTokenRoute (n : Nat)
  | placementRetry (n : Nat)
  | configWaveDone (handle : Nat)
  | seedRelease (handle : Nat)
  | powerWindow (site : Nat)
  | thermalDutyStep (die : Nat)
  | quiescenceWave (handle : Nat)
  | faultTimeSample (site : Nat)
  | containmentTrigger (handle cause : Nat)
  | twinDigest (n : Nat)
  | twinDigestTimeout (n : Nat)
  -- steps of the collective engine
  | ceLtctlWrite (v : Word)
  | collMessage (engine : Nat) (m : CollMsg)
  | collectiveOpStart (asid gtag : Nat)
  | colStall (engine n : Nat)
  -- steps of the expert placement engine
  | routeEntry
  | pageRelease (replica : Nat)
  | pageRetire (replica : Nat)
  | graftStageDone
  | replicaFailed (replica : Nat)
  -- steps of the recovery engine
  | cellarLineWrite (id : Nat)
  | sealAbandoned (cause : Nat)
  | resilverRegion (k : Nat)
  | slotScan
  | escalatedRollback (handle : Nat)
  -- steps of the links, the headgate and the host port
  | seedRecord (die : Nat)
  | afterRelease (die n : Nat)
  | inboundRequest (r : Inbound)
  | flitReplay (port : Nat) (again : Bool)
  | portDown (port : Nat)
  | portTrain (port : Nat) (done : Bool)
  | hostCompletionTimeout (id : Nat)
  | hostCompletion (id code : Nat) (data : List Byte)
  | lkIrqWrite (v : Word)
  | timeEventMessage (egress : Bool) (w0 w1 : Word)
  -- steps of the observation engine
  | sweepVisit (site : Nat)
  | obTadjWrite (v : Word)
  | walkStep (n : Nat)
  | stopHit (n : Nat)
  | monitorSample (m v : Nat)
  | obLmselWrite (m : Nat) (v : Word)
  | injectionHit (pa : Nat)
  -- steps of the package
  | inputLoss
  | deviceReset
  | computeDieReset (die : Nat)
  | ioDie1Reset
  | ioDie0Reset
  | wipeComplete (dom : Nat)
  | calibrationEnd (die : Nat)
  | pkBootWrite (v : Word)
  | lifeCycleAdvance
  | registerWrite (pa : Nat) (v : Word)
  | wsRefreshStart (die bank : Nat)
  | chunkStall (asid gtag chunk : Nat)
  | attestationReport
  deriving DecidableEq, Repr

end Sys2Proof
end

