-- ==== Sys2Proof/Machine/State.lean ====
section
/-! DEFINITION. The state of the part as plain data, the reasons a step can stop, and the state after reset. Every field
cites the rule that gives the machine that piece of state; the model's own fields (turn, cur, free, seq, inputs, out) say so. -/
namespace Sys2Proof.Machine

/-- Why the machine stops with a fault. -/
inductive Fault where
  /-- Raised by `exec` of an instruction word when no activation sits at `State.cur`: an instruction issues only for an
  activation in flight (R14), so the manual has no such state. Safe. -/
  | noIssuer
  deriving DecidableEq, Repr

/-- Why an instruction has no meaning here. -/
inductive Refusal where
  /-- The arm of an instruction not modelled yet. Safe. -/
  | notModelled (mnemonic : String)
  deriving DecidableEq, Repr

/-- A table with natural-number keys, kept in rising order of key by `Tbl.set`. -/
abbrev Tbl (α : Type) := List (Nat × α)

/-! ### Tokens -/

/-- The token of R34: header fields and payload. -/
structure Token where
  cls : BitVec 2
  psn : Bool
  ctx : BitVec 3
  dx : BitVec 6
  dy : BitVec 6
  ip : BitVec 11
  port : Bool
  fp : BitVec 17
  itn : BitVec 16
  smp : Bool
  payload : Word
  deriving DecidableEq, Repr

/-- The virtual networks of R25. -/
inductive VNet where
  | request | reply | system
  deriving DecidableEq, Repr

/-- The origin that travels beside a token (R423): site 0xFFF for a token made by an engine. -/
structure Origin where
  site : Nat
  idx : Nat
  gen : Nat
  deriving DecidableEq, Repr

/-- A token in flight: its source and destination site, network and origin; `deps` are the commit numbers of accesses
causally before it (R68); `asid` and `gen` are those of the request it answers (R91); `step` marks a token that
`resm.step` presents (R157). `num` is its place among all tokens put on their way, which R26 orders by; `here`: it has left the
mesh and stands in the ejection queue of its network at its destination (R103, R107). -/
structure Flight where
  tok : Token
  src : Nat
  dst : Nat
  vn : VNet
  org : Origin
  deps : List Nat
  asid : Nat
  gen : Nat
  step : Bool
  num : Nat := 0
  here : Bool := false
  /-- of a read's reply, the clk at which the read was committed (R429) -/
  fetch : Option Nat := none
  deriving DecidableEq, Repr

/-- A token whose entry has REMOTE 1, on its way to the region-link table (R297). -/
structure LinkFlight where
  tok : Token
  link : Nat
  src : Nat
  sctx : Nat
  asid : Nat
  org : Origin
  deps : List Nat
  num : Nat := 0
  /-- its entry of the region-link table, as its site's link cache gave it -/
  entry : Word := 0
  deriving DecidableEq, Repr

/-- Where a reply or completion goes: the target entry with the port already formed, its FP and its ITN. -/
structure Reply where
  entry : Word
  fp : BitVec 17
  itn : BitVec 16
  deriving DecidableEq, Repr

/-! ### Frames, activations and traps -/

/-- A frame slot with its side bits (R94). -/
structure Slot where
  value : Word
  pres : Bool
  psn : Bool
  port : Bool
  stamp : BitVec 16
  deriving DecidableEq, Repr

/-- Where a frame came from (R99). -/
inductive FrameOrigin where
  | pool
  | reserve (ctx level : Nat)
  | trapFrame
  | serviceFrame
  deriving DecidableEq, Repr

/-- An allocated frame, kept under its base slot (R98, R99). -/
structure FrameRec where
  cls : Nat
  owner : Nat
  origin : FrameOrigin
  deriving DecidableEq, Repr

/-- A frame set aside for a reserve level of a page (R100), kept under its base slot. -/
structure ReserveFrame where
  ctx : Nat
  level : Nat
  cls : Nat
  deriving DecidableEq, Repr

/-- A queued frame request (R100): for a reply, or for a seed that waits for its frame (R31). -/
inductive FrameFor where
  | reply (r : Reply) (psn : Bool) (deps : List Nat) (org : Origin)
  | seed (f : Flight)
  deriving DecidableEq, Repr

structure FrameReq where
  ctx : Nat
  cls : Nat
  level : Nat
  useRes : Bool
  what : FrameFor
  deriving DecidableEq, Repr

/-- The group operations of R118. -/
inductive GroupOp where
  | join | leave | arrive | wait
  deriving DecidableEq, Repr

/-- A group request in flight to its home (R117, R118). -/
structure GroupReq where
  op : GroupOp
  id : Word
  src : Nat
  asid : Nat
  ctx : Nat
  scope : Nat
  target : Option Reply
  psn : Bool
  deps : List Nat
  seq : Nat
  org : Origin
  /-- the first commit number of its activation -/
  act : Nat := 0
  deriving DecidableEq, Repr

structure Waiter where
  site : Nat
  ctx : Nat
  asid : Nat
  gen : Nat
  reply : Reply
  psn : Bool
  deriving DecidableEq, Repr

/-- An entry of a site's group unit (R117). -/
structure Group where
  asid : Nat
  ctx : Nat
  members : Nat
  arrived : Nat
  phase : BitVec 16
  poison : Bool
  waiters : List Waiter
  deps : List Nat
  deriving DecidableEq, Repr

/-- A handle request (R153, R154): `hinc`, `hdec`, or `hinfo` with its selector. -/
inductive HandleOp where
  | inc | dec | info (sel : Bool)
  deriving DecidableEq, Repr

structure HandleReq where
  op : HandleOp
  desc : Word
  src : Nat
  ctx : Nat
  asid : Nat
  gen : Nat
  target : Option Reply
  psn : Bool
  deps : List Nat
  deriving DecidableEq, Repr

/-- What names the responsible activation or token in a fault record (R46). -/
structure Who where
  site : Nat
  ctx : Nat
  asid : Nat
  ip : BitVec 11
  itn : BitVec 16
  fp : BitVec 17
  hdr : Word
  deriving DecidableEq, Repr

/-- A committed tile operation of the vector or matrix engine: the instruction, its register operands as read at issue,
the policy (R170) and poison at commit, and its completion (R187). -/
structure TileOp where
  seq : Nat
  ins : Instr
  who : Who
  vd : Word
  va : Word
  vb : Word
  vc : Word
  exc : BitVec 8
  psn : Bool
  gen : Nat
  target : Option Reply
  deps : List Nat
  org : Origin
  /-- started (R178, R261), and dropped or refused at its start with this completion payload and PSN -/
  started : Bool
  result : Option (Word × Bool)
  /-- its generator as it stood at the start (R169) -/
  g : Word
  booked : Bool
  /-- the first commit number of its activation -/
  act : Nat := 0
  deriving DecidableEq, Repr

/-- An extent of the memory port's table (R215, R236). -/
structure Extent where
  w : Bool
  r : Bool
  ctx : Nat
  pin : Bool
  vpn : Nat
  npg : Nat
  dev : Nat
  frame : Nat
  typ : Nat
  used : Nat
  deriving DecidableEq, Repr

/-- A page of a request as translated: page number, target type, device, frame number, permissions. -/
structure Xlat where
  vpn : Nat
  typ : Nat
  dev : Nat
  frame : Nat
  r : Bool
  w : Bool
  deriving DecidableEq, Repr

/-- Where a memory request stands (R216, R217, R222). -/
inductive ReqPhase where
  /-- committed, not yet looked up -/
  | committed
  /-- waits for a walk of these pages; `faulted` once an invalid entry has been reported -/
  | parked (pages : List Nat) (faulted : Bool)
  /-- a `pref` whose page a walk looks for: it does not park (R246) -/
  | walking (page : Nat)
  /-- translated -/
  | ready (x : List Xlat)
  /-- sent to a peer or to the host, its answer awaited -/
  | remote (x : List Xlat)
  /-- its translation failed: an `mldw`, whose engine takes it from here (R266); `told` when the port has written the record (R216) -/
  | failed (told : Bool)
  deriving DecidableEq, Repr

/-- A `vatom` under way (R86): the elements still to apply, as place in the tile and address, and what those applied have left. -/
structure VatomRun where
  left : List (Nat × Nat)
  operands : List Byte
  compares : List Byte
  suppressed : Bool
  bad : Bool
  reject : Option (Nat × Nat × Nat)
  olds : List (Nat × Nat)
  deriving DecidableEq, Repr

/-- A committed memory request (R216 to R224), in group 5's own instruction form. -/
structure MemReq where
  id : Nat
  ins : Instr
  who : Who
  vd : Word
  va : Word
  vb : Word
  vc : Word
  /-- the effective address computed at issue -/
  ea : Nat
  gen : Nat
  psn : Bool
  target : Option Reply
  deps : List Nat
  org : Origin
  phase : ReqPhase
  /-- the element addresses of a `gth`, `sct` or `vatom` once its index tile has been read; none for an element skipped (R241) -/
  elems : Option (List (Option Nat))
  /-- the rows that the read of its index tile suppresses or poisons (R225, R226) -/
  rows : Word
  since : Nat
  /-- the first commit number of its activation -/
  act : Nat := 0
  vat : Option VatomRun := none
  /-- the clk of its commit (R429) -/
  born : Nat := 0
  /-- its writes have been posted to the host and a PCIe read follows them: the answer that it will then send (R75) -/
  answer : Option (Word × Bool × List Nat) := none
  deriving DecidableEq, Repr

/-- A request to a system engine (group 6, R321, R352, R375, R398, R433). -/
structure SysReq where
  seq : Nat
  ins : Instr
  word : Word
  who : Who
  vd : Word
  va : Word
  vb : Word
  exc : BitVec 8
  gen : Nat
  psn : Bool
  target : Option Reply
  deps : List Nat
  org : Origin
  hist : Nat
  /-- the first commit number of its activation -/
  act : Nat := 0
  /-- the launch that committed it (R349) -/
  launch : Option Nat := none
  /-- of an `otrc`, the number of its record, written at its commit; none where it was dropped (R427, R433) -/
  traced : Option (BitVec 32) := none
  deriving DecidableEq, Repr

/-- The buffered effects of an activation, in issue order (R15). -/
inductive Effect where
  | send (t : Token) (remote : Bool) (link : Nat)
  | frameWrite (fp off : Nat) (v : Word)
  | frameClear (fp off cnt : Nat)
  | frameFree (fp : Nat)
  | frameAlloc (cls level : Nat) (useRes : Bool) (r : Reply)
  | group (op : GroupOp) (id : Word) (scope : Nat) (r : Option Reply)
  | halloc (shape : BitVec 32) (kind : Nat) (r : Reply)
  | handle (op : HandleOp) (desc : Word) (r : Option Reply)
  | service (num : Nat) (arg : Word) (r : Reply)
  | resume (mode : Nat) (fp : Nat)
  | writeSpecial (no ctx : Nat) (v : Word)
  | tile (ins : Instr) (vd va vb vc : Word) (r : Option Reply)
  | mem (ins : Instr) (vd va vb vc : Word) (ea : Nat) (r : Option Reply)
  | sys (ins : Instr) (word : Word) (vd va vb : Word) (r : Option Reply)
  deriving DecidableEq, Repr

/-- An activation in flight (R56, R97). -/
structure Activation where
  ctx : Nat
  ip : BitVec 11
  pc : Nat
  /-- first word index past the words this arm may run (R53, R109) -/
  limit : Nat
  fp : BitVec 17
  itn : BitVec 16
  pz : Bool
  inv : Bool
  ovf : Bool
  dz : Bool
  out : Bool
  regs : Vector Word 16
  preds : BitVec 8
  effects : List Effect
  armB : Bool
  ended : Bool
  feat : BitVec 5
  tok : Token
  /-- the claimed match slot and the payload of the partner operand (R107, R121) -/
  claim : Option Nat
  partner : Word
  step : Bool
  trapHandler : Bool
  tag : Bool
  hist : Nat
  org : Origin
  deps : List Nat
  /-- the activation is in its commit (R16): the commit numbers of its first and of its next effect -/
  committing : Option (Nat × Nat)
  /-- the clk of its `end` (R16) -/
  endAt : Nat := 0
  /-- registers, and predicates from 16 on, that a multi-clk instruction has written, with the clk from which they can be read (R112) -/
  avail : Tbl Nat := []
  deriving DecidableEq, Repr

/-- A fired activation that waits for a slot (R108). -/
structure Fired where
  tok : Token
  word : Word
  d1 : Word
  d2 : Word
  pz : Bool
  claim : Option Nat
  partner : Word
  armB : Bool
  step : Bool
  trapHandler : Bool
  org : Origin
  hist : Nat
  deps : List Nat
  deriving DecidableEq, Repr

/-- A queued trap (R120, R121). -/
structure TrapRec where
  hdr : Word
  payload : Word
  partner : Word
  detail : Word
  status : Word
  va : Word
  time : Word
  handle : Word
  itn : BitVec 16
  deps : List Nat
  deriving DecidableEq, Repr

/-- A service request that waits at the commit stage (R123). -/
structure ServiceReq where
  who : Who
  /-- act.itn of the caller -/
  itn : BitVec 16
  gen : Nat
  num : Nat
  arg : Word
  reply : Reply
  psn : Bool
  deps : List Nat
  deriving DecidableEq, Repr

/-! ### Pages and context slots -/

/-- A context's page at a site (R43, R44): code words, target entries, stream descriptors (as four words each). -/
structure Page where
  index : Nat
  feat : BitVec 8
  pcls : Nat
  code : List Word
  targets : List Word
  streams : List (List Word)
  seedCls : Nat
  reserve : List (Nat × Nat)
  deriving DecidableEq, Repr

/-- A context slot that a region holds at a site (R10, R286, R293). `held` is the hold of R92 before the wave. -/
structure CtxSlot where
  asid : Nat
  handle : Nat
  bx : Nat
  by_ : Nat
  w : Nat
  h : Nat
  page : Option Page
  held : Bool
  frozen : Bool
  /-- CSW hold (R105) -/
  csw : Bool
  /-- tokens captured in arrival order (R105, R307) -/
  captured : List Flight
  /-- stopped tokens, captured first (R428) -/
  stopped : List Flight
  deriving DecidableEq, Repr

/-- The quiescence counters of a context at a site (R302). LIVE, REQ and TILE are counted from the queues themselves. -/
structure Counters where
  sent : Nat
  recv : Nat
  eos4 : Nat
  deriving DecidableEq, Repr

/-! ### Tile store and engines -/

/-- A live or dying tile, kept under its first granule (R175). -/
structure Tile where
  owner : Nat
  kind : Nat
  shape : BitVec 32
  count : BitVec 16
  poison : Word
  /-- the commit number at which its reference count reached zero -/
  dying : Option Nat
  deriving DecidableEq, Repr

/-- VE_BANKCFGb (R182). -/
structure Bank where
  grp : Nat
  shared : Bool
  pend : Bool
  owner : Nat
  deriving DecidableEq, Repr

/-- A bank reconfiguration in progress (R181); `seq` tells the accesses committed before it. -/
structure BankOp where
  seq : Nat
  bank : Nat
  grp : Nat
  shared : Bool
  owner : Nat
  wiping : Bool
  deriving DecidableEq, Repr

/-- A committed `halloc` that waits for granules (R176). -/
structure HallocReq where
  shape : BitVec 32
  kind : Nat
  who : Who
  gen : Nat
  psn : Bool
  target : Reply
  deps : List Nat
  org : Origin
  deriving DecidableEq, Repr

/-- A weight plane (R248): the tile image it was loaded from, with its shape word, metadata and poison columns. -/
structure Plane where
  valid : Bool
  shape : BitVec 32
  img : List Byte
  /-- 0 dense, 1 8:16, 2 4:16; of a sparse plane that no `mspm` has met yet, a free value (log entry 27) -/
  sparsity : Nat
  metaOk : Bool
  /-- the indices by row, up to 32 × 96 -/
  idx : List (List Nat)
  pc : BitVec 32
  deriving DecidableEq, Repr

/-- An accumulator element (R248). -/
structure AccEl where
  v : BitVec 32
  s : Int
  nan : Bool
  pos : Bool
  neg : Bool
  deriving DecidableEq, Repr

structure AccRow where
  els : List AccEl
  poison : Bool
  count : Nat
  clear : Bool
  deriving DecidableEq, Repr

/-- A row's top-k list (R265): values and indices, best first. -/
structure TopRow where
  pairs : List (BitVec 32 × BitVec 32)
  poison : Bool
  deriving DecidableEq, Repr

/-- The matrix engine's architectural state (R248) but for G_mat, which belongs to the owning context. -/
structure MxCore where
  active : Plane
  shadow : Plane
  acc : List AccRow
  anchored : Bool
  anchor : Int
  chain : List (List Word)
  topk : List TopRow
  k : Nat
  deriving DecidableEq, Repr

structure MatrixUnit where
  core : MxCore
  claim : Bool
  /-- the saved image is void: its owner was contained during the claim (R267) -/
  void : Bool
  owner : Option Nat
  sticky : BitVec 3
  queue : List TileOp
  deriving DecidableEq, Repr

/-- Per-context vector and random state of a site (R57, R58, R169). -/
structure CtxRegs where
  seed : Word
  exc : BitVec 8
  gseq : Word
  gvec : Word
  gmat : Word
  deriving DecidableEq, Repr

structure TileUnit where
  /-- granule to tile -/
  tiles : Tbl Tile
  /-- granule generations that are not 0 -/
  gens : Tbl (BitVec 5)
  waiting : List HallocReq
  banks : List Bank
  bankOps : List BankOp
  queue : List TileOp
  sticky : BitVec 32
  outflg : BitVec 16
  deriving DecidableEq, Repr

/-- An open stream (R228, R229, R231). -/
structure StreamRun where
  sdx : Nat
  who : Who
  gen : Nat
  psn : Bool
  desc : List Word
  target : Reply
  alc : Nat
  off : Word
  pos : Nat
  replayPos : Nat
  parked : Bool
  /-- since when, in clk -/
  since : Nat := 0
  /-- item times passed in the present run of 256 (R300) -/
  beat : Nat
  seq : Nat
  deps : List Nat
  org : Origin
  /-- the first commit number of its activation -/
  act : Nat := 0
  deriving DecidableEq, Repr

/-- An item that a REPLAY stream has delivered since its replay point: its bytes in the window, the rows that were poisoned (a scalar has
one), and whether it failed, and so has no bytes (R231). -/
structure WinItem where
  len : Nat
  rows : Word
  fail : Bool
  deriving DecidableEq, Repr

/-- The memory port's own state (R215, R229, R234, R236). Requests are in `State.reqs`. -/
structure PortUnit where
  ext : Tbl Extent
  /-- open streams by generator, 0 to 7; a restored stream that waits for one has a higher number (R229, R310) -/
  gens : Tbl StreamRun
  sopens : List MemReq
  /-- for each REPLAY stream, context·32 + SDX: the items delivered since its replay point, and how many of them a replay has
  sent again (R231) -/
  wins : Tbl (List WinItem × Nat)
  /-- the cistern slices that the pager has set, by ASID·8 + context: base, length, records; MP_CISTc and MP_CISTNc show those of the
  ASID that `cistAsid` gives for the context (R234, R236) -/
  cistBase : Tbl Nat
  cistLen : Tbl Nat
  cistCount : Tbl Nat
  cistAsid : Tbl Nat
  /-- slices whose held token has been reported (R234) -/
  cistFull : List Nat
  /-- for each slice, the accesses causally before each of its records (R68, R93) -/
  cistDeps : Tbl (List (List Nat))
  deriving DecidableEq, Repr

/-- An entry of the firing history (R423). -/
structure HistEntry where
  gen : Nat
  ctx : Nat
  ip : BitVec 11
  itn : BitVec 16
  fp : BitVec 17
  stamp : BitVec 16
  clk : BitVec 16
  org : Origin
  /-- monadic or control-only: the wait is 0 (R424) -/
  single : Bool
  deriving DecidableEq, Repr

/-- The governor's record of a context's window (R299): the measured class, and the activation that committed the first
operation beyond the declared class. -/
structure PowerRec where
  cls : Nat
  who : Option Who
  deriving DecidableEq, Repr

structure SiteObs where
  ev : Tbl (BitVec 32)
  hist : Tbl HistEntry
  next : Nat
  power : Tbl PowerRec
  deriving DecidableEq, Repr

/-- The sequencer's state but for its memories (R95 to R124). -/
structure SeqUnit where
  acts : Tbl Activation
  fireQ : List Fired
  retryQ : List Flight
  /-- slots whose claim has ended since held tokens were last presented (R107) -/
  released : List Nat
  /-- claimed slots that an `fclr` clears when the claim ends (R145) -/
  clearing : List Nat
  trapQ : List TrapRec
  /-- activation slots that have reached `end`, in commit order (R16) -/
  ready : List Nat
  service : Option ServiceReq
  frames : Tbl FrameRec
  reserved : Tbl ReserveFrame
  allocQ : List FrameReq
  trapIp : BitVec 11
  trapEn : Bool
  sysIp : BitVec 11
  sysEn : Bool
  halt : Bool
  trapBad : Bool
  sticky : BitVec 32
  groups : Tbl Group
  /-- for each match slot with a parked operand, the accesses causally before it (R68) -/
  parkedDeps : Tbl (List Nat)
  /-- the activation slot whose turn to issue comes first, and the clk of the last issue (R14) -/
  issueNext : Nat
  issuedAt : Option Nat
  /-- the clk from which the integer and the float divider take an operation (R112) -/
  idivFree : Nat
  fdivFree : Nat
  /-- the network whose turn at the input comes first (0 request, 1 reply, 2 system), and the clk of the last token accepted (R103) -/
  inNext : Nat
  inAt : Option Nat
  /-- the link cache, oldest fill first: binding, LINK, entry (R297) -/
  links : List (Nat × Nat × Word) := []
  deriving DecidableEq, Repr

/-- One site (R8): 0 to 2,047 compute, 2,048 to 2,079 system. -/
structure Site where
  feat : BitVec 5
  ctxs : Tbl CtxSlot
  cregs : Tbl CtxRegs
  seq : SeqUnit
  tile : TileUnit
  mx : MatrixUnit
  port : PortUnit
  obs : SiteObs
  counts : Tbl Counters
  deriving DecidableEq, Repr

/-! ### Memory -/

/-- Damage of stored data: of a 64 B line of HBM or of an 8 B unit of a tile store (R173, R211). -/
inductive Mark where
  | correctable | uncorrectable | poison
  deriving DecidableEq, Repr

/-- The observers of an access or fence (R74): its scope, its site, its region, width 0 for an agent that has none, and the activation
that issued it, by its first commit number. -/
structure Observers where
  scope : Nat
  site : Nat
  bx : Nat
  by_ : Nat
  w : Nat
  h : Nat
  act : Nat := 0
  deriving DecidableEq, Repr

/-- Who makes an access: its path (R65), site, context and ASID, its commit number and that of its activation's first effect, its alias
class (R71), the accesses causally before it (R68), the ordering points that it reaches (R67) and the observers of its scope (R74).
`acq`: an acquire (R78). `rel`: the release set of a release (R76). `rmw`: an atomic. `strong`: a read of an engine that sees every write
of its own path that has performed within the write's scope (log entry 24). -/
structure Agent where
  path : Nat
  site : Nat
  ctx : Nat
  asid : Nat := 0
  seq : Nat
  act : Nat := 0
  cls : Option Nat := none
  deps : List Nat := []
  pts : List (Nat × Nat × Nat) := []
  obs : Observers
  acq : Bool := false
  rel : Option (List Nat) := none
  rmw : Bool := false
  strong : Bool := false
  deriving DecidableEq, Repr

/-- Later accesses that must see a write: those on the paths of a mask that a context commits at a site after commit number `seq`, or
that are causally after the access or fence of that number, where the observers hold them (R78, R81). `sync`: by a synchronisation. -/
structure Follow where
  paths : BitVec 8
  asid : Nat
  site : Nat
  ctx : Nat
  seq : Nat
  sync : Bool
  obs : Observers
  deriving DecidableEq, Repr

/-- A write as later reads see it (R75, R84): the 8 B unit, the bytes written in it, its contents before, who wrote, how many commit
numbers had been given out when it performed, and the scopes at which it has performed. `saw` are the reads that have returned it, or
part of it (R83), `after` the accesses that are ordered after it, `follows` those that must see it. `fences` are the fences that cover it
because their context maps or owns its location (R81). -/
structure WriteRec where
  unit : Nat
  mask : BitVec 8
  old : Word
  who : Agent
  perf : Nat
  obs : List Observers
  saw : List Agent
  after : List Agent
  follows : List Follow
  fences : List Nat
  deriving DecidableEq, Repr

/-- A write to host memory that stands in the posted-write queue: its number there, who wrote, its address, and the fences that cover it
by its location (R75, R81). -/
structure Posted where
  num : Nat
  who : Agent
  pa : Nat
  fences : List Nat
  deriving DecidableEq, Repr

/-- A fence in force (R81). -/
structure FenceRec where
  seq : Nat
  site : Nat
  ctx : Nat
  asid : Nat := 0
  bef : BitVec 8
  aft : BitVec 8
  obs : Observers
  deps : List Nat
  /-- the request whose completion it sends; none for an implied fence -/
  req : Option Nat
  deriving DecidableEq, Repr

structure MemState where
  /-- weight-store banks whose contents a failed graft has left undefined, die·16 + bank: each byte reads as its cell exclusive-or a free
  value drawn with this number (R364; log entry 8) -/
  wild : Tbl Nat := []
  /-- every byte of the part by physical address: HBM stacks, weight stores, tile stores; rising, no zero byte -/
  cells : List Host.Cell
  /-- the host's memory by host address, as this part sees it -/
  host : List Host.Cell
  /-- frame-store slots by site·131,072 + slot; rising, no empty slot -/
  frames : Tbl Slot
  /-- damaged lines by PA/64, and damaged tile-store units by PA/8 -/
  lines : Tbl Mark
  units : Tbl Mark
  /-- the armed injection: its storage address and the mark that the next read there meets (R430) -/
  inj : Option (Nat × Mark)
  recs : List WriteRec
  /-- posted host writes that no PCIe read has followed yet, how many there have been, and the PCIe reads issued behind them: the request
  or fence, the number of the first write that it is not behind, and the clk of its issue (R75) -/
  posted : List Posted := []
  postNum : Nat := 0
  flushes : List (Nat × Nat × Nat) := []
  /-- weight-store banks in refresh, die·16 + bank (R213), and when each bank's next window begins -/
  refresh : List Nat
  wsNext : Tbl Nat
  /-- MP_WSBUSY of each die (R236) -/
  wsBusy : Tbl (BitVec 16)
  deriving DecidableEq, Repr

/-! ### Region pager -/

/-- The launch states of R289. -/
inductive LState where
  | placing | idle | running | frozen | evicted | resuming | containing | failed
  deriving DecidableEq, Repr

/-- A seed waiting for or released to a launch (R301). -/
structure Seed where
  entry : Nat
  ctl : Bool
  psn : Bool
  itn : BitVec 16
  payload : Word
  /-- a page of the expert placement engine rides on it (R361) -/
  tag : Option Nat
  deps : List Nat
  /-- the I/O die at which it arrived (R28) -/
  io : Nat := 0
  deriving DecidableEq, Repr

/-- What the seed log holds: seeds, and link tokens as they were delivered (R301). -/
inductive Released where
  | seed (x : Seed)
  | token (f : Flight)
  deriving DecidableEq, Repr

/-- What a save keeps of a site beside the records of its segment (R126, R184, R307, R308; log entry 32). -/
structure SiteSnap where
  regs : CtxRegs
  /-- the captured tokens, which travel with their origins and causes -/
  toks : List Flight
  gens : List StreamRun
  sopens : List MemReq
  allocQ : List FrameReq
  parkedDeps : Tbl (List Nat)
  csw : Bool
  deriving DecidableEq, Repr

/-- What a replay would start from (R309). -/
inductive BaseKind where
  | none | empty | saved
  deriving DecidableEq, Repr

/-- Why a freeze is in progress (R307). -/
inductive FreezeFor where
  | freeze (r : Option SysReq) | vacate (r : Option SysReq) | cut (r : Option SysReq) | fault | power | stop
  deriving DecidableEq, Repr

/-- A freeze in progress: which sites have frozen, the markers still travelling (site, input 0 local 1 west 2 east 3 north
4 south, reply network), and the inputs already marked. -/
structure Freeze where
  why : FreezeFor
  marked : List (Nat × Nat × Bool)
  deriving DecidableEq, Repr

structure Marker where
  handle : Nat
  site : Nat
  input : Nat
  reply : Bool
  deriving DecidableEq, Repr

/-- A launch table entry (R286). -/
structure Launch where
  state : LState
  imageKey : Nat
  ctx : Nat
  asid : Nat
  sys : Bool
  bx : Nat
  by_ : Nat
  w : Nat
  h : Nat
  /-- the I/O die of a system graph -/
  io : Nat
  /-- PR_FLAGS bit 0, with PR_BX and PR_BY -/
  fixed : Option (Nat × Nat)
  /-- copy 1's base, and its I/O die (R315) -/
  twin : Option (Nat × Nat × Nat)
  twinOff : Bool
  round : BitVec 16
  base : BaseKind
  seeds : List Seed
  links : List Flight
  log : List Released
  logOver : Bool
  windowOver : Bool
  evictAtEnd : Bool
  nsink : Nat
  endOn : Bool
  endEntry : Word
  endFp : BitVec 17
  endSite : Nat
  endCtx : Nat
  inRun : Bool
  /-- an evicted launch has a saved image -/
  saved : Bool
  /-- kept with the saved image, by site -/
  snap : Tbl SiteSnap
  /-- the rank-4 ends that the run had counted when its sites were vacated (R302) -/
  eosBase : Nat
  /-- the same count at the replay base -/
  eosAtBase : Nat
  /-- its containment has been handed to the recovery engine (R313) -/
  escalated : Bool
  freeze : Option Freeze
  /-- sum of SENT of the last wave that found the region still (R303) -/
  quiet : Option Nat
  /-- requests that wait for the launch to reach IDLE (R322, R324) -/
  replies : List SysReq
  /-- cut or freeze requests behind the one in progress (R324) -/
  behind : List SysReq
  /-- runs ended since placement, for retiring pages (R361) -/
  runs : Nat
  credSince : Bool
  /-- the experts of the region's columns, once `xver.resize` has given them out (R367) -/
  cols : List Nat
  /-- it goes to its old I/O die and no other (R438) -/
  pinIo : Bool := false
  /-- a run was in progress when the replay base was made (R309, R315) -/
  baseRun : Bool := false
  deriving DecidableEq, Repr

/-- A binding of an ASID to its context descriptor, as the pager read it when it bound it (R287, R288, log entry 112). -/
structure Binding where
  pa : Nat
  seq : BitVec 32
  lost : Bool
  desc : List Byte := []
  deriving DecidableEq, Repr

/-- An image kept in the configuration caches (R295). -/
structure CachedImage where
  bytes : List Byte
  deriving DecidableEq, Repr

/-- A placement or resume that waits (R294, R310). -/
inductive WaitWhat where
  | place | resume | twin
  deriving DecidableEq, Repr

structure WaitPlace where
  what : WaitWhat
  handle : Nat
  req : Option SysReq
  /-- the launch's first placement, which writes the data sections (R295 step 3) -/
  data : Bool
  denied : Bool
  deriving DecidableEq, Repr

/-- A migration in progress (R232). -/
structure Migration where
  asid : Nat
  va : Nat
  old : Nat
  new : Nat
  p : Nat
  req : Nat
  /-- complete, but requests naming the old frame are still sent on until a gbump (R232) -/
  fwd : Bool
  deriving DecidableEq, Repr

/-- What leaves a twin's region: a memory request, or a token for another launch (R316). -/
inductive ExitWhat where
  | req (id : Nat)
  | token (f : LinkFlight)
  deriving DecidableEq, Repr

/-- A twin exit (R316): which copy, its key (site position, class and sequence) and its digest; `since` is the clk at which it
reached the comparator. -/
structure TwinExit where
  handle : Nat
  copy : Bool
  pos : Nat
  cls : Nat
  num : Nat
  digest : Nat
  what : ExitWhat
  since : Option Nat
  deriving DecidableEq, Repr

structure PagerState where
  /-- the I/O dies whose configuration cache holds a copy of the launch table and of the images: they are equal (R28, R437, R438) -/
  copies : List Nat := [0, 1]
  launches : Tbl Launch
  binds : Tbl Binding
  gens : Tbl (BitVec 16)
  cache : Tbl CachedImage
  waiting : List WaitPlace
  queue : List SysReq
  markers : List Marker
  budget : Tbl Nat
  claim : Tbl Nat
  tlim : Tbl Nat
  temp : Tbl Nat
  duty : Tbl Nat
  /-- the clk of each die's last step of DUTY (R300) -/
  dutyAt : Tbl Nat
  fltLimit : Nat
  notify : Word
  pcFreeze : Bool
  sysCd : Nat
  migs : List Migration
  twins : List TwinExit
  /-- exits so far, by launch, copy, site position and class (R316) -/
  twinNums : Tbl Nat
  /-- requests of copy 0 that matched and may perform -/
  twinOk : List Nat
  /-- matched requests of copy 0 and copy 1: the second takes the first one's answer (R316) -/
  twinPairs : List (Nat × Nat)
  links : List LinkFlight
  /-- page walks asked for: site, ASID, context, page number (R217) -/
  walks : List (Nat × Nat × Nat × Nat)
  deriving DecidableEq, Repr

/-! ### Collective engine -/

/-- An operation that is current in its group, or the last one that completed (R330, R335 to R346). -/
structure CollOp where
  req : SysReq
  fn : Nat
  num : Nat
  /-- the descriptor as read when the operation reached the engine (R336) -/
  desc : List Byte
  /-- why it fails as soon as it is current: code and DETAIL (R334, R336, R346) -/
  bad : Option (Nat × Nat)
  /-- issued here before the table version in force was adopted (R345) -/
  earlier : Bool
  /-- every participant has issued it (R330) -/
  started : Bool
  /-- completed here: it takes part in restarts still, and writes nothing (log entry 36) -/
  done : Bool
  /-- the ranges' translations, pinned (R336) -/
  xl : List Xlat
  /-- the bitmap of R338 -/
  marks : List Bool
  /-- the anchors of pass 1, by block; none for a block without a finite non-zero element (R341) -/
  anchors : Tbl Int
  /-- up messages held: bit, sender, values (R339) -/
  ups : List (Nat × Nat × List CollVal)
  /-- bits for which this participant has sent its up message -/
  sentUp : List Nat
  /-- the mark exchange of R345: in progress, what the children have sent, own part sent -/
  exch : Bool
  mxUps : List (Nat × List Bool)
  mxSent : Bool
  restarts : Nat
  inv : Bool
  ovf : Bool
  pois : Bool
  psn : Bool
  /-- bits whose stall has been reported, and the clk of each tree's last progress (R350) -/
  stalled : List Nat
  progress : Tbl Nat
  deriving DecidableEq, Repr

structure CollGroup where
  asid : Nat
  gtag : Nat
  members : List Nat
  key : Nat
  /-- each tree's links in the order of R334 -/
  trees : List (List Nat)
  /-- the number of the current or next operation -/
  opNum : Nat
  cur : Option CollOp
  past : Option CollOp
  /-- operations issued here after the current one (R330) -/
  waiting : List CollOp
  /-- what other participants have issued: device, operation, digest, and whether they had before they adopted the version in force -/
  issued : List (Nat × Nat × Nat × Bool)
  deriving DecidableEq, Repr

structure HeldMsg where
  msg : CollMsg
  since : Nat
  deriving DecidableEq, Repr

structure CollState where
  queue : List SysReq
  groups : List CollGroup
  held : List (List HeldMsg)
  ltBase : Nat
  ltLen : Nat
  ltVer : BitVec 32
  stall : List (BitVec 32)
  sticky : List (BitVec 32)
  deriving DecidableEq, Repr

/-! ### Expert placement engine -/

inductive RepState where
  | free | live | retiring | drained | failed
  deriving DecidableEq, Repr

structure Replica where
  state : RepState
  handle : Nat
  entry : Nat
  expert : Nat
  word : Word
  batch : Nat
  /-- open page, if any -/
  openPage : Option Nat
  queue : List Nat
  /-- released pages; 0 until the seed is delivered, then the run, counted from 1, whose end retires the page (R361) -/
  redo : List (Nat × Nat)
  drainReq : Option SysReq
  deriving DecidableEq, Repr

/-- A pool page in use (R360): entries so far, stamp, closed. -/
structure PoolPage where
  rows : List Word
  stamp : BitVec 16
  closed : Bool
  deriving DecidableEq, Repr

/-- An entry to route (R359): `index` is its place in its request. -/
structure DispEntry where
  expert : Nat
  payload : Word
  key : Nat
  index : Nat
  req : SysReq
  deriving DecidableEq, Repr

/-- The dispatch being served (R359): the entries still to route. -/
structure Dispatch where
  req : SysReq
  rest : List DispEntry
  done : Nat
  deriving DecidableEq, Repr

/-- The graft in progress (R363): the stage that comes next, its descriptor, and whether stage 4 has asked for the launch. -/
structure Graft where
  req : SysReq
  stage : Nat
  desc : List Byte
  placing : Bool
  deriving DecidableEq, Repr

structure XpState where
  asid : Nat
  en : Bool
  nexp : Nat
  pooln : Nat
  pool : Nat
  forced : BitVec 16
  ver : BitVec 16
  sticky : BitVec 32
  counters : Tbl (BitVec 32)
  rows : Tbl (List Nat)
  reps : Tbl Replica
  pages : Tbl PoolPage
  waiting : List DispEntry
  cur : Option Dispatch
  disp : List SysReq
  other : List SysReq
  graft : Option Graft
  grafts : List SysReq
  verWait : List SysReq
  /-- pages of failed replicas that wait for a row: expert, page (R366) -/
  orphans : List (Nat × Nat)
  /-- experts whose empty row has been reported (R359) -/
  noRep : List Nat
  /-- launches whose sites have written a fault that fails a replica (R366) -/
  hurt : List Nat
  deriving DecidableEq, Repr

/-! ### Recovery engine -/

/-- A seal in progress (R389); `lost`: a die reset has discarded a write of its release set (R390). -/
structure Seal where
  req : SysReq
  point : Nat
  lost : Bool
  deriving DecidableEq, Repr

/-- A write of a cellar line that has performed at the copy that serves the line and not yet at the other one (R383): its commit number,
the cellar address, its bytes, and whether the other copy is the secondary. -/
structure MirrorWrite where
  seq : Nat
  pa : Nat
  data : List Byte
  second : Bool
  deriving DecidableEq, Repr

structure RecState where
  asid : Nat
  en : Bool
  nreg : Nat
  celBase : Nat
  logLen : Nat
  logFirst : Nat
  openState : Nat
  nent : Nat
  openSeq : Nat
  sealedSeq : Nat
  scan : Bool
  /-- the requests that wait for the rollback in progress, and the commit number at which it began (R391) -/
  roll : Option (List SysReq)
  rollFrom : Nat
  /-- requests of a rollback that has ended, whose slot write is not yet at both mirrors, with their target (R393) -/
  owed : List (SysReq × Nat)
  held : BitVec 8
  resil : BitVec 8
  /-- dirty regions with their stale copies: bit 0 the primary, bit 1 the secondary (R384) -/
  dirty : Tbl (BitVec 2)
  tags : Tbl (BitVec 32)
  queue : List SysReq
  sealing : Option Seal
  /-- cellar writes that the other mirror has not acknowledged yet, oldest first (R383) -/
  mirrors : List MirrorWrite := []
  deriving DecidableEq, Repr

/-! ### Links, host, observation, package -/

/-- A Vosaip port (R403, R415); `tries`: how often the current flit has been replayed. -/
structure PortState where
  up : Bool
  train : Bool
  replays : BitVec 32
  tries : Nat
  deriving DecidableEq, Repr

/-- A record at the headgate (R410, R411): its source, none for the host; where it was written, and its bytes; how many STOREs its source
had sent before it; for a record of this device, the request that wrote it and the STOREs before that; for a peer's, the tag of its
answer. -/
structure HeadRec where
  src : Option Nat
  off : Nat
  data : List Byte
  need : Nat
  req : Option Nat
  tag : Nat
  deps : List Nat
  /-- its place among all records that have arrived, a commit number of the model (R407) -/
  num : Nat := 0
  deriving DecidableEq, Repr

structure Window where
  frame : Nat
  nfr : Nat
  v : Bool
  r : Bool
  w : Bool
  a : Bool
  host : Bool
  allPod : Bool
  dev : Nat
  ctx : Nat
  deriving DecidableEq, Repr

/-- What the part has sent outside, oldest first: messages to peers, host accesses, interrupts. -/
inductive OutMsg where
  | peer (dev : Nat) (id : Nat) (pa : Nat) (ins : Instr) (data : List Byte)
  | answer (src : Option Nat) (tag : Nat) (code : Nat) (data : List Byte)
  | token (dev : Nat) (handle : Nat) (t : Token)
  | coll (dev port : Nat) (m : CollMsg)
  /-- a message to device `dev` in class `cls` with its sequence number, on `port` (R404, R406) -/
  | pod (dev cls num port : Nat) (m : OutMsg)
  | hostRead (id addr len : Nat)
  | hostWrite (addr : Nat) (data : List Byte)
  | msix (vec : Nat)
  | time (w0 w1 : Word)
  | report (bytes : List Byte)
  deriving DecidableEq, Repr

/-- A message to device `dev` whose flits its receiver has not acknowledged: class (0 SEED, 1 STORE, 2 FETCH, 3 REPLY, 4 COLL, 5 SYS),
sequence number within pair and class, and the port on which it was sent; none while no port reaches the device (R404, R407). -/
structure Unacked where
  dev : Nat
  cls : Nat
  num : Nat
  port : Option Nat
  msg : OutMsg
  /-- the clk at which it was last sent (R429) -/
  since : Nat := 0
  deriving DecidableEq, Repr

structure LinkState where
  ports : List PortState
  devno : Nat
  devSet : Bool
  podPa : Nat
  hostBase : Nat
  windows : List Window
  discard : List (BitVec 32)
  inq : List (List HeadRec)
  hold : List (List HeadRec)
  /-- inbound requests that wait for their target, or for room at the headgate -/
  inbound : List Inbound
  /-- STOREs performed, by source: 0 the host, else the device number plus 1 (R88) -/
  stores : Tbl Nat
  /-- messages not acknowledged yet, oldest first; the next sequence numbers to devices, by device·8 + class; the numbers seen of messages
  from devices, by device·8 + class (R404) -/
  unacked : List Unacked := []
  sentNum : Tbl Nat := []
  seenNum : Tbl (List Nat) := []
  deriving DecidableEq, Repr

structure Monitor where
  src : BitVec 12
  en : Bool
  max : BitVec 32
  min : BitVec 32
  buckets : List (BitVec 32)
  deriving DecidableEq, Repr

/-- A walk in progress (R425): the entry it stands at. -/
structure Walk where
  req : SysReq
  depth : Nat
  steps : Nat
  site : Nat
  idx : Nat
  gen : Nat
  deriving DecidableEq, Repr

structure ObsState where
  swEn : Bool
  period : Nat
  swBase : Nat
  /-- the site that the sweeper visits next, and the clk at which its present period began (R419) -/
  swSite : Nat := 0
  swFrom : Nat := 0
  /-- samples that have arisen and that their monitors have still to take: monitor and value (R429) -/
  samples : List (Nat × Nat) := []
  /-- the time base in ns, and the ns still to be withheld (R421, R422) -/
  time : Word
  withhold : Nat
  /-- the sub-ns part of the time base, in sevenths of a ns (1.4 GHz, R3) -/
  timeFrac : Nat
  trBase : Nat
  prod : BitVec 32
  lost : BitVec 16
  trLen : Nat
  cons : BitVec 32
  stopArmed : Bool
  stopHandle : BitVec 32
  stop1 : Word
  /-- launches stopped by R428 whose unmatched operands are listed once they are FROZEN -/
  listing : List Nat
  einjPa : Nat
  einjKind : Nat
  mons : List Monitor
  walks : List Walk
  queue : List SysReq
  deriving DecidableEq, Repr

/-- Where the boot sequence of R440 stands. -/
inductive BootPos where
  | wiping | waiting | running
  deriving DecidableEq, Repr

structure PkgState where
  life : Nat
  ladv : Bool
  svn : Nat
  bootWin : Bool
  bootFail : Bool
  recov : BitVec 8
  boot : BootPos
  /-- dies still held by a wipe: 0 to 7 compute, 8 and 9 the I/O dies (R439) -/
  wiping : List Nat
  /-- by compute die, the part's clk count at which its sites' %clk was 0, when that is not 0 (R436) -/
  dieClk : Tbl Nat
  /-- the firmware's launch handle and its image with signature and key, which the configuration caches keep (R438, R441) -/
  fw : Option (Nat × List Byte)
  /-- requests of the engines of an I/O die in reset, answered once it has left reset: die, request (R438) -/
  unanswered : List (Nat × SysReq)
  deriving DecidableEq, Repr

/-- The steps of the opcode table's engine rows that the part takes of itself, by their names in `Instr`; the others come from outside,
as inputs. -/
inductive Move where
  | activationSlotGrant (site : Nat)
  | heldTokenRetry (site : Nat)
  | commit (site : Nat)
  | trapDelivery (site : Nat)
  | serviceDelivery (site : Nat)
  | frameGrant (site n : Nat)
  | tileFree (site gran : Nat)
  | hallocGrant (site n : Nat)
  | bankWipeDone (site n : Nat)
  | bankReconfigure (site : Nat) (v : Word)
  | vectorOpStart (site : Nat)
  | vectorOpComplete (site : Nat)
  | matrixOpStart (site : Nat)
  | matrixOpComplete (site : Nat)
  | gapBookingDrop (site : Nat)
  | streamGeneratorGrant (site : Nat)
  | streamItem (site gen : Nat)
  | bubEmit (site gen : Nat)
  | powerWindow (site : Nat)
  | tokenArrival (n : Nat)
  | cswHold (n : Nat)
  | cswRelease (n : Nat)
  | rmkArrival (n : Nat)
  | cisternWrite (n : Nat)
  | stopHit (n : Nat)
  | groupRequest (n : Nat)
  | handleRequest (n : Nat)
  | linkTokenRoute (n : Nat)
  | memTranslate (id : Nat)
  | faultTimeSample (site : Nat)
  | cellarLineWrite (id : Nat)
  | staleGenerationRetry (id : Nat)
  | memAccessPerform (id : Nat)
  | hostCompletionTimeout (id : Nat)
  | pageWalkDone (n : Nat)
  | migrationGranuleCopy (n : Nat)
  | migrationComplete (n : Nat)
  | wsRefreshEnd (die bank : Nat)
  | wsRefreshStart (die bank : Nat)
  | configWaveDone (handle : Nat)
  | seedRelease (handle : Nat)
  | quiescenceWave (handle : Nat)
  | containmentTrigger (handle cause : Nat)
  | escalatedRollback (handle : Nat)
  | placementRetry (n : Nat)
  | twinDigest (n : Nat)
  | twinDigestTimeout (n : Nat)
  | thermalDutyStep (die : Nat)
  | chunkStall (asid gtag chunk : Nat)
  | collectiveOpStart (asid gtag : Nat)
  | colStall (engine n : Nat)
  | routeEntry
  | pageRelease (replica : Nat)
  | pageRetire (replica : Nat)
  | replicaFailed (replica : Nat)
  | graftStageDone
  | sealAbandoned (cause : Nat)
  | resilverRegion (k : Nat)
  | slotScan
  | seedRecord (die : Nat)
  | afterRelease (die n : Nat)
  | inboundRequest (r : Inbound)
  | portTrain (port : Nat) (done : Bool)
  | walkStep (n : Nat)
  | sweepVisit (site : Nat)
  | monitorSample (m v : Nat)
  | wipeComplete (dom : Nat)
  | calibrationEnd (die : Nat)
  deriving DecidableEq, Repr

/-- Who moves next (log entry 2). -/
inductive Turn where
  /-- the activation in this slot of this site issues its next word -/
  | issue (site slot : Nat)
  /-- flight `i` leaves the mesh for the ejection queue of its network at its destination (R103) -/
  | eject (i : Nat)
  /-- an outside event: a step of the table that no word names -/
  | event (e : Instr)
  /-- a step of the table that the part takes of itself -/
  | own (m : Move)
  /-- an engine does one thing that it can do: 0 the pager, 1 the collective engines, 2 expert placement, 3 recovery, 4 observation -/
  | serve (engine : Nat)
  /-- the receiver has acknowledged the flits of message `i` of those outstanding (R403, R404) -/
  | ack (i : Nat)
  /-- write `i` of those on their way to the other mirror is acknowledged there (R383) -/
  | mirror (i : Nat)
  /-- time passes: one clk -/
  | tick
  deriving DecidableEq, Repr

structure State where
  sites : Tbl Site
  mem : MemState
  mesh : List Flight
  groupReqs : List GroupReq
  handleReqs : List HandleReq
  reqs : List MemReq
  fences : List FenceRec
  pager : PagerState
  coll : CollState
  xp : XpState
  rcv : RecState
  link : LinkState
  obs : ObsState
  pkg : PkgState
  /-- clk since reset -/
  clk : Nat
  /-- the model's own: commit numbers given out -/
  seq : Nat
  /-- the model's own: tokens put on their way so far -/
  sent : Nat
  /-- the model's own: counter of free values -/
  free : Nat
  /-- the model's own: the site and slot whose instruction executes -/
  cur : Nat × Nat
  /-- the model's own: who moves next, when it is settled -/
  turn : Option Turn
  /-- the model's own: outside events not yet taken -/
  inputs : List Instr
  /-- the model's own: what the part has sent outside -/
  out : List OutMsg
  deriving DecidableEq, Repr

/-! ### Reset -/

def Slot.empty : Slot := { value := 0, pres := false, psn := false, port := false, stamp := 0 }

def Bank.reset : Bank := { grp := 0, shared := true, pend := false, owner := 0 }

def Plane.invalid : Plane :=
  { valid := false, shape := 0, img := [], sparsity := 0, metaOk := false, idx := [], pc := 0 }

def AccEl.zero : AccEl := { v := 0, s := 0, nan := false, pos := false, neg := false }

def AccRow.cleared : AccRow := { els := List.replicate 32 AccEl.zero, poison := false, count := 0, clear := true }

def TopRow.cleared : TopRow := { pairs := [], poison := false }

/-- The reset state of the matrix engine (R248). -/
def MxCore.reset : MxCore :=
  { active := Plane.invalid, shadow := Plane.invalid, acc := List.replicate 64 AccRow.cleared, anchored := false,
    anchor := 0, chain := [], topk := List.replicate 64 TopRow.cleared, k := 0 }

def MatrixUnit.reset : MatrixUnit :=
  { core := MxCore.reset, claim := false, void := false, owner := none, sticky := 0, queue := [] }

def TileUnit.reset : TileUnit :=
  { tiles := [], gens := [], waiting := [], banks := List.replicate 8 Bank.reset, bankOps := [], queue := [],
    sticky := 0, outflg := 0 }

def PortUnit.reset : PortUnit :=
  { ext := [], gens := [], sopens := [], wins := [], cistBase := [], cistLen := [], cistCount := [],
    cistAsid := [], cistFull := [], cistDeps := [] }

def SeqUnit.reset : SeqUnit :=
  { acts := [], fireQ := [], retryQ := [], released := [], clearing := [], trapQ := [], ready := [], service := none, frames := [],
    reserved := [], allocQ := [], trapIp := 0, trapEn := false, sysIp := 0, sysEn := false, halt := false,
    trapBad := false, sticky := 0, groups := [], parkedDeps := [], issueNext := 0, issuedAt := none, idivFree := 0, fdivFree := 0,
    inNext := 0, inAt := none }

def SiteObs.reset : SiteObs := { ev := [], hist := [], next := 0, power := [] }

/-- A site after reset. %feat reads every feature (log entry 6). -/
def Site.reset : Site :=
  { feat := 31, ctxs := [], cregs := [], seq := SeqUnit.reset, tile := TileUnit.reset,
    mx := MatrixUnit.reset, port := PortUnit.reset, obs := SiteObs.reset, counts := [] }

def MemState.reset : MemState :=
  { cells := [], host := [], frames := [], lines := [], units := [], inj := none, recs := [], refresh := [], wsNext := [], wsBusy := [] }

def PagerState.reset : PagerState :=
  { launches := [], binds := [], gens := [], cache := [], waiting := [], queue := [], markers := [], budget := [],
    claim := [], tlim := [], temp := [], duty := [], dutyAt := [], fltLimit := 50, notify := 0, pcFreeze := false,
    sysCd := 0, migs := [], twins := [], twinNums := [], twinOk := [], twinPairs := [], links := [], walks := [] }

def CollState.reset : CollState :=
  { queue := [], groups := [], held := [[], []], ltBase := 0, ltLen := 0, ltVer := 0, stall := [1400000, 1400000],
    sticky := [0, 0] }

def XpState.reset : XpState :=
  { asid := 0, en := false, nexp := 0, pooln := 0, pool := 0, forced := 0, ver := 0, sticky := 0, counters := [],
    rows := [], reps := [], pages := [], waiting := [], cur := none, disp := [], other := [], graft := none,
    grafts := [], verWait := [], orphans := [], noRep := [], hurt := [] }

def RecState.reset : RecState :=
  { asid := 0, en := false, nreg := 0, celBase := 0, logLen := 0, logFirst := 0, openState := 0, nent := 0,
    openSeq := 0, sealedSeq := 0, scan := false, roll := none, rollFrom := 0, owed := [], held := 0, resil := 0, dirty := [], tags := [],
    queue := [], sealing := none }

def PortState.reset : PortState := { up := false, train := false, replays := 0, tries := 0 }

def Window.reset : Window :=
  { frame := 0, nfr := 0, v := false, r := false, w := false, a := false, host := false, allPod := false, dev := 0,
    ctx := 0 }

def LinkState.reset : LinkState :=
  { ports := List.replicate 18 PortState.reset, devno := 0, devSet := false, podPa := 0, hostBase := 0,
    windows := List.replicate 16 Window.reset, discard := [0, 0], inq := [[], []], hold := [[], []],
    inbound := [], stores := [] }

def Monitor.reset : Monitor :=
  { src := 0, en := false, max := 0, min := 0xFFFFFFFF, buckets := List.replicate 16 0 }

def ObsState.reset : ObsState :=
  { swEn := false, period := 1000, swBase := 0, time := 0, withhold := 0, timeFrac := 0, trBase := 0, prod := 0,
    lost := 0, trLen := 0, cons := 0, stopArmed := false, stopHandle := 0, stop1 := 0, listing := [], einjPa := 0,
    einjKind := 0, mons := List.replicate 3 Monitor.reset, walks := [], queue := [] }

/-- The package after reset: the wipe of R440 step 3 is in progress; LIFE and SVN are fused (log entry 6). -/
def PkgState.reset : PkgState :=
  { life := 2, ladv := false, svn := 0, bootWin := false, bootFail := false, recov := 0, boot := .wiping,
    wiping := List.range 10, dieClk := [], fw := none, unanswered := [] }

/-- The machine right after a device reset (R437, R440), every memory wiped to zero (R438). -/
def State.reset : State :=
  { sites := [], mem := MemState.reset, mesh := [], groupReqs := [], handleReqs := [], reqs := [], fences := [],
    pager := PagerState.reset, coll := CollState.reset, xp := XpState.reset, rcv := RecState.reset,
    link := LinkState.reset, obs := ObsState.reset, pkg := PkgState.reset, clk := 0, seq := 0, sent := 0, free := 0,
    cur := (0, 0), turn := none, inputs := [], out := [] }

end Sys2Proof.Machine
end

