-- ==== Sys2Proof/Machine/Tbl.lean ====
section
/-! DEFINITION. Tables with natural-number keys, and small list and bit-field helpers. -/
namespace Sys2Proof.Machine

/-- The entry of key `k`, if there is one. -/
def Tbl.get? {α : Type} (t : Tbl α) (k : Nat) : Option α :=
  match t with
  | [] => none
  | (i, v) :: r => if i = k then some v else Tbl.get? r k

def Tbl.getD {α : Type} (t : Tbl α) (k : Nat) (d : α) : α := (Tbl.get? t k).getD d

/-- Store `v` under `k`, keeping the keys rising. -/
def Tbl.set {α : Type} (t : Tbl α) (k : Nat) (v : α) : Tbl α :=
  match t with
  | [] => [(k, v)]
  | (i, w) :: r =>
    if k < i then (k, v) :: (i, w) :: r
    else if k = i then (k, v) :: r
    else (i, w) :: Tbl.set r k v

def Tbl.erase {α : Type} (t : Tbl α) (k : Nat) : Tbl α := t.filter (fun p => p.1 ≠ k)

/-- Store `v` under `k`, or remove the entry when `v` is what an absent key reads as. -/
def Tbl.put {α : Type} [DecidableEq α] (t : Tbl α) (k : Nat) (v dflt : α) : Tbl α :=
  if v = dflt then Tbl.erase t k else Tbl.set t k v

def Tbl.upd {α : Type} (t : Tbl α) (k : Nat) (d : α) (f : α → α) : Tbl α := Tbl.set t k (f (Tbl.getD t k d))

def Tbl.has {α : Type} (t : Tbl α) (k : Nat) : Bool := (Tbl.get? t k).isSome

/-- Bits `lo + len - 1` down to `lo` of a word, as a number. -/
def wbits (w : Word) (lo len : Nat) : Nat := w.toNat / 2 ^ lo % 2 ^ len

def wbit (w : Word) (i : Nat) : Bool := w.toNat / 2 ^ i % 2 == 1

def b2n (b : Bool) : Nat := if b then 1 else 0

/-- A word whose fields are given as (low bit, value): the values must fit their fields. -/
def fieldsWord (fs : List (Nat × Nat)) : Word :=
  BitVec.ofNat 64 (fs.foldl (fun a p => a + p.2 * 2 ^ p.1) 0)

/-- The list with its entry `i` replaced, unchanged when there is none. -/
def listUpd {α : Type} (l : List α) (i : Nat) (f : α → α) : List α :=
  match l, i with
  | [], _ => []
  | a :: r, 0 => f a :: r
  | a :: r, i + 1 => a :: listUpd r i f

def listDrop1 {α : Type} (l : List α) (i : Nat) : List α := l.take i ++ l.drop (i + 1)

/-- The bytes of `v`, little-endian (R2). -/
def toBytes (v n : Nat) : List Byte :=
  match n with
  | 0 => []
  | n + 1 => BitVec.ofNat 8 v :: toBytes (v / 256) n

/-- The number that bytes hold, little-endian (R2). -/
def ofBytes (l : List Byte) : Nat :=
  match l with
  | [] => 0
  | b :: r => b.toNat + 256 * ofBytes r

/-- `n` bytes of a byte list from `off`; bytes past the end read as zero. -/
def slice (l : List Byte) (off n : Nat) : List Byte :=
  let p := (l.drop off).take n
  p ++ List.replicate (n - p.length) 0

/-- A little-endian field of a byte list. -/
def field (l : List Byte) (off n : Nat) : Nat := ofBytes (slice l off n)

/-- The list with `new` written over it from `off`, never longer than it was. -/
def overlay (l : List Byte) (off : Nat) (new : List Byte) : List Byte :=
  (l.take off ++ new ++ l.drop (off + new.length)).take l.length

def ceilDiv (a b : Nat) : Nat := (a + b - 1) / b

/-! ### CRC-64 (R44): polynomial 0x42F0E1EBA9EA3693, initial value zero, no reflection, no final XOR -/

def crcBits (c : Nat) (n : Nat) : Nat :=
  match n with
  | 0 => c
  | n + 1 =>
    let d := c * 2 % 2 ^ 64
    crcBits (if c / 2 ^ 63 % 2 = 1 then d ^^^ 0x42F0E1EBA9EA3693 else d) n

def crcByte (c : Nat) (b : Byte) : Nat := crcBits (c ^^^ (b.toNat * 2 ^ 56)) 8

def crc64 (l : List Byte) : Nat := l.foldl crcByte 0

end Sys2Proof.Machine
end

