-- ==== Sys2Proof/Machine/Formats.lean ====
section
/-! DEFINITION. Element formats: codes, widths, and the exact value of every code (R159 to R165). -/
namespace Sys2Proof

/-- The EF code of R159. -/
def EF.code (e : EF) : Nat :=
  match e with
  | .i8 => 0x00 | .n8 => 0x01 | .i4 => 0x02 | .n4 => 0x03 | .i16 => 0x04 | .n16 => 0x05
  | .i32 => 0x06 | .n32 => 0x07 | .i64 => 0x08 | .n64 => 0x09
  | .b8 x s p => 0x40 + (if x then 0x10 else 0) + (if s then 0x08 else 0) + p.val + 1
  | .f16 => 0x80 | .bf16 => 0x81 | .f32 => 0x82 | .f64 => 0x83 | .f4x => 0xC0

/-- The format of an EF code; none for a code that R159 does not list. -/
def EF.ofCode (c : Nat) : Option EF :=
  match c with
  | 0x00 => some .i8 | 0x01 => some .n8 | 0x02 => some .i4 | 0x03 => some .n4 | 0x04 => some .i16
  | 0x05 => some .n16 | 0x06 => some .i32 | 0x07 => some .n32 | 0x08 => some .i64 | 0x09 => some .n64
  | 0x80 => some .f16 | 0x81 => some .bf16 | 0x82 => some .f32 | 0x83 => some .f64 | 0xC0 => some .f4x
  | c =>
    if h : 0x40 ≤ c ∧ c < 0x60 ∧ c % 8 ≠ 0 then
      some (.b8 (c / 16 % 2 == 1) (c / 8 % 2 == 1) ⟨c % 8 - 1, by omega⟩)
    else none

/-- Element width in bits (R159). -/
def EF.width (e : EF) : Nat :=
  match e with
  | .i8 | .n8 | .b8 .. => 8
  | .i4 | .n4 | .f4x => 4
  | .i16 | .n16 | .f16 | .bf16 => 16
  | .i32 | .n32 | .f32 => 32
  | .i64 | .n64 | .f64 => 64

def EF.isInt (e : EF) : Bool :=
  match e with
  | .i8 | .n8 | .i4 | .n4 | .i16 | .n16 | .i32 | .n32 | .i64 | .n64 => true
  | _ => false

def EF.isSignedInt (e : EF) : Bool :=
  match e with
  | .i8 | .i4 | .i16 | .i32 | .i64 => true
  | _ => false

/-- f16, bf16, f32, f64. -/
def EF.isFloat (e : EF) : Bool :=
  match e with
  | .f16 | .bf16 | .f32 | .f64 => true
  | _ => false

def EF.isB8 (e : EF) : Bool :=
  match e with
  | .b8 .. => true
  | _ => false

def EF.is4bit (e : EF) : Bool := e.width == 4

/-- The formats with which block scaling is legal (R166). -/
def EF.scalable (e : EF) : Bool :=
  match e with
  | .i8 | .n8 | .i4 | .n4 | .f4x => true
  | .b8 .. => true
  | _ => false

/-- The width class of a matrix operand (R250): 16, 8, 4, or 0 for none. -/
def EF.mxClass (e : EF) : Nat :=
  match e with
  | .f16 | .bf16 => 16
  | .i8 | .n8 | .b8 .. => 8
  | .i4 | .n4 | .f4x => 4
  | _ => 0

/-- Bounds of an integer format. -/
def EF.minInt (e : EF) : Int := if e.isSignedInt then -(2 ^ (e.width - 1) : Nat) else 0
def EF.maxInt (e : EF) : Int := if e.isSignedInt then (2 ^ (e.width - 1) : Nat) - 1 else (2 ^ e.width : Nat) - 1

namespace Machine

/-- A value of a float format or an exact integer as a value: `fin` keeps the sign of a zero. -/
inductive Val where
  | nan
  | inf (neg : Bool)
  | fin (neg : Bool) (mag : Rat)
  deriving DecidableEq, Repr

/-- The exceptions an operation raises (R113, R170): OUT with its two causes. -/
structure Exc where
  inv : Bool := false
  ovf : Bool := false
  dz : Bool := false
  missing : Bool := false
  outOvf : Bool := false
  deriving DecidableEq, Repr

def Exc.none : Exc := {}

def Exc.or (a b : Exc) : Exc :=
  { inv := a.inv || b.inv, ovf := a.ovf || b.ovf, dz := a.dz || b.dz, missing := a.missing || b.missing,
    outOvf := a.outOvf || b.outOvf }

/-- 2 to an integer power, exact. -/
def pow2 (e : Int) : Rat := if 0 ≤ e then ((2 ^ e.toNat : Nat) : Rat) else mkRat 1 (2 ^ (-e).toNat)

/-- floor(log2 m) for m > 0. -/
def ilog2 (m : Rat) : Int :=
  let e : Int := (m.num.toNat.log2 : Int) - (m.den.log2 : Int)
  if m < pow2 e then e - 1 else e

def ratAbs (x : Rat) : Rat := if x < 0 then -x else x

/-- An exact rational as a value, zero taken as +0. -/
def Val.ofRat (x : Rat) : Val := .fin (x < 0) (ratAbs x)

def Val.ofInt (n : Int) : Val := .fin (n < 0) (n.natAbs : Rat)

/-- The rational a finite value stands for. -/
def Val.rat (v : Val) : Rat :=
  match v with
  | .fin true m => -m
  | .fin false m => m
  | _ => 0

def Val.isNan (v : Val) : Bool := match v with | .nan => true | _ => false
def Val.isInf (v : Val) : Bool := match v with | .inf _ => true | _ => false
def Val.isFin (v : Val) : Bool := match v with | .fin .. => true | _ => false
def Val.isZero (v : Val) : Bool := match v with | .fin _ m => m == 0 | _ => false
def Val.sign (v : Val) : Bool := match v with | .nan => false | .inf n => n | .fin n _ => n

def Val.neg (v : Val) : Val :=
  match v with
  | .nan => .nan
  | .inf n => .inf (!n)
  | .fin n m => .fin (!n) m

def Val.abs (v : Val) : Val :=
  match v with
  | .nan => .nan
  | .inf _ => .inf false
  | .fin _ m => .fin false m

/-- A binary float format: exponent width, trailing width, bias, and its special cases (R161 to R164). -/
structure Fmt where
  w : Nat
  t : Nat
  bias : Nat
  signed : Bool
  hasInf : Bool
  hasNeg0 : Bool
  maxfin : Rat
  nanCode : Nat
  deriving DecidableEq, Repr

/-- Exponent of the smallest normal. -/
def Fmt.emin (f : Fmt) : Int := 1 - (f.bias : Int)

/-- The value of exponent field `e` and trailing field `m` (R161; IEEE 754 gives the same for R163). -/
def Fmt.mag (bias t e m : Nat) : Rat :=
  if e = 0 then pow2 (1 - (bias : Int) - t) * (m : Rat)
  else pow2 ((e : Int) - bias - t) * ((2 ^ t + m : Nat) : Rat)

def ieee (w t nanCode : Nat) : Fmt :=
  let bias := 2 ^ (w - 1) - 1
  { w := w, t := t, bias := bias, signed := true, hasInf := true, hasNeg0 := true,
    maxfin := Fmt.mag bias t (2 ^ w - 2) (2 ^ t - 1), nanCode := nanCode }

/-- The layout of a binary8 format of precision `p + 1` (R161, R162). -/
def b8Fmt (x s : Bool) (p : Nat) : Fmt :=
  let w := if s then 7 - p else 8 - p
  let bias := 2 ^ (w - 1)
  let top := if s then (if x then 0x7E else 0x7F) else (if x then 0xFD else 0xFE)
  { w := w, t := p, bias := bias, signed := s, hasInf := x, hasNeg0 := false,
    maxfin := Fmt.mag bias p (top / 2 ^ p) (top % 2 ^ p), nanCode := if s then 0x80 else 0xFF }

/-- The float layout of a format; integer formats have none. -/
def EF.fmt (e : EF) : Option Fmt :=
  match e with
  | .f16 => some (ieee 5 10 0x7E00)
  | .bf16 => some (ieee 8 7 0x7FC0)
  | .f32 => some (ieee 8 23 0x7FC00000)
  | .f64 => some (ieee 11 52 0x7FF8000000000000)
  | .b8 x s p => some (b8Fmt x s p.val)
  | .f4x => some { w := 2, t := 1, bias := 1, signed := true, hasInf := false, hasNeg0 := false, maxfin := 6,
                   nanCode := 8 }
  | _ => none

def f32Fmt : Fmt := ieee 8 23 0x7FC00000

/-- The exact value of code `c` of a format (R160 to R164). The escape of f4x is read by `scaled`, not here. -/
def codeVal (e : EF) (c : Nat) : Val :=
  match e with
  | .b8 x s p =>
    let f := b8Fmt x s p.val
    if c = f.nanCode then .nan
    else if x && s && c == 0x7F then .inf false
    else if x && s && c == 0xFF then .inf true
    else if x && !s && c == 0xFE then .inf false
    else
      let neg := s && c ≥ 128
      let m := if s then c % 128 else c
      let mag := Fmt.mag f.bias f.t (m / 2 ^ f.t) (m % 2 ^ f.t)
      .fin (neg && mag ≠ 0) mag
  | .f4x => .fin (c ≥ 8) (Fmt.mag 1 1 (c % 8 / 2) (c % 2))
  | .f16 | .bf16 | .f32 | .f64 =>
    match EF.fmt e with
    | none => .nan
    | some f =>
      let neg := c / 2 ^ (f.w + f.t) % 2 == 1
      let ex := c / 2 ^ f.t % 2 ^ f.w
      let m := c % 2 ^ f.t
      if ex = 2 ^ f.w - 1 then (if m = 0 then .inf neg else .nan)
      else .fin neg (Fmt.mag f.bias f.t ex m)
  | _ => Val.ofInt (if e.isSignedInt then sext c e.width else (c % 2 ^ e.width : Nat))

/-- The exact integer of a code of an integer format. -/
def codeInt (e : EF) (c : Nat) : Int :=
  if e.isSignedInt then sext c e.width else (c % 2 ^ e.width : Nat)

/-- The magnitude bits (exponent and trailing fields) of a magnitude that the format holds. -/
def Fmt.magCode (f : Fmt) (m : Rat) : Nat :=
  if m = 0 then 0
  else
    let e := ilog2 m
    if e < f.emin then (m / pow2 (f.emin - f.t)).floor.toNat
    else
      let sig := (m / pow2 (e - f.t)).floor.toNat
      (e + f.bias).toNat * 2 ^ f.t + (sig - 2 ^ f.t)

/-- The code of a value that lies in a float format. -/
def valCode (e : EF) (v : Val) : Nat :=
  match EF.fmt e with
  | none => 0
  | some f =>
    let signBit := 2 ^ (f.w + f.t)
    match v with
    | .nan => f.nanCode
    | .inf neg =>
      match e with
      | .b8 _ s _ => if s then (if neg then 0xFF else 0x7F) else 0xFE
      | _ => (2 ^ f.w - 1) * 2 ^ f.t + (if neg then signBit else 0)
    | .fin neg m =>
      f.magCode m + (if neg && f.signed && (m ≠ 0 || f.hasNeg0) then signBit else 0)

/-- The code of an exact integer in an integer format: its low bits. -/
def intCode (e : EF) (n : Int) : Nat := (n % (2 ^ e.width : Nat)).toNat

/-! ### BS16 block scales (R165) -/

inductive Scale where
  | zero | inf | nan | val (v : Rat)
  deriving DecidableEq, Repr

def scaleVal (c : Nat) : Scale :=
  let e := c / 256 % 256
  let f := c % 256
  if e = 255 then (if f = 0 then .inf else .nan)
  else if e = 0 then (if f = 0 then .zero else .val (pow2 (-134) * (f : Rat)))
  else .val (pow2 ((e : Int) - 135) * ((256 + f : Nat) : Rat))

/-- The value of a finite scale code. -/
def scaleRat (c : Nat) : Rat :=
  match scaleVal c with
  | .val v => v
  | _ => 0

/-- bs16_up(v) for v > 0: the smallest finite code whose value is at least v, and whether it was capped (R165). -/
def bs16Up (v : Rat) : Nat × Bool :=
  if pow2 119 * 511 < v then (0xFEFF, true)
  else
    let e := ilog2 v
    if e < -126 then
      -- below the normal codes: the fraction alone, in units of 2^-134
      let f := (v / pow2 (-134)).ceil.toNat
      (f, false)
    else
      let sig := (v / pow2 (e - 8)).ceil.toNat
      -- sig is 256 to 512; 512 carries into the exponent
      (((e + 127).toNat * 256 + (sig - 256)), false)

end Machine
end Sys2Proof
end

