-- ==== Sys2Proof/Machine/Forms.lean ====
section
/-! DEFINITION. The forms of the instruction words: which record a word carries, which fields it leaves unused, which
values are legal (R50 to R57, R128 to R158, R186 to R209, R219, R273 to R285, R321, R352, R375, R398, R433). -/
namespace Sys2Proof

/-- The format X record of a group 3 or 4 word. -/
def Instr.xf? (i : Instr) : Option XF :=
  match i with
  | .vadd x | .vsub x | .vmul x | .vfma x | .vmin x | .vmax x | .vabs x | .vneg x | .vlog _ x | .vsh _ x | .vcmp _ x
  | .vsel x | .vcvt x | .vqnt x | .vdqn x | .vfn _ x | .vred _ x | .vscan _ x | .vbc x | .vfill _ x | .vtrn x | .vperm x
  | .vhash _ x | .vpopc _ x | .vhist x | .vpack _ x | .vunpk _ x | .vmov x | .vrnd x | .vbit _ x | .vmask _ x
  | .mlds x | .mldw x | .mswp x | .mstr x | .mstt x | .macc _ x | .manc x | .mepc x | .mout x | .mclr x | .mtkr _ x
  | .mtkc x | .mspm _ x | .mclaim x | .mrel x | .msave x | .mrest x | .mstat _ x => some x
  | _ => none

/-- The format M record of a group 5 word. -/
def Instr.mf? (i : Instr) : Option MF :=
  match i with
  | .ld m | .st m | .dst m | .ldt m | .stt m | .gth m | .sct m | .atom _ m | .vatom _ m | .put m | .get m | .sopen m
  | .sclose m | .fence m | .pref m | .migr m | .wsld m | .inv m | .gbump m => some m
  | _ => none

/-- The format S record of a group 6 word. -/
def Instr.sf? (i : Instr) : Option SF :=
  match i with
  | .pplace _ x | .pevictVacate x | .pevictKill x | .pevictContain x | .rmarkCut x | .rmarkFreeze x | .rmarkResume x
  | .qryState x | .qryQuiet x | .qryPower x | .lnch _ x | .pclaimClaim x | .pclaimRelease x | .twinOn x | .twinOff x
  | .cgrpMake x | .cgrpDrop x | .cred _ x | .cstat _ x | .ccan x | .xcntAdd x | .xcntArr x | .xcntHist x | .xcntTake x
  | .xdspOne x | .xdspArr x | .xdspFlush x | .xverGet x | .xverWait x | .xverResize x | .xmrg x | .xrep x | .xretDrain x
  | .xretFree x | .rpnt x | .rseal x | .rrdpStat x | .rrdpCheck x | .rbak x | .omrkWalk x | .omrkTag x | .octrRead x
  | .octrTotal x | .otrc x | .oinjArm x | .oinjOff x | .ostpArm x | .ostpOff x => some x
  | _ => none

/-- Is the word a vector word (group 3)? The other format X words are the matrix engine's. -/
def Instr.isVec (i : Instr) : Bool :=
  match i with
  | .vadd _ | .vsub _ | .vmul _ | .vfma _ | .vmin _ | .vmax _ | .vabs _ | .vneg _ | .vlog .. | .vsh .. | .vcmp ..
  | .vsel _ | .vcvt _ | .vqnt _ | .vdqn _ | .vfn .. | .vred .. | .vscan .. | .vbc _ | .vfill .. | .vtrn _ | .vperm _
  | .vhash .. | .vpopc .. | .vhist _ | .vpack .. | .vunpk .. | .vmov _ | .vrnd _ | .vbit .. | .vmask .. => true
  | _ => false

/-- `mldw`, whose translation goes through the memory port (R266). -/
def Instr.isMldw (i : Instr) : Bool := match i with | .mldw _ => true | _ => false

/-- The system engine that serves a group 6 word: 0 pager, 1 collective, 2 expert placement, 3 recovery, 4 observation. -/
def Instr.engine (i : Instr) : Nat :=
  match i with
  | .cgrpMake _ | .cgrpDrop _ | .cred .. | .cstat .. | .ccan _ => 1
  | .xcntAdd _ | .xcntArr _ | .xcntHist _ | .xcntTake _ | .xdspOne _ | .xdspArr _ | .xdspFlush _ | .xverGet _ | .xverWait _
  | .xverResize _ | .xmrg _ | .xrep _ | .xretDrain _ | .xretFree _ => 2
  | .rpnt _ | .rseal _ | .rrdpStat _ | .rrdpCheck _ | .rbak _ => 3
  | .omrkWalk _ | .omrkTag _ | .octrRead _ | .octrTotal _ | .otrc _ | .oinjArm _ | .oinjOff _ | .ostpArm _ | .ostpOff _ => 4
  | _ => 0

/-- The path of a group 6 request's accesses that count as committed by the issuing context (R65, R347, R369, R393): those of
the pager and of the observation engine do not, nor does a request that makes none. -/
def Instr.reqPath? (i : Instr) : Option Nat :=
  match i with
  | .cgrpMake _ | .cgrpDrop _ | .cred .. => some 4
  | .xcntAdd _ | .xcntArr _ | .xcntHist _ | .xcntTake _ | .xdspOne _ | .xdspArr _ | .xdspFlush _ | .xverResize _ | .xmrg _ => some 5
  | .rpnt _ | .rseal _ | .rrdpStat _ | .rrdpCheck _ | .rbak _ => some 6
  | _ => none

/-- The format T record of a group 2 word. -/
def Instr.tf? (i : Instr) : Option TF :=
  match i with
  | .falloc t _ _ _ | .send t _ _ | .sendc t _ _ | .sendx t _ _ | .swt t _ _ | .sendm t _ _ | .join t | .leave t
  | .arrive t _ | .wait t | .halloc t _ | .hinfo t _ | .sys t _ => some t
  | _ => none

/-- Is the instruction a word of the instruction set, and no step of an engine? -/
def Instr.isWord (i : Instr) : Bool :=
  match i with
  | .tokenArrival _ | .cswHold _ | .cswRelease _ | .rmkArrival _ | .cisternWrite _ | .activationSlotGrant _
  | .heldTokenRetry _ | .commit _ | .trapDelivery _ | .serviceDelivery _ | .frameGrant _ _ | .groupRequest _
  | .handleRequest _ | .tileFree _ _ | .hallocGrant _ _ | .vectorOpStart _ | .gapBookingDrop _ | .vectorOpComplete _
  | .bankReconfigure _ _ | .bankWipeDone _ _ | .matrixOpStart _ | .matrixOpComplete _ | .memTranslate _ | .pageWalkDone _
  | .fltctlRetry _ _ | .fltctlFail _ _ | .memAccessPerform _ | .staleGenerationRetry _ | .wsRefreshEnd _ _
  | .streamItem _ _ | .streamGeneratorGrant _ | .bubEmit _ _ | .migrationGranuleCopy _ | .migrationComplete _
  | .linkTokenRoute _ | .placementRetry _ | .configWaveDone _ | .seedRelease _ | .powerWindow _ | .thermalDutyStep _
  | .quiescenceWave _ | .faultTimeSample _ | .containmentTrigger _ _ | .twinDigest _ | .twinDigestTimeout _
  | .ceLtctlWrite _ | .collMessage _ _ | .collectiveOpStart _ _ | .colStall _ _ | .routeEntry | .pageRelease _
  | .pageRetire _ | .graftStageDone | .replicaFailed _ | .cellarLineWrite _ | .sealAbandoned _ | .resilverRegion _
  | .slotScan | .escalatedRollback _ | .seedRecord _ | .afterRelease _ _ | .inboundRequest _ | .flitReplay .. | .portDown _
  | .portTrain .. | .hostCompletionTimeout _ | .hostCompletion .. | .lkIrqWrite _ | .timeEventMessage _ _ _ | .sweepVisit _
  | .obTadjWrite _ | .walkStep _ | .stopHit _ | .monitorSample _ _ | .obLmselWrite _ _ | .injectionHit _ | .inputLoss
  | .deviceReset | .computeDieReset _ | .ioDie1Reset | .ioDie0Reset | .wipeComplete _ | .calibrationEnd _ | .pkBootWrite _
  | .lifeCycleAdvance | .registerWrite _ _ | .wsRefreshStart _ _ | .chunkStall _ _ _ | .attestationReport => false
  | _ => true

/-- The guard of a word; `ent` has none and reads as always true. -/
def Instr.guard (i : Instr) : Guard :=
  match i with
  | .nop g | .add g _ _ _ | .sub g _ _ _ | .mul g _ _ _ | .mulh g _ _ _ | .mulhn g _ _ _ | .div g _ _ _ | .divn g _ _ _
  | .rem g _ _ _ | .remn g _ _ _ | .and g _ _ _ | .or g _ _ _ | .xor g _ _ _ | .andn g _ _ _ | .shl g _ _ _
  | .shr g _ _ _ | .sra g _ _ _ | .rotl g _ _ _ | .min g _ _ _ | .max g _ _ _ | .minn g _ _ _ | .maxn g _ _ _
  | .bitop g _ _ _ | .bfx g _ _ _ _ _ | .bfi g _ _ _ _ | .sel g _ _ _ _ | .movi g _ _ _ | .addi g _ _ _ | .logi g _ _ _ _
  | .shfi g _ _ _ _ | .cmp g _ _ _ _ | .cmpi g _ _ _ _ | .fadd g _ _ _ _ _ | .fsub g _ _ _ _ _ | .fmul g _ _ _ _ _
  | .fma g _ _ _ _ _ _ | .fmin g _ _ _ _ | .fmax g _ _ _ _ | .fdiv g _ _ _ _ _ | .fsqrt g _ _ _ _ | .fcmp g _ _ _ _ _
  | .fcvt g _ _ _ _ _ | .fcls g _ _ _ | .lea g _ _ _ _ _ | .mhash g _ _ _ _ | .pop g _ _ _ _ | .pmov g _ _ | .mfs g _ _ _
  | .mts g _ _ _ | .clamp g _ _ _ _ _ | .iabs g _ _ _ | .ldf g _ _ _ _ | .stf g _ _ _ | .fclr g _ _ _ | .ffree g _
  | .wadv g _ | .endH g | .hinc g _ | .hdec g _ | .trap g _ | .brk g _ | .resmGo g _ | .resmDrop g _ | .resmStep g _
  | .psn g _ => g
  | i =>
    match i.tf?, i.xf?, i.mf?, i.sf? with
    | some t, _, _, _ => t.g
    | _, some x, _, _ => x.g
    | _, _, some m, _ => m.g
    | _, _, _, some x => x.g
    | _, _, _, _ => { pg := 0, pn := false }

/-! ### Unused fields (R53 check 3) -/

/-- The unused register and mode fields of an X word are zero: which of D, A, B, C are used, the mask of used MOD[3:0]
bits, and whether EF, RND and SAT are (R189, R274). -/
def XF.unused (x : XF) (d a b c : Bool) (mods : BitVec 4) (ef rnd sat : Bool) : Bool :=
  (d || x.d == 0) && (a || x.a == 0) && (b || x.b == 0) && (c || x.c == 0) && (x.m &&& ~~~mods) == 0 &&
  (ef || x.ef == .i8) && (rnd || x.rnd == .rne) && (sat || !x.sat)

/-- The unused fields of an M word are zero: which of D, A, B, ALC with ORD, OFF are used, and the mask of used MD bits
(R219). -/
def MF.unused (m : MF) (d a b alc off : Bool) (mds : BitVec 5) : Bool :=
  (d || m.d == 0) && (a || m.a == 0) && (b || m.b == 0) && (alc || (m.alc == 0 && m.ord == .plain)) && (off || m.off == 0) &&
  (m.md &&& ~~~mds) == 0

/-- The unused fields of an S word are zero: which of D, A, B are used, and how many bits of IMM32[31:9]. -/
def SF.unused (x : SF) (d a b : Bool) (hi : Nat) : Bool :=
  (d || x.d == 0) && (a || x.a == 0) && (b || x.b == 0) && decide (x.hi.toNat < 2 ^ hi)

/-- The fields that a T word with a target, a frame pointer and an iteration leaves unused. -/
def TF.noTarget (t : TF) : Bool := t.f == 0 && t.i == 0 && !t.port && t.tix == 0

/-- Every field that the instruction does not use, and every field declared zero, is zero (R53 check 3). Fields that the
constructor does not hold are checked by the decoder. -/
def Instr.unusedZero (i : Instr) : Bool :=
  match i with
  | .pop _ fn _ a b =>
    match fn with
    | .not => b == 0
    | .set | .clr => a == 0 && b == 0
    | _ => true
  | .mfs _ _ no c | .mts _ _ no c => no == 8 || no == 10 || c == 0
  | .ent e =>
    match e.arity with
    | .ctl | .mon => e.slot == 0 && e.alt == 0
    | .dya => e.alt == 0
    | .sel => true
  | .falloc t _ _ _ => t.v == 0
  | .send t _ imm | .sendm t _ imm => t.v == 0 || imm == 0
  | .sendx t _ imm => (t.v == 0 || imm == 0) && t.tix == 0
  | .leave t => t.noTarget
  | .arrive t _ => t.noTarget
  | .vadd x | .vsub x | .vmul x => x.unused true true true false 3 true true true
  | .vfma x => x.unused true true true true 3 true true true
  | .vmin x | .vmax x => x.unused true true true false 3 true false false
  | .vabs x | .vneg x => x.unused true true false false 0 true false true
  | .vlog fn x => x.unused true true (fn != .not) false 0 true false false
  | .vsh _ x => x.unused true true true false 1 true false false
  | .vcmp _ x => x.unused true true true false 3 true false false
  | .vsel x => x.unused true true true true 0 true false false
  | .vcvt x => x.unused true true false false 0 true true true
  | .vqnt x => x.unused true true false false (if x.ef == .f4x then 15 else 0) true true false
  | .vdqn x => x.unused true true false false 0 true true false
  | .vfn _ x => x.unused true true false false 0 true true true
  | .vred fn x => x.unused true true false false 1 true (fn == .sum) true
  | .vscan fn x => x.unused true true false false 3 true (fn == .sum) true
  | .vbc x => x.unused true true true false 1 true false false
  | .vfill fn x => x.unused true (fn == .const) false false 0 true false false
  | .vtrn x => x.unused true true false false 0 true false false
  | .vperm x => x.unused true true true false 1 true false false
  | .vhash _ x => x.unused true true true false 0 true false false
  | .vpopc _ x => x.unused true true false false 0 true false false
  | .vhist x => x.unused true true false false 1 true false false
  | .vpack _ x | .vunpk _ x => x.unused true true false false 0 true false false
  | .vmov x => x.unused true true (x.m != 0) false 3 true false false
  | .vrnd x => x.unused true true false false 0 true true false
  | .vbit _ x => x.unused true true false false 0 true false false
  | .vmask _ x => x.unused true true false false 0 true false false
  | .mlds x => x.unused false true false false 0 true false false
  | .mldw x => x.unused false true true false 0 true false false
  | .mswp x | .macc _ x | .mtkc x | .mstat _ x => x.unused false false false false 0 false false false
  | .mstr x => x.unused true true (x.m != 0) true 1 true false false
  | .mstt x => x.unused true true (x.m != 0) false 1 true false false
  | .manc x | .mepc x => x.unused false true false false 0 false false false
  | .mout x => x.unused true true false false 3 true ((x.m &&& 2) == 0) ((x.m &&& 2) == 0)
  | .mclr x => x.unused false (x.m != 0) false false 1 false false false
  | .mtkr _ x => x.unused true false false false 0 true false false
  | .mspm _ x => x.unused false true false false 0 true false false
  | .mclaim x | .mrel x | .msave x | .mrest x => x.unused true true true true 0 false false false
  | .ld m => m.unused true true false true true 15
  | .st m => m.unused true true false true true 11
  | .dst m => m.unused true true false true true 3
  | .ldt m | .stt m => m.unused true true true true true 0
  | .gth m | .sct m => m.unused true true true true true 3
  | .atom fn m => m.unused true true (fn == .cas) true true 16
  | .vatom fn m => m.unused true true true true true 16 && m.off.toNat < 32 && (fn == .cas || m.off.toNat % 16 == 0)
  | .put m | .get m => m.unused true true false true true 0
  | .sopen m => m.unused true true false true false 31 && m.ord == .plain
  | .sclose m => m.unused false false false false false 31
  | .fence m => m.unused true true false false true 0 && m.off.toNat < 256
  | .pref m => m.unused false true false false true 0
  | .migr m | .wsld m => m.unused true true true false false 0
  | .inv m => m.unused true true true false false 1
  | .gbump m => m.unused true false false false false 0
  | .pplace _ x => x.unused true true false 0
  | .pevictVacate x | .pevictKill x | .pevictContain x | .rmarkCut x | .rmarkFreeze x | .rmarkResume x | .qryState x
  | .qryQuiet x | .twinOn x | .twinOff x => x.unused true false false 0
  | .qryPower x => x.unused false false false 3
  | .lnch _ x | .rseal x => x.unused true true true 16
  | .pclaimClaim x | .pclaimRelease x => x.unused false true false 3
  | .cgrpMake x | .xdspOne x | .xdspArr x => x.unused true true true 0
  | .cgrpDrop x | .cstat _ x | .ccan x | .xretDrain x | .xretFree x => x.unused true false false 0
  | .cred _ x | .xcntAdd x | .oinjArm x | .ostpArm x => x.unused true true false 0
  | .xcntArr x => x.unused false true true 0
  | .xcntHist x | .xcntTake x | .xverWait x | .xverResize x | .xmrg x | .xrep x | .rpnt x | .rrdpCheck x | .octrRead x
  | .octrTotal x => x.unused false true false 0
  | .xdspFlush x | .xverGet x | .rrdpStat x | .rbak x | .oinjOff x | .ostpOff x | .omrkTag x => x.unused false false false 0
  | .omrkWalk x => x.unused false false false 7
  | .otrc x => x.unused true false false 16
  | _ => true

/-! ### Legal values (R53 check 4) -/

/-- A completion or reply target index: below 320, or 0x1FF for none (R186, R219, R321). -/
def tixLegal (t : BitVec 9) : Bool := t.toNat < 320 || t == 0x1FF

def EF.intOrFloat (e : EF) : Bool := e.isInt || e.isFloat

/-- f16, bf16, f32. -/
def EF.shortFloat (e : EF) : Bool := e == .f16 || e == .bf16 || e == .f32

/-- The formats that `vqnt` quantises into (R198). -/
def EF.quant (e : EF) : Bool := e.scalable

/-- The output formats of an epilogue (R263). -/
def EF.mxOut (e : EF) : Bool := e.shortFloat || e.scalable

/-- The values of FN, RND, ORD, SCP, EF, KIND, TIX and the like are legal for the instruction, as far as the word alone
can tell (R53 check 4). -/
def Instr.legal (i : Instr) : Bool :=
  match i with
  | .bfx _ _ _ lsb w _ | .bfi _ _ _ lsb w => w.toNat ≠ 0 && lsb.toNat + w.toNat ≤ 64
  | .cmp _ _ p _ _ | .cmpi _ _ p _ _ | .fcmp _ _ _ p _ _ => p != 0
  | .mhash _ n _ _ _ => 1 ≤ n.toNat && n.toNat ≤ 64
  | .pop _ _ d _ _ => d != 0
  | .mfs _ _ no _ | .mts _ _ no _ => no.toNat < 11
  | .ent e => e.len != 0 && e.pcls.toNat ≤ 4 && e.alt.toNat < 1536
  | .falloc t c _ _ => c.toNat ≤ 5 && t.tix.toNat < 320
  | .send t _ _ | .sendc t _ _ | .halloc t _ | .hinfo t _ | .sys t _ =>
    t.tix.toNat < 320 && (match i with | .halloc _ k => k.toNat ≤ 4 | _ => true)
  | .swt t t2 _ | .sendm t t2 _ => t.tix.toNat < 320 && t2.toNat < 320
  | .join t | .wait t => t.v != 0 && t.tix.toNat < 320
  | .leave t => t.v != 0
  | .arrive t sc => t.v != 0 && sc.toNat ≤ 9
  | .psn _ fn => match fn with | .test d => d != 0 | _ => true
  | .vadd x | .vsub x | .vmul x | .vfma x => tixLegal x.ct && x.ef.intOrFloat && (x.ef.isFloat || x.rnd == .rne)
  | .vmin x | .vmax x => tixLegal x.ct && x.ef.intOrFloat
  | .vabs x | .vneg x => tixLegal x.ct && (x.ef.isSignedInt || x.ef.isFloat)
  | .vlog _ x | .vsh _ x | .vpopc _ x | .vhist x => tixLegal x.ct && x.ef.isInt
  | .vbit fn x => tixLegal x.ct && x.ef.isInt && (fn != .bswap || 16 ≤ x.ef.width)
  | .vcmp c x => tixLegal x.ct && x.ef.intOrFloat && (c != .un || x.ef.isFloat)
  | .vsel x | .vcvt x | .vbc x | .vtrn x | .vperm x => tixLegal x.ct && x.ef != .f4x
  | .vqnt x => tixLegal x.ct && x.ef.quant
  | .vdqn x | .vfn _ x => tixLegal x.ct && x.ef.shortFloat
  | .vred _ x | .vscan _ x => tixLegal x.ct && x.ef.intOrFloat
  | .vfill fn x => tixLegal x.ct && x.ef != .f4x && (fn == .const || fn == .rand || x.ef.isInt)
  | .vhash n x => tixLegal x.ct && x.ef.isInt && 1 ≤ n.toNat && n.toNat ≤ 64
  | .vpack _ x | .vunpk _ x | .vmask _ x => tixLegal x.ct && x.ef == .n8
  | .vmov x => tixLegal x.ct && x.m != 3
  | .vrnd x => tixLegal x.ct && x.ef.isFloat
  | .mlds x | .mldw x | .mstr x => tixLegal x.ct && x.ef.mxClass != 0
  | .mstt x => tixLegal x.ct && (x.ef.mxClass == 8 || x.ef.mxClass == 16)
  | .mout x => tixLegal x.ct && (if (x.m &&& 2) != 0 then x.ef == .i64 else x.ef.mxOut)
  | .mtkr idx x => tixLegal x.ct && x.ef == (if idx then .n32 else .f32)
  | .mspm _ x => tixLegal x.ct && x.ef == .n4
  | .mswp x | .macc _ x | .manc x | .mepc x | .mclr x | .mtkc x => tixLegal x.ct
  | .mclaim x | .mrel x | .msave x | .mrest x | .mstat _ x => x.ct.toNat < 320
  | .ld m => m.tix.toNat < 320 && m.scp.toNat ≤ 9 && !((m.md &&& 4) != 0 && (m.md &&& 3) == 3)
  | .st m | .dst m | .ldt m | .stt m | .gth m | .sct m | .atom _ m | .vatom _ m | .put m | .get m =>
    tixLegal m.tix && m.scp.toNat ≤ 9
  | .fence m => tixLegal m.tix && m.scp.toNat ≤ 9 && (m.d != 0 || m.a != 0) && m.off.toNat % 256 ≠ 0
  | .sopen m => m.tix.toNat < 320 && m.scp == 1
  | .sclose m | .pref m => tixLegal m.tix && m.scp == 1
  | .wsld m => m.tix.toNat < 320 && m.scp == 5
  | .migr m | .inv m | .gbump m => tixLegal m.tix && m.scp == 5
  | .qryState x | .qryQuiet x | .qryPower x | .cstat _ x | .xverGet x | .xverWait x | .xverResize x | .xrep x | .rrdpStat x
  | .rrdpCheck x | .octrRead x | .octrTotal x | .omrkWalk x => x.rt.toNat < 320
  | .omrkTag x => x.rt == 0x1FF
  | .pplace _ x | .pevictVacate x | .pevictKill x | .pevictContain x | .rmarkCut x | .rmarkFreeze x | .rmarkResume x
  | .lnch _ x | .pclaimClaim x | .pclaimRelease x | .twinOn x | .twinOff x | .cgrpMake x | .cgrpDrop x | .cred _ x | .ccan x
  | .xcntAdd x | .xcntArr x | .xcntHist x | .xcntTake x | .xdspOne x | .xdspArr x | .xdspFlush x | .xmrg x | .xretDrain x
  | .xretFree x | .rpnt x | .rseal x | .rbak x | .otrc x | .oinjArm x | .oinjOff x | .ostpArm x | .ostpOff x => tixLegal x.rt
  | _ => true

/-- The forms that only context 7 may run (R53 check 5, R54, R158, R219, R321). -/
def Instr.privileged (i : Instr) : Bool :=
  match i with
  | .mfs .. | .mts .. | .resmGo .. | .resmDrop .. | .resmStep .. | .msave _ | .mrest _ | .migr _ | .wsld _ | .inv _ | .gbump _
  | .pplace .. | .pevictVacate _ | .pevictKill _ | .pevictContain _ | .rmarkFreeze _ | .rmarkResume _ | .pclaimClaim _
  | .pclaimRelease _ | .xrep _ | .xretDrain _ | .xretFree _ | .oinjArm _ | .oinjOff _ | .ostpArm _ | .ostpOff _ => true
  | .psn _ fn => fn == .clr
  | .ld m | .st m => (m.md &&& 8) != 0
  | _ => false

def rndFeat (r : Rnd) : BitVec 5 := if r == .sr then 8 else 0

/-- The feature bits that the form needs (R53 check 4): .sr rounding bit 3, a 4-bit EF bit 2, `macc.anc` bit 0, `mspm`
bit 1. -/
def Instr.needs (i : Instr) : BitVec 5 :=
  match i with
  | .fadd _ _ r _ _ _ | .fsub _ _ r _ _ _ | .fmul _ _ r _ _ _ | .fma _ _ r _ _ _ _ | .fdiv _ _ r _ _ _ | .fsqrt _ _ r _ _
  | .fcvt _ _ r _ _ _ => rndFeat r
  | i =>
    match i.xf? with
    | none => 0
    | some x =>
      rndFeat x.rnd ||| (if x.ef.is4bit then 4 else 0) |||
      (match i with | .macc true _ => 1 | .mspm _ _ => 2 | _ => 0)

/-- The target indices that the word names and that must lie below PH_NTGT (R42, R186, R219, R321). -/
def Instr.tixs (i : Instr) : List Nat :=
  let opt (t : BitVec 9) : List Nat := if t == 0x1FF then [] else [t.toNat]
  match i with
  | .falloc t _ _ _ | .send t _ _ | .sendc t _ _ | .join t | .wait t | .halloc t _ | .hinfo t _ | .sys t _ => [t.tix.toNat]
  | .swt t t2 _ | .sendm t t2 _ => [t.tix.toNat, t2.toNat]
  | i =>
    match i.xf?, i.mf?, i.sf? with
    | some x, _, _ => opt x.ct
    | _, some m, _ => opt m.tix
    | _, _, some x => opt x.rt
    | _, _, _ => []

/-- The stream index that the word names (R43, R244). -/
def Instr.sdx? (i : Instr) : Option Nat :=
  match i with
  | .sopen m | .sclose m => some m.md.toNat
  | _ => none

/-- Does the access write a location? A read, a fence or a walk does not. -/
def Instr.writes (i : Instr) : Bool :=
  match i with
  | .ld _ | .fence _ | .pref _ | .sopen _ | .sclose _ | .inv _ | .gbump _ => false
  | .mlds _ | .mldw _ | .mswp _ | .mstr _ | .mstt _ | .macc .. | .manc _ | .mepc _ | .mclr _ | .mtkc _ | .mspm .. | .mrel _
  | .mrest _ | .mstat .. => false
  | _ => true

/-- The ALC and ORD of a request; none for one whose word has no such fields in use. -/
def Instr.alc (i : Instr) : Option Nat := i.mf?.map fun m => m.alc.toNat

def Instr.ordOf (i : Instr) : MemOrd := match i.mf? with | some m => m.ord | none => .plain

/-- The MEM accesses of group 5: those that read or write locations for the context, and take part in R71 and R72. -/
def Instr.isAccess (i : Instr) : Bool :=
  match i with
  | .ld _ | .st _ | .dst _ | .ldt _ | .stt _ | .gth _ | .sct _ | .atom .. | .vatom .. | .put _ | .get _ => true
  | _ => false

/-- The 2^z or the atomic size in bytes of a scalar or gathered access. -/
def Instr.unitBytes (i : Instr) : Nat :=
  match i with
  | .ld m | .st m | .dst m | .gth m | .sct m => 2 ^ (m.md.toNat % 4)
  | .atom _ m | .vatom _ m => if m.md.getLsbD 4 then 8 else 4
  | _ => 1

def MemOrd.acquires (o : MemOrd) : Bool := o == .acquire || o == .acqRel
def MemOrd.releases (o : MemOrd) : Bool := o == .release || o == .acqRel

end Sys2Proof
end

