-- ==== Sys2Proof/WellFormed.lean ====
section
/-! DEFINITION. Which terms of `Instr` are instructions: those whose unused fields are zero and whose field values are
legal (R53 checks 3 and 4). A step of an engine is always well formed. -/
namespace Sys2Proof

/-- The static checks of R53. What depends on the page and on the activation (PH_NTGT, PH_NSTR, FEAT, the context) is
checked when the word issues. -/
def Instr.wellFormed (i : Instr) : Bool := i.unusedZero && i.legal

end Sys2Proof
end

