-- ==== Sys2Proof/Decode.lean ====
section
/-! DEFINITION. Decoding of a 64-bit word and, after it, encoding: the formats of R48 to R52, the opcode map of R54, the
function codes of R55 and of the instructions' entries. A word that is no instruction is rejected by name. -/
namespace Sys2Proof

/-- Why a word is no instruction (R53 checks 1, 3 and 4). -/
inductive DecodeError where
  | reservedOpcode
  | mustBeZero
  | illegalField
  deriving DecidableEq, Repr

/-! ### Formats -/

/-- `n` bits of a number from bit `lo`. -/
def cut (v lo n : Nat) : BitVec n := BitVec.ofNat n (v / 2 ^ lo)

def flag (b : Bool) : Nat := if b then 1 else 0

/-- The fields that every format but E shares (R48), and bits 39:0. -/
structure Raw where
  opc : BitVec 8
  g : Guard
  d : BitVec 4
  a : BitVec 4
  b : BitVec 4
  rest : BitVec 40
  deriving DecidableEq, Repr

def Raw.ofWord (w : Word) : Raw :=
  { opc := cut w.toNat 56 8, g := { pg := cut w.toNat 53 3, pn := w.toNat / 2 ^ 52 % 2 == 1 }, d := cut w.toNat 48 4,
    a := cut w.toNat 44 4, b := cut w.toNat 40 4, rest := cut w.toNat 0 40 }

def Raw.word (r : Raw) : Word :=
  BitVec.ofNat 64 (r.opc.toNat * 2 ^ 56 + r.g.pg.toNat * 2 ^ 53 + flag r.g.pn * 2 ^ 52 + r.d.toNat * 2 ^ 48 +
    r.a.toNat * 2 ^ 44 + r.b.toNat * 2 ^ 40 + r.rest.toNat)

/-- Format R below bit 40 (R49). -/
structure RestR where
  c : BitVec 4
  fn : BitVec 8
  z : BitVec 28
  deriving DecidableEq, Repr

def RestR.of (v : BitVec 40) : RestR := { c := cut v.toNat 36 4, fn := cut v.toNat 28 8, z := cut v.toNat 0 28 }

def RestR.bits (r : RestR) : BitVec 40 := BitVec.ofNat 40 (r.c.toNat * 2 ^ 36 + r.fn.toNat * 2 ^ 28 + r.z.toNat)

/-- Formats I and S below bit 40 (R49). -/
structure RestI where
  fn : BitVec 8
  imm : BitVec 32
  deriving DecidableEq, Repr

def RestI.of (v : BitVec 40) : RestI := { fn := cut v.toNat 32 8, imm := cut v.toNat 0 32 }

def RestI.bits (r : RestI) : BitVec 40 := BitVec.ofNat 40 (r.fn.toNat * 2 ^ 32 + r.imm.toNat)

/-- Format T below bit 40 (R49). -/
structure RestT where
  port : Bool
  kind : BitVec 3
  tix : BitVec 9
  tix2 : BitVec 9
  imm : BitVec 18
  deriving DecidableEq, Repr

def RestT.of (v : BitVec 40) : RestT :=
  { port := v.toNat / 2 ^ 39 % 2 == 1, kind := cut v.toNat 36 3, tix := cut v.toNat 27 9, tix2 := cut v.toNat 18 9,
    imm := cut v.toNat 0 18 }

def RestT.bits (r : RestT) : BitVec 40 :=
  BitVec.ofNat 40 (flag r.port * 2 ^ 39 + r.kind.toNat * 2 ^ 36 + r.tix.toNat * 2 ^ 27 + r.tix2.toNat * 2 ^ 18 + r.imm.toNat)

/-- Format X below bit 40, MOD as CT and MOD[3:0] (R49, R186). -/
structure RestX where
  c : BitVec 4
  fn : BitVec 8
  ef : BitVec 8
  rnd : BitVec 3
  sat : Bool
  gap : BitVec 3
  ct : BitVec 9
  m : BitVec 4
  deriving DecidableEq, Repr

def RestX.of (v : BitVec 40) : RestX :=
  { c := cut v.toNat 36 4, fn := cut v.toNat 28 8, ef := cut v.toNat 20 8, rnd := cut v.toNat 17 3,
    sat := v.toNat / 2 ^ 16 % 2 == 1, gap := cut v.toNat 13 3, ct := cut v.toNat 4 9, m := cut v.toNat 0 4 }

def RestX.bits (r : RestX) : BitVec 40 :=
  BitVec.ofNat 40 (r.c.toNat * 2 ^ 36 + r.fn.toNat * 2 ^ 28 + r.ef.toNat * 2 ^ 20 + r.rnd.toNat * 2 ^ 17 +
    flag r.sat * 2 ^ 16 + r.gap.toNat * 2 ^ 13 + r.ct.toNat * 2 ^ 4 + r.m.toNat)

/-- Format M below bit 40 (R49). -/
structure RestM where
  alc : BitVec 4
  scp : BitVec 4
  ord : BitVec 3
  md : BitVec 5
  tix : BitVec 9
  off : BitVec 15
  deriving DecidableEq, Repr

def RestM.of (v : BitVec 40) : RestM :=
  { alc := cut v.toNat 36 4, scp := cut v.toNat 32 4, ord := cut v.toNat 29 3, md := cut v.toNat 24 5,
    tix := cut v.toNat 15 9, off := cut v.toNat 0 15 }

def RestM.bits (r : RestM) : BitVec 40 :=
  BitVec.ofNat 40 (r.alc.toNat * 2 ^ 36 + r.scp.toNat * 2 ^ 32 + r.ord.toNat * 2 ^ 29 + r.md.toNat * 2 ^ 24 +
    r.tix.toNat * 2 ^ 15 + r.off.toNat)

/-- Format E but for OPC: the must-be-zero bits 55:52 and 12:0, and FEAT[7:5] (R50). -/
structure RawE where
  z1 : BitVec 4
  arity : BitVec 2
  slot : BitVec 8
  len : BitVec 6
  zf : BitVec 3
  feat : BitVec 5
  pcls : BitVec 4
  alt : BitVec 11
  z2 : BitVec 13
  deriving DecidableEq, Repr

def RawE.ofWord (w : Word) : RawE :=
  { z1 := cut w.toNat 52 4, arity := cut w.toNat 50 2, slot := cut w.toNat 42 8, len := cut w.toNat 36 6,
    zf := cut w.toNat 33 3, feat := cut w.toNat 28 5, pcls := cut w.toNat 24 4, alt := cut w.toNat 13 11, z2 := cut w.toNat 0 13 }

def RawE.word (r : RawE) : Word :=
  BitVec.ofNat 64 (0x40 * 2 ^ 56 + r.z1.toNat * 2 ^ 52 + r.arity.toNat * 2 ^ 50 + r.slot.toNat * 2 ^ 42 + r.len.toNat * 2 ^ 36 +
    r.zf.toNat * 2 ^ 33 + r.feat.toNat * 2 ^ 28 + r.pcls.toNat * 2 ^ 24 + r.alt.toNat * 2 ^ 13 + r.z2.toNat)

/-! ### Function codes (R52, R55) -/

def Rnd.code (r : Rnd) : BitVec 3 :=
  match r with | .rne => 0 | .rtz => 1 | .rdn => 2 | .rup => 3 | .rna => 4 | .sr => 5 | .rno => 6

def Rnd.ofCode (c : BitVec 3) : Option Rnd :=
  match c.toNat with
  | 0 => some .rne | 1 => some .rtz | 2 => some .rdn | 3 => some .rup | 4 => some .rna | 5 => some .sr | 6 => some .rno
  | _ => none

def MemOrd.code (o : MemOrd) : BitVec 3 :=
  match o with | .plain => 0 | .acquire => 1 | .release => 2 | .acqRel => 3

def MemOrd.ofCode (c : BitVec 3) : Option MemOrd :=
  match c.toNat with | 0 => some .plain | 1 => some .acquire | 2 => some .release | 3 => some .acqRel | _ => none

def Arity.code (a : Arity) : BitVec 2 :=
  match a with | .ctl => 0 | .mon => 1 | .dya => 2 | .sel => 3

def Arity.ofCode (c : BitVec 2) : Arity :=
  match c.toNat with | 0 => .ctl | 1 => .mon | 2 => .dya | _ => .sel

def SendKind.code (k : SendKind) : BitVec 3 :=
  match k with | .scalar => 0 | .tile => 1 | .ctl => 2 | .sys => 3

def SendKind.ofCode (c : BitVec 3) : Option SendKind :=
  match c.toNat with | 0 => some .scalar | 1 => some .tile | 2 => some .ctl | 3 => some .sys | _ => none

def Prec.code (p : Prec) : Nat := match p with | .single => 0 | .double => 1

def Prec.ofBit (n : Nat) : Prec := if n % 2 = 0 then .single else .double

def BitopFn.code (f : BitopFn) : BitVec 8 :=
  match f with | .clz => 0 | .ctz => 1 | .popc => 2 | .brev => 3 | .bswap => 4

def BitopFn.ofCode (c : BitVec 8) : Option BitopFn :=
  match c.toNat with | 0 => some .clz | 1 => some .ctz | 2 => some .popc | 3 => some .brev | 4 => some .bswap | _ => none

def LogFn.code (f : LogFn) : BitVec 8 := match f with | .and => 0 | .or => 1 | .xor => 2 | .andn => 3

def LogFn.ofCode (c : BitVec 8) : Option LogFn :=
  match c.toNat with | 0 => some .and | 1 => some .or | 2 => some .xor | 3 => some .andn | _ => none

def ShFn.code (f : ShFn) : BitVec 8 := match f with | .shl => 0 | .shr => 1 | .sra => 2 | .rotl => 3

def ShFn.ofCode (c : BitVec 8) : Option ShFn :=
  match c.toNat with | 0 => some .shl | 1 => some .shr | 2 => some .sra | 3 => some .rotl | _ => none

def Cond.code (c : Cond) : BitVec 8 :=
  match c with
  | .eq => 0 | .ne => 1 | .lt => 2 | .le => 3 | .gt => 4 | .ge => 5 | .lo => 6 | .ls => 7 | .hi => 8 | .hs => 9

def Cond.ofCode (c : BitVec 8) : Option Cond :=
  match c.toNat with
  | 0 => some .eq | 1 => some .ne | 2 => some .lt | 3 => some .le | 4 => some .gt | 5 => some .ge | 6 => some .lo
  | 7 => some .ls | 8 => some .hi | 9 => some .hs | _ => none

def FCond.code (c : FCond) : Nat :=
  match c with | .eq => 0 | .ne => 1 | .lt => 2 | .le => 3 | .gt => 4 | .ge => 5 | .un => 6

def FCond.ofFn (n : Nat) : Option FCond :=
  match n with
  | 0 => some .eq | 1 => some .ne | 2 => some .lt | 3 => some .le | 4 => some .gt | 5 => some .ge | 6 => some .un | _ => none

def CvtFn.code (c : CvtFn) : Nat := match c with | .cvf => 0 | .toi => 1 | .ton => 2 | .fri => 3 | .frn => 4

def CvtFn.ofFn (n : Nat) : Option CvtFn :=
  match n with | 0 => some .cvf | 1 => some .toi | 2 => some .ton | 3 => some .fri | 4 => some .frn | _ => none

def ClampFn.code (f : ClampFn) : BitVec 8 := match f with | .signed => 0 | .unsigned => 1 | .single => 2 | .double => 3

def ClampFn.ofCode (c : BitVec 8) : Option ClampFn :=
  match c.toNat with | 0 => some .signed | 1 => some .unsigned | 2 => some .single | 3 => some .double | _ => none

def PopFn.code (f : PopFn) : BitVec 8 :=
  match f with | .and => 0 | .or => 1 | .xor => 2 | .andn => 3 | .not => 4 | .set => 5 | .clr => 6

def PopFn.ofCode (c : BitVec 8) : Option PopFn :=
  match c.toNat with
  | 0 => some .and | 1 => some .or | 2 => some .xor | 3 => some .andn | 4 => some .not | 5 => some .set | 6 => some .clr
  | _ => none

def VlogFn.code (f : VlogFn) : BitVec 8 := match f with | .and => 0 | .or => 1 | .xor => 2 | .andn => 3 | .not => 4

def VlogFn.ofCode (c : BitVec 8) : Option VlogFn :=
  match c.toNat with | 0 => some .and | 1 => some .or | 2 => some .xor | 3 => some .andn | 4 => some .not | _ => none

def VbitFn.code (f : VbitFn) : BitVec 8 := match f with | .clz => 0 | .ctz => 1 | .brev => 2 | .bswap => 3

def VbitFn.ofCode (c : BitVec 8) : Option VbitFn :=
  match c.toNat with | 0 => some .clz | 1 => some .ctz | 2 => some .brev | 3 => some .bswap | _ => none

def FnFn.code (f : FnFn) : BitVec 8 :=
  match f with
  | .exp2 => 0 | .log2 => 1 | .rcp => 2 | .rsqrt => 3 | .tanh => 4 | .sigmoid => 5 | .silu => 6 | .gelu => 7

def FnFn.ofCode (c : BitVec 8) : Option FnFn :=
  match c.toNat with
  | 0 => some .exp2 | 1 => some .log2 | 2 => some .rcp | 3 => some .rsqrt | 4 => some .tanh | 5 => some .sigmoid
  | 6 => some .silu | 7 => some .gelu | _ => none

def RedFn.code (f : RedFn) : BitVec 8 :=
  match f with | .sum => 0 | .max => 1 | .min => 2 | .amax => 3 | .argmax => 4 | .argmin => 5

def RedFn.ofCode (c : BitVec 8) : Option RedFn :=
  match c.toNat with
  | 0 => some .sum | 1 => some .max | 2 => some .min | 3 => some .amax | 4 => some .argmax | 5 => some .argmin | _ => none

def ScanFn.code (f : ScanFn) : BitVec 8 := match f with | .sum => 0 | .max => 1 | .min => 2

def ScanFn.ofCode (c : BitVec 8) : Option ScanFn :=
  match c.toNat with | 0 => some .sum | 1 => some .max | 2 => some .min | _ => none

def FillFn.code (f : FillFn) : BitVec 8 := match f with | .const => 0 | .iota => 1 | .cix => 2 | .rix => 3 | .rand => 4

def FillFn.ofCode (c : BitVec 8) : Option FillFn :=
  match c.toNat with | 0 => some .const | 1 => some .iota | 2 => some .cix | 3 => some .rix | 4 => some .rand | _ => none

def MaskFn.code (f : MaskFn) : BitVec 8 := match f with | .pfx => 0 | .rows => 1 | .lower => 2 | .upper => 3

def MaskFn.ofCode (c : BitVec 8) : Option MaskFn :=
  match c.toNat with | 0 => some .pfx | 1 => some .rows | 2 => some .lower | 3 => some .upper | _ => none

def AtomFn.code (f : AtomFn) : BitVec 4 :=
  match f with
  | .add => 0 | .min => 1 | .max => 2 | .minn => 3 | .maxn => 4 | .and => 5 | .or => 6 | .xor => 7 | .xchg => 8 | .cas => 9
  | .fadd => 10

def AtomFn.ofCode (c : BitVec 4) : Option AtomFn :=
  match c.toNat with
  | 0 => some .add | 1 => some .min | 2 => some .max | 3 => some .minn | 4 => some .maxn | 5 => some .and | 6 => some .or
  | 7 => some .xor | 8 => some .xchg | 9 => some .cas | 10 => some .fadd | _ => none

/-! ### Decoding -/

abbrev Decoded := Except DecodeError Instr

/-- Accept `i` when the bits that its constructor does not hold are zero (R53 check 3). -/
def accept (zero : Bool) (i : Instr) : Decoded := if zero then .ok i else .error .mustBeZero

/-- Accept the instruction that a function code selects (R53 check 4). -/
def select {α : Type} (f : Option α) (k : α → Decoded) : Decoded :=
  match f with
  | some x => k x
  | none => .error .illegalField

/-- FN of the float forms: precision, rounding, subfunction (R55). -/
structure FloatFn where
  pr : Prec
  z : Bool
  rnd : BitVec 3
  sub : Nat
  deriving DecidableEq, Repr

def FloatFn.of (fn : BitVec 8) : FloatFn :=
  { pr := Prec.ofBit fn.toNat, z := fn.toNat / 2 % 2 == 1, rnd := cut fn.toNat 2 3, sub := fn.toNat / 32 }

def floatFn (pr : Prec) (rnd : BitVec 3) (sub : Nat) : BitVec 8 := BitVec.ofNat 8 (pr.code + rnd.toNat * 4 + sub * 32)

/-- A predicate destination or source field: bit 3 must be zero (R56). -/
def predOk (f : BitVec 4) : Bool := f.toNat < 8

def predOf (f : BitVec 4) : PredReg := cut f.toNat 0 3

def predField (p : PredReg) : BitVec 4 := BitVec.ofNat 4 p.toNat

/-- Group 0 (R128 to R133). -/
def decodeG0 (r : Raw) : Decoded :=
  let q := RestR.of r.rest
  let i := RestI.of r.rest
  let zR := q.c == 0 && q.z == 0
  let three (k : Guard → Reg → Reg → Reg → Instr) : Decoded :=
    if q.fn == 0 then accept zR (k r.g r.d r.a r.b) else .error .illegalField
  match r.opc.toNat with
  | 0x00 => if q.fn == 0 then accept (zR && r.d == 0 && r.a == 0 && r.b == 0) (.nop r.g) else .error .illegalField
  | 0x01 => three .add | 0x02 => three .sub | 0x03 => three .mul | 0x04 => three .mulh | 0x05 => three .mulhn
  | 0x06 => three .div | 0x07 => three .divn | 0x08 => three .rem | 0x09 => three .remn | 0x0A => three .and
  | 0x0B => three .or | 0x0C => three .xor | 0x0D => three .andn | 0x0E => three .shl | 0x0F => three .shr
  | 0x10 => three .sra | 0x11 => three .rotl | 0x12 => three .min | 0x13 => three .max | 0x14 => three .minn
  | 0x15 => three .maxn
  | 0x16 => select (BitopFn.ofCode q.fn) fun f => accept (zR && r.b == 0) (.bitop r.g f r.d r.a)
  | 0x17 =>
    if i.fn == 0 then
      accept (r.b == 0 && i.imm.toNat < 2 ^ 14)
        (.bfx r.g r.d r.a (cut i.imm.toNat 0 6) (cut i.imm.toNat 6 7) (i.imm.toNat / 2 ^ 13 % 2 == 1))
    else .error .illegalField
  | 0x18 =>
    if i.fn == 0 then
      accept (r.b == 0 && i.imm.toNat < 2 ^ 13) (.bfi r.g r.d r.a (cut i.imm.toNat 0 6) (cut i.imm.toNat 6 7))
    else .error .illegalField
  | 0x19 =>
    if q.fn == 0 then accept (predOk q.c && q.z == 0) (.sel r.g r.d r.a r.b (predOf q.c)) else .error .illegalField
  | 0x1A =>
    if i.fn.toNat < 2 then accept (r.a == 0 && r.b == 0) (.movi r.g (i.fn == 1) r.d i.imm) else .error .illegalField
  | 0x1B => if i.fn == 0 then accept (r.b == 0) (.addi r.g r.d r.a i.imm) else .error .illegalField
  | 0x1C => select (LogFn.ofCode i.fn) fun f => accept (r.b == 0) (.logi r.g f r.d r.a i.imm)
  | 0x1D => select (ShFn.ofCode i.fn) fun f => accept (r.b == 0 && i.imm.toNat < 64) (.shfi r.g f r.d r.a (cut i.imm.toNat 0 6))
  | 0x1E => select (Cond.ofCode q.fn) fun c => accept (zR && predOk r.d) (.cmp r.g c (predOf r.d) r.a r.b)
  | _ => select (Cond.ofCode i.fn) fun c => accept (predOk r.d && r.b == 0) (.cmpi r.g c (predOf r.d) r.a i.imm)

/-- Group 1 (R134 to R143). -/
def decodeG1 (r : Raw) : Decoded :=
  let q := RestR.of r.rest
  let i := RestI.of r.rest
  let f := FloatFn.of q.fn
  let z2 := q.c == 0 && q.z == 0 && !f.z
  let arith (zero : Bool) (k : Rnd → Instr) : Decoded :=
    if f.sub == 0 then select (Rnd.ofCode f.rnd) fun x => accept zero (k x) else .error .illegalField
  let plain (zero : Bool) (k : Instr) : Decoded :=
    if f.sub == 0 && f.rnd == 0 then accept zero k else .error .illegalField
  match r.opc.toNat with
  | 0x20 => arith z2 fun x => .fadd r.g f.pr x r.d r.a r.b
  | 0x21 => arith z2 fun x => .fsub r.g f.pr x r.d r.a r.b
  | 0x22 => arith z2 fun x => .fmul r.g f.pr x r.d r.a r.b
  | 0x23 => arith (q.z == 0 && !f.z) fun x => .fma r.g f.pr x r.d r.a r.b q.c
  | 0x24 => plain z2 (.fmin r.g f.pr r.d r.a r.b)
  | 0x25 => plain z2 (.fmax r.g f.pr r.d r.a r.b)
  | 0x26 => arith z2 fun x => .fdiv r.g f.pr x r.d r.a r.b
  | 0x27 => arith (z2 && r.b == 0) fun x => .fsqrt r.g f.pr x r.d r.a
  | 0x28 =>
    if f.rnd == 0 then select (FCond.ofFn f.sub) fun c => accept (z2 && predOk r.d) (.fcmp r.g f.pr c (predOf r.d) r.a r.b)
    else .error .illegalField
  | 0x29 =>
    select (CvtFn.ofFn f.sub) fun c => select (Rnd.ofCode f.rnd) fun x => accept (z2 && r.b == 0) (.fcvt r.g f.pr x c r.d r.a)
  | 0x2A => plain (z2 && r.b == 0) (.fcls r.g f.pr r.d r.a)
  | 0x2B => if i.fn.toNat < 4 then .ok (.lea r.g (cut i.fn.toNat 0 2) r.d r.a r.b i.imm) else .error .illegalField
  | 0x2C => if i.fn.toNat < 128 then accept (r.b == 0) (.mhash r.g (cut i.fn.toNat 0 7) r.d r.a i.imm) else .error .illegalField
  | 0x2D =>
    select (PopFn.ofCode q.fn) fun p =>
      accept (q.c == 0 && q.z == 0 && predOk r.d && predOk r.a && predOk r.b) (.pop r.g p (predOf r.d) (predOf r.a) (predOf r.b))
  | 0x2E =>
    let z := q.c == 0 && q.z == 0 && r.b == 0
    if q.fn == 0 then accept (z && r.a == 0) (.pmov r.g false r.d)
    else if q.fn == 1 then accept (z && r.d == 0) (.pmov r.g true r.a)
    else .error .illegalField
  | 0x2F =>
    if i.fn == 0 then
      accept (r.a == 0 && r.b == 0 && i.imm.toNat < 2 ^ 19) (.mfs r.g r.d (cut i.imm.toNat 0 16) (cut i.imm.toNat 16 3))
    else .error .illegalField
  | 0x30 =>
    if i.fn == 0 then
      accept (r.d == 0 && r.b == 0 && i.imm.toNat < 2 ^ 19) (.mts r.g r.a (cut i.imm.toNat 0 16) (cut i.imm.toNat 16 3))
    else .error .illegalField
  | 0x31 => select (ClampFn.ofCode q.fn) fun c => accept (q.z == 0) (.clamp r.g c r.d r.a r.b q.c)
  | 0x32 =>
    if q.fn.toNat < 2 then accept (q.c == 0 && q.z == 0 && r.b == 0) (.iabs r.g (q.fn == 1) r.d r.a) else .error .illegalField
  | _ => .error .reservedOpcode

/-- `ent` (R50). -/
def decodeEnt (w : Word) : Decoded :=
  let e := RawE.ofWord w
  accept (e.z1 == 0 && e.zf == 0 && e.z2 == 0)
    (.ent { arity := Arity.ofCode e.arity, slot := e.slot, len := e.len, feat := e.feat, pcls := e.pcls, alt := e.alt })

/-- Group 2 but for `ent` (R145 to R158). -/
def decodeG2 (r : Raw) : Decoded :=
  let q := RestR.of r.rest
  let i := RestI.of r.rest
  let t := RestT.of r.rest
  let f : TF := { g := r.g, v := r.d, f := r.a, i := r.b, port := t.port, tix := t.tix }
  let zR := q.c == 0 && q.z == 0 && q.fn == 0
  /- A T word whose TIX2 must be zero, with IMM18 below the bound. -/
  let tw (bound : Nat) (k : Instr) : Decoded :=
    if t.kind == 0 && t.tix2 == 0 then accept (t.imm.toNat < bound) k else .error .illegalField
  match r.opc.toNat with
  | 0x41 =>
    if i.fn.toNat < 2 then accept (r.b == 0 && i.imm.toNat < 256) (.ldf r.g (i.fn == 1) r.d r.a (cut i.imm.toNat 0 8))
    else .error .illegalField
  | 0x42 =>
    if i.fn == 0 then accept (r.b == 0 && i.imm.toNat < 256) (.stf r.g r.d r.a (cut i.imm.toNat 0 8)) else .error .illegalField
  | 0x43 =>
    if i.fn == 0 then
      accept (r.d == 0 && r.b == 0 && i.imm.toNat < 2 ^ 16) (.fclr r.g r.a (cut i.imm.toNat 0 8) (cut i.imm.toNat 8 8))
    else .error .illegalField
  | 0x44 => tw 128 (.falloc f (cut t.imm.toNat 0 3) (cut t.imm.toNat 3 3) (t.imm.toNat / 64 % 2 == 1))
  | 0x45 => accept (zR && r.d == 0 && r.b == 0) (.ffree r.g r.a)
  | 0x46 =>
    if t.tix2 == 0 then select (SendKind.ofCode t.kind) fun k => .ok (.send f k t.imm) else .error .illegalField
  | 0x47 => tw (2 ^ 16) (.sendc f (cut t.imm.toNat 0 8) (cut t.imm.toNat 8 8))
  | 0x48 =>
    if t.kind == 0 && t.tix2.toNat < 16 then .ok (.sendx f (cut t.tix2.toNat 0 4) t.imm) else .error .illegalField
  | 0x49 => if t.kind == 0 then accept (t.imm.toNat < 8) (.swt f t.tix2 (cut t.imm.toNat 0 3)) else .error .illegalField
  | 0x4A => if t.kind == 0 then .ok (.sendm f t.tix2 t.imm) else .error .illegalField
  | 0x4B => accept (zR && r.a == 0 && r.b == 0) (.wadv r.g r.d)
  | 0x4C => accept (zR && r.d == 0 && r.a == 0 && r.b == 0) (.endH r.g)
  | 0x4D => tw 1 (.join f)
  | 0x4E => tw 1 (.leave f)
  | 0x4F => tw 16 (.arrive f (cut t.imm.toNat 0 4))
  | 0x50 => tw 1 (.wait f)
  | 0x51 => tw 16 (.halloc f (cut t.imm.toNat 0 4))
  | 0x52 => accept (zR && r.d == 0 && r.b == 0) (.hinc r.g r.a)
  | 0x53 => accept (zR && r.d == 0 && r.b == 0) (.hdec r.g r.a)
  | 0x54 => tw 2 (.hinfo f (t.imm == 1))
  | 0x55 => if i.fn == 0 then accept (r.d == 0 && r.a == 0 && r.b == 0) (.trap r.g i.imm) else .error .illegalField
  | 0x56 => if i.fn == 0 then accept (r.d == 0 && r.a == 0 && r.b == 0) (.brk r.g i.imm) else .error .illegalField
  | 0x57 => tw (2 ^ 18) (.sys f t.imm)
  | 0x58 =>
    let z := q.c == 0 && q.z == 0 && r.d == 0 && r.b == 0
    match q.fn.toNat with
    | 0 => accept z (.resmGo r.g r.a)
    | 1 => accept z (.resmDrop r.g r.a)
    | 2 => accept z (.resmStep r.g r.a)
    | _ => .error .illegalField
  | 0x59 =>
    let z := q.c == 0 && q.z == 0 && r.a == 0 && r.b == 0
    match q.fn.toNat with
    | 0 => accept (z && predOk r.d) (.psn r.g (.test (predOf r.d)))
    | 1 => accept (z && r.d == 0) (.psn r.g .set)
    | 2 => accept (z && r.d == 0) (.psn r.g .clr)
    | _ => .error .illegalField
  | _ => .error .reservedOpcode

/-- The record of an X word, and its FN; none where EF or RND is no code (R49, R52). -/
def decodeX (r : Raw) (k : BitVec 8 → XF → Decoded) : Decoded :=
  let q := RestX.of r.rest
  select (EF.ofCode q.ef.toNat) fun ef => select (Rnd.ofCode q.rnd) fun rnd =>
    k q.fn { g := r.g, d := r.d, a := r.a, b := r.b, c := q.c, ef := ef, rnd := rnd, sat := q.sat, gap := q.gap, ct := q.ct, m := q.m }

/-- Group 3 (R189). -/
def decodeG3 (r : Raw) : Decoded :=
  decodeX r fun fn x =>
    let z (k : XF → Instr) : Decoded := if fn == 0 then .ok (k x) else .error .illegalField
    match r.opc.toNat with
    | 0x60 => z .vadd | 0x61 => z .vsub | 0x62 => z .vmul | 0x63 => z .vfma | 0x64 => z .vmin | 0x65 => z .vmax
    | 0x66 => z .vabs | 0x67 => z .vneg
    | 0x68 => select (VlogFn.ofCode fn) fun f => .ok (.vlog f x)
    | 0x69 => select (ShFn.ofCode fn) fun f => .ok (.vsh f x)
    | 0x6A => select (FCond.ofFn fn.toNat) fun f => .ok (.vcmp f x)
    | 0x6B => z .vsel | 0x6C => z .vcvt | 0x6D => z .vqnt | 0x6E => z .vdqn
    | 0x6F => select (FnFn.ofCode fn) fun f => .ok (.vfn f x)
    | 0x70 => select (RedFn.ofCode fn) fun f => .ok (.vred f x)
    | 0x71 => select (ScanFn.ofCode fn) fun f => .ok (.vscan f x)
    | 0x72 => z .vbc
    | 0x73 => select (FillFn.ofCode fn) fun f => .ok (.vfill f x)
    | 0x74 => z .vtrn | 0x75 => z .vperm
    | 0x76 => if fn.toNat < 128 then .ok (.vhash (cut fn.toNat 0 7) x) else .error .illegalField
    | 0x77 => if fn.toNat < 2 then .ok (.vpopc (fn == 1) x) else .error .illegalField
    | 0x78 => z .vhist
    | 0x79 => if fn.toNat < 2 then .ok (.vpack (fn == 1) x) else .error .illegalField
    | 0x7A => if fn.toNat < 2 then .ok (.vunpk (fn == 1) x) else .error .illegalField
    | 0x7B => z .vmov | 0x7C => z .vrnd
    | 0x7D => select (VbitFn.ofCode fn) fun f => .ok (.vbit f x)
    | 0x7E => select (MaskFn.ofCode fn) fun f => .ok (.vmask f x)
    | _ => .error .reservedOpcode

/-- Group 4 (R274). -/
def decodeG4 (r : Raw) : Decoded :=
  decodeX r fun fn x =>
    let z (k : XF → Instr) : Decoded := if fn == 0 then .ok (k x) else .error .illegalField
    let two (k : Bool → XF → Instr) : Decoded := if fn.toNat < 2 then .ok (k (fn == 1) x) else .error .illegalField
    match r.opc.toNat with
    | 0x80 => z .mlds | 0x81 => z .mldw | 0x82 => z .mswp | 0x83 => z .mstr | 0x84 => z .mstt | 0x85 => two .macc
    | 0x86 => z .manc | 0x87 => z .mepc | 0x88 => z .mout | 0x89 => z .mclr | 0x8A => two .mtkr | 0x8B => z .mtkc
    | 0x8C => two .mspm | 0x8D => z .mclaim | 0x8E => z .mrel | 0x8F => z .msave | 0x90 => z .mrest | 0x91 => two .mstat
    | _ => .error .reservedOpcode

/-- Group 5 (R219). The FN of `atom` and `vatom` is MD[3:0]. -/
def decodeG5 (r : Raw) : Decoded :=
  let q := RestM.of r.rest
  select (MemOrd.ofCode q.ord) fun ord =>
    let mf (md : BitVec 5) : MF :=
      { g := r.g, d := r.d, a := r.a, b := r.b, alc := q.alc, scp := q.scp, ord := ord, md := md, tix := q.tix, off := q.off }
    let m := mf q.md
    let at' (k : AtomFn → MF → Instr) : Decoded :=
      select (AtomFn.ofCode (cut q.md.toNat 0 4)) fun f => .ok (k f (mf (BitVec.ofNat 5 (q.md.toNat / 16 * 16))))
    match r.opc.toNat with
    | 0xA0 => .ok (.ld m) | 0xA1 => .ok (.st m) | 0xA2 => .ok (.ldt m) | 0xA3 => .ok (.stt m) | 0xA4 => .ok (.gth m)
    | 0xA5 => .ok (.sct m) | 0xA6 => at' .atom | 0xA7 => at' .vatom | 0xA8 => .ok (.put m) | 0xA9 => .ok (.get m)
    | 0xAA => .ok (.sopen m) | 0xAB => .ok (.sclose m) | 0xAC => .ok (.fence m) | 0xAD => .ok (.pref m)
    | 0xAE => .ok (.migr m) | 0xAF => .ok (.wsld m) | 0xB0 => .ok (.inv m) | 0xB1 => .ok (.gbump m) | 0xB2 => .ok (.dst m)
    | _ => .error .reservedOpcode

/-- Group 6 (R321, R352, R375, R398, R433): IMM32[8:0] is RT. -/
def decodeG6 (r : Raw) : Decoded :=
  let q := RestI.of r.rest
  let x : SF := { g := r.g, d := r.d, a := r.a, b := r.b, rt := cut q.imm.toNat 0 9, hi := cut q.imm.toNat 9 23 }
  /- the instruction that FN selects from a list -/
  let fns (l : List (SF → Instr)) : Decoded :=
    match l[q.fn.toNat]? with
    | some k => .ok (k x)
    | none => .error .illegalField
  match r.opc.toNat with
  | 0xC0 => fns [.pplace false, .pplace true]
  | 0xC1 => fns [.pevictVacate, .pevictKill, .pevictContain]
  | 0xC2 => fns [.rmarkCut, .rmarkFreeze, .rmarkResume]
  | 0xC3 => fns [.qryState, .qryQuiet, .qryPower]
  | 0xC4 => fns [.lnch false, .lnch true]
  | 0xC5 => fns [.pclaimClaim, .pclaimRelease]
  | 0xC6 => fns [.twinOn, .twinOff]
  | 0xC7 => fns [.cgrpMake, .cgrpDrop]
  | 0xC8 => fns [.cred 0, .cred 1, .cred 2, .cred 3]
  | 0xC9 => fns [.cstat false, .cstat true]
  | 0xCA => fns [.ccan]
  | 0xCB => fns [.xcntAdd, .xcntArr, .xcntHist, .xcntTake]
  | 0xCC => fns [.xdspOne, .xdspArr, .xdspFlush]
  | 0xCD => fns [.xverGet, .xverWait, .xverResize]
  | 0xCE => fns [.xmrg]
  | 0xCF => fns [.xrep]
  | 0xD0 => fns [.xretDrain, .xretFree]
  | 0xD1 => fns [.rpnt]
  | 0xD2 => fns [.rseal]
  | 0xD3 => fns [.rrdpStat, .rrdpCheck]
  | 0xD4 => fns [.rbak]
  | 0xD5 => fns [.omrkWalk, .omrkTag]
  | 0xD6 => fns [.octrRead, .octrTotal]
  | 0xD7 => fns [.otrc]
  | 0xD8 => fns [.oinjArm, .oinjOff]
  | 0xD9 => fns [.ostpArm, .ostpOff]
  | _ => .error .reservedOpcode

/-- The form of a word, before the field values of a record are checked. -/
def decodeForm (w : Word) : Decoded :=
  let r := Raw.ofWord w
  match r.opc.toNat / 32 with
  | 0 => decodeG0 r
  | 1 => decodeG1 r
  | 2 => if r.opc == 0x40 then decodeEnt w else decodeG2 r
  | 3 => decodeG3 r
  | 4 => decodeG4 r
  | 5 => decodeG5 r
  | 6 => decodeG6 r
  | _ => .error .reservedOpcode

/-- The instruction of a word, or why there is none: R53's checks 1, 3 and 4, as far as the word alone decides them. -/
def decode (w : Word) : Decoded :=
  match decodeForm w with
  | .ok i => if !i.unusedZero then .error .mustBeZero else if !i.legal then .error .illegalField else .ok i
  | .error e => .error e

/-! ### Encoding -/

/-- A word of format R. -/
def wordR (opc : BitVec 8) (g : Guard) (d a b : Reg) (c : BitVec 4) (fn : BitVec 8) : Word :=
  Raw.word { opc := opc, g := g, d := d, a := a, b := b, rest := RestR.bits { c := c, fn := fn, z := 0 } }

/-- A word of format I or S. -/
def wordI (opc : BitVec 8) (g : Guard) (d a b : Reg) (fn : BitVec 8) (imm : BitVec 32) : Word :=
  Raw.word { opc := opc, g := g, d := d, a := a, b := b, rest := RestI.bits { fn := fn, imm := imm } }

/-- A word of format T. -/
def wordT (opc : BitVec 8) (t : TF) (kind : BitVec 3) (tix2 : BitVec 9) (imm : BitVec 18) : Word :=
  Raw.word { opc := opc, g := t.g, d := t.v, a := t.f, b := t.i,
             rest := RestT.bits { port := t.port, kind := kind, tix := t.tix, tix2 := tix2, imm := imm } }

/-- A word of format X. -/
def wordX (opc : BitVec 8) (fn : BitVec 8) (x : XF) : Word :=
  Raw.word { opc := opc, g := x.g, d := x.d, a := x.a, b := x.b,
             rest := RestX.bits { c := x.c, fn := fn, ef := BitVec.ofNat 8 x.ef.code, rnd := x.rnd.code, sat := x.sat, gap := x.gap,
                                  ct := x.ct, m := x.m } }

/-- A word of format M. -/
def wordM (opc : BitVec 8) (md : BitVec 5) (m : MF) : Word :=
  Raw.word { opc := opc, g := m.g, d := m.d, a := m.a, b := m.b,
             rest := RestM.bits { alc := m.alc, scp := m.scp, ord := m.ord.code, md := md, tix := m.tix, off := m.off } }

/-- A word of format S with RT and IMM32[31:9]. -/
def wordS (opc : BitVec 8) (fn : BitVec 8) (x : SF) : Word :=
  wordI opc x.g x.d x.a x.b fn (BitVec.ofNat 32 (x.hi.toNat * 2 ^ 9 + x.rt.toNat))

def fnBit (b : Bool) : BitVec 8 := if b then 1 else 0

/-- IMM32 of `bfx` and `bfi` (R133). -/
def bfImm (lsb : BitVec 6) (w : BitVec 7) (sx : Bool) : BitVec 32 :=
  BitVec.ofNat 32 (lsb.toNat + w.toNat * 2 ^ 6 + flag sx * 2 ^ 13)

/-- The word of an instruction; 0 for a step of an engine, which has none. -/
def encode (i : Instr) : Word :=
  match i with
  | .nop g => wordR 0x00 g 0 0 0 0 0
  | .add g d a b => wordR 0x01 g d a b 0 0
  | .sub g d a b => wordR 0x02 g d a b 0 0
  | .mul g d a b => wordR 0x03 g d a b 0 0
  | .mulh g d a b => wordR 0x04 g d a b 0 0
  | .mulhn g d a b => wordR 0x05 g d a b 0 0
  | .div g d a b => wordR 0x06 g d a b 0 0
  | .divn g d a b => wordR 0x07 g d a b 0 0
  | .rem g d a b => wordR 0x08 g d a b 0 0
  | .remn g d a b => wordR 0x09 g d a b 0 0
  | .and g d a b => wordR 0x0A g d a b 0 0
  | .or g d a b => wordR 0x0B g d a b 0 0
  | .xor g d a b => wordR 0x0C g d a b 0 0
  | .andn g d a b => wordR 0x0D g d a b 0 0
  | .shl g d a b => wordR 0x0E g d a b 0 0
  | .shr g d a b => wordR 0x0F g d a b 0 0
  | .sra g d a b => wordR 0x10 g d a b 0 0
  | .rotl g d a b => wordR 0x11 g d a b 0 0
  | .min g d a b => wordR 0x12 g d a b 0 0
  | .max g d a b => wordR 0x13 g d a b 0 0
  | .minn g d a b => wordR 0x14 g d a b 0 0
  | .maxn g d a b => wordR 0x15 g d a b 0 0
  | .bitop g fn d a => wordR 0x16 g d a 0 0 fn.code
  | .bfx g d a lsb w sx => wordI 0x17 g d a 0 0 (bfImm lsb w sx)
  | .bfi g d a lsb w => wordI 0x18 g d a 0 0 (bfImm lsb w false)
  | .sel g d a b p => wordR 0x19 g d a b (predField p) 0
  | .movi g hi d imm => wordI 0x1A g d 0 0 (fnBit hi) imm
  | .addi g d a imm => wordI 0x1B g d a 0 0 imm
  | .logi g fn d a imm => wordI 0x1C g d a 0 fn.code imm
  | .shfi g fn d a n => wordI 0x1D g d a 0 fn.code (BitVec.ofNat 32 n.toNat)
  | .cmp g c p a b => wordR 0x1E g (predField p) a b 0 c.code
  | .cmpi g c p a imm => wordI 0x1F g (predField p) a 0 c.code imm
  | .fadd g pr rnd d a b => wordR 0x20 g d a b 0 (floatFn pr rnd.code 0)
  | .fsub g pr rnd d a b => wordR 0x21 g d a b 0 (floatFn pr rnd.code 0)
  | .fmul g pr rnd d a b => wordR 0x22 g d a b 0 (floatFn pr rnd.code 0)
  | .fma g pr rnd d a b c => wordR 0x23 g d a b c (floatFn pr rnd.code 0)
  | .fmin g pr d a b => wordR 0x24 g d a b 0 (floatFn pr 0 0)
  | .fmax g pr d a b => wordR 0x25 g d a b 0 (floatFn pr 0 0)
  | .fdiv g pr rnd d a b => wordR 0x26 g d a b 0 (floatFn pr rnd.code 0)
  | .fsqrt g pr rnd d a => wordR 0x27 g d a 0 0 (floatFn pr rnd.code 0)
  | .fcmp g pr c p a b => wordR 0x28 g (predField p) a b 0 (floatFn pr 0 c.code)
  | .fcvt g pr rnd fn d a => wordR 0x29 g d a 0 0 (floatFn pr rnd.code fn.code)
  | .fcls g pr d a => wordR 0x2A g d a 0 0 (floatFn pr 0 0)
  | .lea g sh d a b imm => wordI 0x2B g d a b (BitVec.ofNat 8 sh.toNat) imm
  | .mhash g n d a mult => wordI 0x2C g d a 0 (BitVec.ofNat 8 n.toNat) mult
  | .pop g fn d a b => wordR 0x2D g (predField d) (predField a) (predField b) 0 fn.code
  | .pmov g toPred r => if toPred then wordR 0x2E g 0 r 0 0 1 else wordR 0x2E g r 0 0 0 0
  | .mfs g d no c => wordI 0x2F g d 0 0 0 (BitVec.ofNat 32 (no.toNat + c.toNat * 2 ^ 16))
  | .mts g a no c => wordI 0x30 g 0 a 0 0 (BitVec.ofNat 32 (no.toNat + c.toNat * 2 ^ 16))
  | .clamp g fn d a b c => wordR 0x31 g d a b c fn.code
  | .iabs g neg d a => wordR 0x32 g d a 0 0 (fnBit neg)
  | .ent e =>
    RawE.word { z1 := 0, arity := e.arity.code, slot := e.slot, len := e.len, zf := 0, feat := e.feat, pcls := e.pcls, alt := e.alt,
                z2 := 0 }
  | .ldf g side d a n => wordI 0x41 g d a 0 (fnBit side) (BitVec.ofNat 32 n.toNat)
  | .stf g d a n => wordI 0x42 g d a 0 0 (BitVec.ofNat 32 n.toNat)
  | .fclr g a n cnt => wordI 0x43 g 0 a 0 0 (BitVec.ofNat 32 (n.toNat + cnt.toNat * 2 ^ 8))
  | .falloc t c l u => wordT 0x44 t 0 0 (BitVec.ofNat 18 (c.toNat + l.toNat * 2 ^ 3 + flag u * 2 ^ 6))
  | .ffree g a => wordR 0x45 g 0 a 0 0 0
  | .send t k imm => wordT 0x46 t k.code 0 imm
  | .sendc t cop rank => wordT 0x47 t 0 0 (BitVec.ofNat 18 (cop.toNat + rank.toNat * 2 ^ 8))
  | .sendx t e imm => wordT 0x48 t 0 (BitVec.ofNat 9 e.toNat) imm
  | .swt t t2 p => wordT 0x49 t 0 t2 (BitVec.ofNat 18 p.toNat)
  | .sendm t t2 imm => wordT 0x4A t 0 t2 imm
  | .wadv g d => wordR 0x4B g d 0 0 0 0
  | .endH g => wordR 0x4C g 0 0 0 0 0
  | .join t => wordT 0x4D t 0 0 0
  | .leave t => wordT 0x4E t 0 0 0
  | .arrive t sc => wordT 0x4F t 0 0 (BitVec.ofNat 18 sc.toNat)
  | .wait t => wordT 0x50 t 0 0 0
  | .halloc t k => wordT 0x51 t 0 0 (BitVec.ofNat 18 k.toNat)
  | .hinc g a => wordR 0x52 g 0 a 0 0 0
  | .hdec g a => wordR 0x53 g 0 a 0 0 0
  | .hinfo t s => wordT 0x54 t 0 0 (if s then 1 else 0)
  | .trap g imm => wordI 0x55 g 0 0 0 0 imm
  | .brk g imm => wordI 0x56 g 0 0 0 0 imm
  | .sys t sv => wordT 0x57 t 0 0 sv
  | .resmGo g a => wordR 0x58 g 0 a 0 0 0
  | .resmDrop g a => wordR 0x58 g 0 a 0 0 1
  | .resmStep g a => wordR 0x58 g 0 a 0 0 2
  | .psn g fn =>
    match fn with
    | .test d => wordR 0x59 g (predField d) 0 0 0 0
    | .set => wordR 0x59 g 0 0 0 0 1
    | .clr => wordR 0x59 g 0 0 0 0 2
  | .vadd x => wordX 0x60 0 x
  | .vsub x => wordX 0x61 0 x
  | .vmul x => wordX 0x62 0 x
  | .vfma x => wordX 0x63 0 x
  | .vmin x => wordX 0x64 0 x
  | .vmax x => wordX 0x65 0 x
  | .vabs x => wordX 0x66 0 x
  | .vneg x => wordX 0x67 0 x
  | .vlog f x => wordX 0x68 f.code x
  | .vsh f x => wordX 0x69 f.code x
  | .vcmp c x => wordX 0x6A (BitVec.ofNat 8 c.code) x
  | .vsel x => wordX 0x6B 0 x
  | .vcvt x => wordX 0x6C 0 x
  | .vqnt x => wordX 0x6D 0 x
  | .vdqn x => wordX 0x6E 0 x
  | .vfn f x => wordX 0x6F f.code x
  | .vred f x => wordX 0x70 f.code x
  | .vscan f x => wordX 0x71 f.code x
  | .vbc x => wordX 0x72 0 x
  | .vfill f x => wordX 0x73 f.code x
  | .vtrn x => wordX 0x74 0 x
  | .vperm x => wordX 0x75 0 x
  | .vhash n x => wordX 0x76 (BitVec.ofNat 8 n.toNat) x
  | .vpopc r x => wordX 0x77 (fnBit r) x
  | .vhist x => wordX 0x78 0 x
  | .vpack r x => wordX 0x79 (fnBit r) x
  | .vunpk r x => wordX 0x7A (fnBit r) x
  | .vmov x => wordX 0x7B 0 x
  | .vrnd x => wordX 0x7C 0 x
  | .vbit f x => wordX 0x7D f.code x
  | .vmask f x => wordX 0x7E f.code x
  | .mlds x => wordX 0x80 0 x
  | .mldw x => wordX 0x81 0 x
  | .mswp x => wordX 0x82 0 x
  | .mstr x => wordX 0x83 0 x
  | .mstt x => wordX 0x84 0 x
  | .macc a x => wordX 0x85 (fnBit a) x
  | .manc x => wordX 0x86 0 x
  | .mepc x => wordX 0x87 0 x
  | .mout x => wordX 0x88 0 x
  | .mclr x => wordX 0x89 0 x
  | .mtkr i x => wordX 0x8A (fnBit i) x
  | .mtkc x => wordX 0x8B 0 x
  | .mspm s x => wordX 0x8C (fnBit s) x
  | .mclaim x => wordX 0x8D 0 x
  | .mrel x => wordX 0x8E 0 x
  | .msave x => wordX 0x8F 0 x
  | .mrest x => wordX 0x90 0 x
  | .mstat t x => wordX 0x91 (fnBit t) x
  | .ld m => wordM 0xA0 m.md m
  | .st m => wordM 0xA1 m.md m
  | .ldt m => wordM 0xA2 m.md m
  | .stt m => wordM 0xA3 m.md m
  | .gth m => wordM 0xA4 m.md m
  | .sct m => wordM 0xA5 m.md m
  | .atom f m => wordM 0xA6 (BitVec.ofNat 5 (f.code.toNat + m.md.toNat)) m
  | .vatom f m => wordM 0xA7 (BitVec.ofNat 5 (f.code.toNat + m.md.toNat)) m
  | .put m => wordM 0xA8 m.md m
  | .get m => wordM 0xA9 m.md m
  | .sopen m => wordM 0xAA m.md m
  | .sclose m => wordM 0xAB m.md m
  | .fence m => wordM 0xAC m.md m
  | .pref m => wordM 0xAD m.md m
  | .migr m => wordM 0xAE m.md m
  | .wsld m => wordM 0xAF m.md m
  | .inv m => wordM 0xB0 m.md m
  | .gbump m => wordM 0xB1 m.md m
  | .dst m => wordM 0xB2 m.md m
  | .pplace now x => wordS 0xC0 (fnBit now) x
  | .pevictVacate x => wordS 0xC1 0 x
  | .pevictKill x => wordS 0xC1 1 x
  | .pevictContain x => wordS 0xC1 2 x
  | .rmarkCut x => wordS 0xC2 0 x
  | .rmarkFreeze x => wordS 0xC2 1 x
  | .rmarkResume x => wordS 0xC2 2 x
  | .qryState x => wordS 0xC3 0 x
  | .qryQuiet x => wordS 0xC3 1 x
  | .qryPower x => wordS 0xC3 2 x
  | .lnch ctl x => wordS 0xC4 (fnBit ctl) x
  | .pclaimClaim x => wordS 0xC5 0 x
  | .pclaimRelease x => wordS 0xC5 1 x
  | .twinOn x => wordS 0xC6 0 x
  | .twinOff x => wordS 0xC6 1 x
  | .cgrpMake x => wordS 0xC7 0 x
  | .cgrpDrop x => wordS 0xC7 1 x
  | .cred f x => wordS 0xC8 (BitVec.ofNat 8 f.toNat) x
  | .cstat p x => wordS 0xC9 (fnBit p) x
  | .ccan x => wordS 0xCA 0 x
  | .xcntAdd x => wordS 0xCB 0 x
  | .xcntArr x => wordS 0xCB 1 x
  | .xcntHist x => wordS 0xCB 2 x
  | .xcntTake x => wordS 0xCB 3 x
  | .xdspOne x => wordS 0xCC 0 x
  | .xdspArr x => wordS 0xCC 1 x
  | .xdspFlush x => wordS 0xCC 2 x
  | .xverGet x => wordS 0xCD 0 x
  | .xverWait x => wordS 0xCD 1 x
  | .xverResize x => wordS 0xCD 2 x
  | .xmrg x => wordS 0xCE 0 x
  | .xrep x => wordS 0xCF 0 x
  | .xretDrain x => wordS 0xD0 0 x
  | .xretFree x => wordS 0xD0 1 x
  | .rpnt x => wordS 0xD1 0 x
  | .rseal x => wordS 0xD2 0 x
  | .rrdpStat x => wordS 0xD3 0 x
  | .rrdpCheck x => wordS 0xD3 1 x
  | .rbak x => wordS 0xD4 0 x
  | .omrkWalk x => wordS 0xD5 0 x
  | .omrkTag x => wordS 0xD5 1 x
  | .octrRead x => wordS 0xD6 0 x
  | .octrTotal x => wordS 0xD6 1 x
  | .otrc x => wordS 0xD7 0 x
  | .oinjArm x => wordS 0xD8 0 x
  | .oinjOff x => wordS 0xD8 1 x
  | .ostpArm x => wordS 0xD9 0 x
  | .ostpOff x => wordS 0xD9 1 x
  | _ => 0

/-- The instruction that the decoder reads from the bits of a table row: one 64-bit word, the bits above `nbits` zero. -/
def decodeTableWord (nbits w : Nat) : Option Instr :=
  match decode (BitVec.ofNat 64 (w % 2 ^ nbits)) with
  | .ok i => some i
  | .error _ => none

end Sys2Proof
end

