-- ==== Sys2Proof/Machine/Numbers.lean ====
section
/-! DEFINITION. Rounding, saturation and exact arithmetic on values (R134, R163, R167, R168, R172), and the stochastic
generators (R169). -/
namespace Sys2Proof.Machine

/-! ### Generators (R169) -/

/-- z(v) of R169. -/
def genSeed (v : Word) : Word := if v = 0 then 0x9E3779B97F4A7C15 else v

/-- step(G) of R169. -/
def genStep (g : Word) : Word :=
  let g1 := g ^^^ (g <<< (13 : Nat))
  let g2 := g1 ^^^ (g1 >>> (7 : Nat))
  g2 ^^^ (g2 <<< (17 : Nat))

/-- The 16 bits that draw() takes of a stepped generator. -/
def drawOf (g : Word) : Nat := g.toNat / 2 ^ 48

/-! ### Rounding (R168) -/

/-- The integer that replaces the exact q ≥ 0 under a rounding code; `dr` is the draw of SR. -/
def roundQ (rnd : Rnd) (pos : Bool) (dr : Nat) (q : Rat) : Int :=
  let fl := q.floor
  let exact := (fl : Rat) == q
  let half := q - (fl : Rat)
  match rnd with
  | .rne => if half < 1 / 2 then fl else if 1 / 2 < half then fl + 1 else if fl % 2 = 0 then fl else fl + 1
  | .rtz => fl
  | .rdn => if pos || exact then fl else fl + 1
  | .rup => if !pos || exact then fl else fl + 1
  | .rna => if half < 1 / 2 then fl else fl + 1
  | .sr => (q + mkRat dr 65536).floor
  | .rno => if !exact && fl % 2 = 0 then fl + 1 else fl

/-- round_mag of R168: `neg` is the sign of the value whose magnitude is `m`. -/
def roundMag (m : Rat) (t : Nat) (emin : Int) (rnd : Rnd) (neg : Bool) (dr : Nat) : Rat :=
  if m = 0 then 0
  else
    let lg := ilog2 m
    let ulp := pow2 ((if lg < emin then emin else lg) - t)
    (roundQ rnd (!neg) dr (m / ulp) : Rat) * ulp

/-- round_to of R168. -/
def roundTo (f : Fmt) (rnd : Rnd) (sat : Bool) (dr : Nat) (x : Val) : Val × Exc :=
  match x with
  | .nan => (.nan, Exc.none)
  | .inf neg =>
    if f.hasInf && (f.signed || !neg) then (.inf neg, Exc.none) else (.nan, { inv := true })
  | .fin neg m =>
    let y := roundMag m f.t f.emin rnd neg dr
    if neg && !f.signed && y ≠ 0 then
      (if sat then .fin false 0 else .nan, { inv := true })
    else if f.maxfin < y then
      if sat || rnd == .rtz || rnd == .rno || (rnd == .rdn && !neg) || (rnd == .rup && neg) then
        (.fin neg f.maxfin, { ovf := true })
      else if f.hasInf then (.inf neg, { ovf := true })
      else (.nan, { ovf := true })
    else if y = 0 then (.fin (neg && f.hasNeg0) 0, Exc.none)
    else (.fin neg y, Exc.none)

/-- round_to into an element format, as a code. -/
def roundCode (e : EF) (rnd : Rnd) (sat : Bool) (dr : Nat) (x : Val) : Nat × Exc :=
  match EF.fmt e with
  | none => (0, Exc.none)
  | some f => let r := roundTo f rnd sat dr x; (valCode e r.1, r.2)

/-- round_int of R168: integers at the bounds [lo, hi]. -/
def roundInt (lo hi : Int) (rnd : Rnd) (dr : Nat) (x : Val) : Int × Exc :=
  match x with
  | .nan => (0, { inv := true })
  | .inf neg => (if neg then lo else hi, { inv := true })
  | .fin neg m =>
    let n := roundQ rnd (!neg) dr m
    let n := if neg then -n else n
    if n < lo then (lo, { inv := true }) else if hi < n then (hi, { inv := true }) else (n, Exc.none)

/-- int_fit of R168. -/
def intFit (e : EF) (sat : Bool) (n : Int) : Nat × Exc :=
  if e.minInt ≤ n ∧ n ≤ e.maxInt then (intCode e n, Exc.none)
  else if sat then (intCode e (if n < e.minInt then e.minInt else e.maxInt), { ovf := true })
  else (intCode e n, Exc.none)

/-- An exact value or integer put into any format under RND and SAT (R190, R196): the code. -/
def encodeVal (e : EF) (rnd : Rnd) (sat : Bool) (dr : Nat) (x : Val) : Nat × Exc :=
  if e.isInt then let r := roundInt e.minInt e.maxInt rnd dr x; (intCode e r.1, r.2)
  else roundCode e rnd sat dr x

/-! ### Exact arithmetic with IEEE 754-2019 signs and special values -/

/-- The sum of two values; the sign of an exact zero sum depends on the rounding direction. -/
def Val.add (rnd : Rnd) (a b : Val) : Val × Exc :=
  match a, b with
  | .nan, _ | _, .nan => (.nan, Exc.none)
  | .inf x, .inf y => if x = y then (.inf x, Exc.none) else (.nan, { inv := true })
  | .inf x, _ => (.inf x, Exc.none)
  | _, .inf y => (.inf y, Exc.none)
  | .fin x m, .fin y n =>
    let s := Val.rat (.fin x m) + Val.rat (.fin y n)
    if s = 0 then (.fin (if x = y then x else rnd == .rdn) 0, Exc.none)
    else (Val.ofRat s, Exc.none)

def Val.sub (rnd : Rnd) (a b : Val) : Val × Exc := Val.add rnd a b.neg

def Val.mul (a b : Val) : Val × Exc :=
  match a, b with
  | .nan, _ | _, .nan => (.nan, Exc.none)
  | .inf x, .inf y => (.inf (x ^^ y), Exc.none)
  | .inf x, .fin y n => if n = 0 then (.nan, { inv := true }) else (.inf (x ^^ y), Exc.none)
  | .fin x m, .inf y => if m = 0 then (.nan, { inv := true }) else (.inf (x ^^ y), Exc.none)
  | .fin x m, .fin y n => (.fin (x ^^ y) (m * n), Exc.none)

/-- a × b + c exactly, for one rounding. 0 × ∞ is invalid even when c is NaN only as the product rule gives it. -/
def Val.fma (rnd : Rnd) (a b c : Val) : Val × Exc :=
  let p := Val.mul a b
  let s := Val.add rnd p.1 c
  (s.1, p.2.or s.2)

def Val.div (a b : Val) : Val × Exc :=
  match a, b with
  | .nan, _ | _, .nan => (.nan, Exc.none)
  | .inf _, .inf _ => (.nan, { inv := true })
  | .inf x, .fin y _ => (.inf (x ^^ y), Exc.none)
  | .fin x _, .inf y => (.fin (x ^^ y) 0, Exc.none)
  | .fin x m, .fin y n =>
    if n = 0 then (if m = 0 then (.nan, { inv := true }) else (.inf (x ^^ y), { dz := true }))
    else (.fin (x ^^ y) (m / n), Exc.none)

/-- The integer square root of `n` by bisection: `fuel` halvings of an interval that starts at a power of two. -/
def isqrtGo (n lo width : Nat) (fuel : Nat) : Nat :=
  match fuel with
  | 0 => lo
  | fuel + 1 =>
    let mid := lo + width
    if mid * mid ≤ n then isqrtGo n mid (width / 2) fuel else isqrtGo n lo (width / 2) fuel

def isqrt (n : Nat) : Nat :=
  let k := n.log2 / 2 + 1
  isqrtGo n 0 (2 ^ k) (k + 1)

/-- A magnitude that rounds as √m does in a format of trailing width `t` and least exponent `emin`: √m itself when it is
a multiple of the grid, else a point inside the grid interval that holds √m. No rounding boundary, and no boundary of a
stochastic draw, lies inside an interval of the grid. -/
def sqrtMag (t : Nat) (emin : Int) (m : Rat) : Rat :=
  let lg := ilog2 m / 2
  let k := ((t : Int) + 40 - (if lg < emin then emin else lg)).toNat
  let scaled := m * (4 ^ k : Nat)
  let r := isqrt scaled.floor.toNat
  let grid := mkRat 1 (2 ^ (k + 1))
  if ((r * r : Nat) : Rat) = scaled then ((2 * r : Nat) : Rat) * grid else ((2 * r + 1 : Nat) : Rat) * grid

def Val.sqrt (t : Nat) (emin : Int) (a : Val) : Val × Exc :=
  match a with
  | .nan => (.nan, Exc.none)
  | .inf neg => if neg then (.nan, { inv := true }) else (.inf false, Exc.none)
  | .fin neg m =>
    if m = 0 then (.fin neg 0, Exc.none)
    else if neg then (.nan, { inv := true })
    else (.fin false (sqrtMag t emin m), Exc.none)

/-- The order of R134's fmin and fmax: −0 below +0; defined on numbers. -/
def Val.ltNum (a b : Val) : Bool :=
  match a, b with
  | .nan, _ | _, .nan => false
  | .inf x, .inf y => x && !y
  | .inf x, .fin .. => x
  | .fin .., .inf y => !y
  | .fin x m, .fin y n =>
    let p := Val.rat (.fin x m)
    let q := Val.rat (.fin y n)
    if p = q then (m == 0) && x && !y else decide (p < q)

/-- minimumNumber of IEEE 754-2019, −0 below +0 (R134). -/
def Val.minNum (a b : Val) : Val :=
  match a, b with
  | .nan, b => b
  | a, .nan => a
  | a, b => if b.ltNum a then b else a

/-- maximumNumber (R134). -/
def Val.maxNum (a b : Val) : Val :=
  match a, b with
  | .nan, b => b
  | a, .nan => a
  | a, b => if a.ltNum b then b else a

/-- IEEE equality and order: −0 equals +0; false on NaN. -/
def Val.eqIeee (a b : Val) : Bool :=
  match a, b with
  | .inf x, .inf y => x == y
  | .fin x m, .fin y n => Val.rat (.fin x m) == Val.rat (.fin y n)
  | _, _ => false

def Val.ltIeee (a b : Val) : Bool :=
  match a, b with
  | .fin x m, .fin y n => decide (Val.rat (.fin x m) < Val.rat (.fin y n))
  | a, b => a.ltNum b

/-- A float comparison and whether it raises INV (R135, R192). -/
def fcompare (c : FCond) (a b : Val) : Bool × Exc :=
  let un := a.isNan || b.isNan
  match c with
  | .eq => (!un && a.eqIeee b, Exc.none)
  | .ne => (un || !a.eqIeee b, Exc.none)
  | .lt => (!un && a.ltIeee b, { inv := un })
  | .le => (!un && (a.ltIeee b || a.eqIeee b), { inv := un })
  | .gt => (!un && b.ltIeee a, { inv := un })
  | .ge => (!un && (b.ltIeee a || a.eqIeee b), { inv := un })
  | .un => (un, Exc.none)

/-- An order comparison of exact integers as FCond names it; `un` is false. -/
def icompare (c : FCond) (a b : Int) : Bool :=
  match c with
  | .eq => a == b
  | .ne => a != b
  | .lt => decide (a < b)
  | .le => decide (a ≤ b)
  | .gt => decide (b < a)
  | .ge => decide (b ≤ a)
  | .un => false

/-! ### Scaled elements (R166, R167) -/

/-- The binary16 value of the block's outlier entry that names position `p`, entry 0 first (R166). -/
def outlierAt (entries : List Nat) (p : Nat) : Option Val :=
  match entries with
  | [] => none
  | e :: r => if e / 2 ^ 27 % 32 = p ∧ e / 2 ^ 16 % 2 ^ 11 = 0 then some (codeVal .f16 (e % 2 ^ 16)) else outlierAt r p

/-- scaled(c, s) of R167 at position `p` of its block; `entries` are the block's outlier entries. -/
def scaled (e : EF) (c s : Nat) (entries : List Nat) (p : Nat) : Val × Exc :=
  if e = .f4x ∧ c = 8 then
    match outlierAt entries p with
    | some v => (v, Exc.none)
    | none => (.nan, { missing := true })
  else
    let v := codeVal e c
    match scaleVal s with
    | .nan => (.nan, { inv := true })
    | .zero =>
      match v with
      | .fin neg m =>
        let uns := match EF.fmt e with | some f => !f.signed | none => !e.isSignedInt
        (.fin (!uns && neg && m ≠ 0) 0, Exc.none)
      | _ => (.nan, { inv := true })
    | .inf =>
      match v with
      | .nan => (.nan, Exc.none)
      | .inf n => (.inf n, Exc.none)
      | .fin n m => if m = 0 then (.nan, { inv := true }) else (.inf n, Exc.none)
    | .val q =>
      match v with
      | .nan => (.nan, Exc.none)
      | .inf n => (.inf n, Exc.none)
      | .fin n m => (.fin n (m * q), Exc.none)

/-! ### Sums in a fixed order (R172, R255) -/

/-- Round once, RNE, into binary32 or binary64: the step of every float sum (R172). -/
def addIn (f : Fmt) (a b : Val × Exc) : Val × Exc :=
  let s := Val.add .rne a.1 b.1
  let r := roundTo f .rne false 0 s.1
  (r.1, ((a.2.or b.2).or s.2).or r.2)

/-- f32add of R255. -/
def f32add (a b : Val × Exc) : Val × Exc := addIn f32Fmt a b

/-- One level of the pairwise tree of R172: neighbours are added, an odd last one is carried. -/
def treeLevel {α : Type} (add : α → α → α) (l : List α) : List α :=
  match l with
  | a :: b :: r => add a b :: treeLevel add r
  | [a] => [a]
  | [] => []

def treeGo {α : Type} (add : α → α → α) (z : α) (l : List α) (fuel : Nat) : α :=
  match fuel, l with
  | _, [] => z
  | _, [a] => a
  | 0, a :: _ => a
  | fuel + 1, l => treeGo add z (treeLevel add l) fuel

/-- tree(v, add) of R172 over at most 64 values. -/
def treeSum {α : Type} (add : α → α → α) (z : α) (l : List α) : α := treeGo add z l 7

def chunks64Go {α : Type} (l : List α) (fuel : Nat) : List (List α) :=
  match fuel, l with
  | 0, _ => []
  | _, [] => []
  | fuel + 1, l => l.take 64 :: chunks64Go (l.drop 64) fuel

/-- row_sum of R172: 64-element chunks from column 0, folded left to right. -/
def rowSum {α : Type} (add : α → α → α) (z : α) (row : List α) : α :=
  match chunks64Go row (row.length / 64 + 1) with
  | [] => z
  | c :: cs => cs.foldl (fun acc x => add acc (treeSum add z x)) (treeSum add z c)

/-- exact_sum of R255: −0 only when every member is −0, +0 when there is none. -/
def exactSum (l : List (Val × Exc)) : Val × Exc :=
  let exc := l.foldl (fun e x => e.or x.2) Exc.none
  let vs := l.map (·.1)
  if vs.any Val.isNan then (.nan, exc)
  else if vs.any (· == .inf false) && vs.any (· == .inf true) then (.nan, exc.or { inv := true })
  else if vs.any (· == .inf false) then (.inf false, exc)
  else if vs.any (· == .inf true) then (.inf true, exc)
  else
    let s := vs.foldl (fun a v => a + v.rat) 0
    if s = 0 then (.fin (!vs.isEmpty && vs.all (fun v => v.isZero && v.sign)) 0, exc) else (Val.ofRat s, exc)

/-! ### Scalar float forms (R134 to R137, R142) -/

def Prec.ef (p : Prec) : EF := match p with | .single => .f32 | .double => .f64

def Prec.fmt (p : Prec) : Fmt := match p with | .single => f32Fmt | .double => ieee 11 52 0x7FF8000000000000

/-- The value a register holds in a precision: binary32 reads bits 31:0 (R134). -/
def floatIn (p : Prec) (w : Word) : Val :=
  match p with
  | .single => codeVal .f32 (w.toNat % 2 ^ 32)
  | .double => codeVal .f64 w.toNat

/-- The register image of a value of a precision; binary32 leaves bits 63:32 zero (R134). -/
def floatOut (p : Prec) (v : Val) : Word := BitVec.ofNat 64 (valCode (Prec.ef p) v)

def roundOut (p : Prec) (rnd : Rnd) (dr : Nat) (r : Val × Exc) : Word × Exc :=
  let q := roundTo (Prec.fmt p) rnd false dr r.1
  (floatOut p q.1, r.2.or q.2)

def fclsMask (p : Prec) (w : Word) : Nat :=
  match floatIn p w with
  | .nan => 2 ^ 8
  | .inf neg => if neg then 2 ^ 0 else 2 ^ 7
  | .fin neg m =>
    if m = 0 then (if neg then 2 ^ 3 else 2 ^ 4)
    else if m < pow2 (Prec.fmt p).emin then (if neg then 2 ^ 2 else 2 ^ 5)
    else (if neg then 2 ^ 1 else 2 ^ 6)

/-- fcvt to an integer range (R136): NaN gives 0, out of range saturates, both with INV. -/
def toInt (lo hi : Int) (rnd : Rnd) (dr : Nat) (v : Val) : Int × Exc := roundInt lo hi rnd dr v

end Sys2Proof.Machine
end

