-- ==== Sys2Proof/Machine/Ops.lean ====
section
/-! DEFINITION. The named operations over the state: sites, regions and observers, memory bytes and marks, fault records
and rings, frames, taking a trap and returning from one. -/
namespace Sys2Proof.Machine

/-! ### Sites and their parts -/

def State.site (s : State) (n : Nat) : Site := Tbl.getD s.sites n Site.reset

def State.setSite (s : State) (n : Nat) (st : Site) : State := { s with sites := Tbl.set s.sites n st }

def State.modSite (s : State) (n : Nat) (f : Site → Site) : State := s.setSite n (f (s.site n))

def State.modSeq (s : State) (n : Nat) (f : SeqUnit → SeqUnit) : State := s.modSite n fun x => { x with seq := f x.seq }

def State.modTile (s : State) (n : Nat) (f : TileUnit → TileUnit) : State := s.modSite n fun x => { x with tile := f x.tile }

def State.modMx (s : State) (n : Nat) (f : MatrixUnit → MatrixUnit) : State := s.modSite n fun x => { x with mx := f x.mx }

def State.modPort (s : State) (n : Nat) (f : PortUnit → PortUnit) : State := s.modSite n fun x => { x with port := f x.port }

def State.modCtx (s : State) (n c : Nat) (f : CtxSlot → CtxSlot) : State :=
  s.modSite n fun x =>
    match Tbl.get? x.ctxs c with
    | some k => { x with ctxs := Tbl.set x.ctxs c (f k) }
    | none => x

def State.slot? (s : State) (n c : Nat) : Option CtxSlot := Tbl.get? (s.site n).ctxs c

def State.page? (s : State) (n c : Nat) : Option Page := (s.slot? n c).bind (·.page)

def State.act? (s : State) (n k : Nat) : Option Activation := Tbl.get? (s.site n).seq.acts k

def State.setAct (s : State) (n k : Nat) (a : Activation) : State :=
  s.modSeq n fun q => { q with acts := Tbl.set q.acts k a }

/-- A context's %seed, %exc and generators at a site after reset (R57, R169). -/
def CtxRegs.reset (n : Nat) : CtxRegs :=
  let v : Word := BitVec.ofNat 64 n
  { seed := v, exc := 0, gseq := genSeed v, gvec := genSeed (v ^^^ 0x5555555555555555),
    gmat := genSeed (v ^^^ 0xAAAAAAAAAAAAAAAA) }

def State.cregs (s : State) (n c : Nat) : CtxRegs := Tbl.getD (s.site n).cregs c (CtxRegs.reset n)

def State.modCregs (s : State) (n c : Nat) (f : CtxRegs → CtxRegs) : State :=
  s.modSite n fun x => { x with cregs := Tbl.set x.cregs c (f (s.cregs n c)) }

/-- The next free value's index. -/
def State.bumpFree (s : State) : State := { s with free := s.free + 1 }

/-- A commit number: the next one, and the state with it given out. -/
def State.takeSeq (s : State) : Nat × State := (s.seq, { s with seq := s.seq + 1 })

/-- Add one to event counter `e` of site `n` (R418). -/
def State.count (s : State) (n e : Nat) : State :=
  s.modSite n fun x => { x with obs := { x.obs with ev := Tbl.set x.obs.ev e (Tbl.getD x.obs.ev e 0 + 1) } }

/-- The 16-bit generation of an ASID (R91). -/
def State.gen (s : State) (asid : Nat) : BitVec 16 := Tbl.getD s.pager.gens asid 0

def State.asidOf (s : State) (n c : Nat) : Nat := match s.slot? n c with | some k => k.asid | none => 0

/-! ### Geometry (R7 to R10, R74) -/

def isSystemSite (n : Nat) : Bool := 2048 ≤ n

/-- Column and row of a site: on the global mesh, or on its I/O die's 4 × 4 mesh. -/
def siteX (n : Nat) : Nat := if n < 2048 then n / 256 % 4 * 16 + n % 16 else (n - 2048) % 4

def siteY (n : Nat) : Nat := if n < 2048 then n / 1024 * 16 + n / 16 % 16 else (n - 2048) % 16 / 4

/-- The die of a site: 0 to 7 compute, 8 and 9 the I/O dies. -/
def dieOf (n : Nat) : Nat := if n < 2048 then n / 256 else 8 + (n - 2048) / 16

/-- %clk of a site (R57). -/
def State.clkAt (s : State) (n : Nat) : Nat := s.clk - Tbl.getD s.pkg.dieClk (dieOf n) 0

/-- The site at (x, y) of the global mesh (R8). -/
def computeSite (x y : Nat) : Nat := (y / 16 * 4 + x / 16) * 256 + y % 16 * 16 + x % 16

/-- The site at (x, y) of the mesh that `near` lies on. -/
def siteNear (near x y : Nat) : Nat :=
  if near < 2048 then computeSite x y else 2048 + (near - 2048) / 16 * 16 + y * 4 + x

/-- The site that an entry's DX and DY name in a region placed at `near` (R9, R10). -/
def CtxSlot.siteOf (k : CtxSlot) (near dx dy : Nat) : Nat := siteNear near (k.bx + dx) (k.by_ + dy)

/-- The sites of a region in row-major order (R287). -/
def regionSites (near bx by_ w h : Nat) : List Nat :=
  (List.range h).flatMap fun y => (List.range w).map fun x => siteNear near (bx + x) (by_ + y)

/-- Is site `y` one of the sites of a scope, seen from its issuer (R74)? Scope 0 holds an activation and no site. -/
def Observers.has (o : Observers) (y : Nat) : Bool :=
  match o.scope with
  | 0 => false
  | 1 => o.site == y
  | 2 => dieOf o.site / 8 == dieOf y / 8 && (o.site < 2048 || dieOf o.site == dieOf y) &&
         siteX o.site / 2 == siteX y / 2 && siteY o.site / 2 == siteY y / 2
  | 3 => o.w == 0 || ((o.site < 2048) == (y < 2048) && (o.site < 2048 || dieOf o.site == dieOf y) &&
         o.bx ≤ siteX y && siteX y < o.bx + o.w && o.by_ ≤ siteY y && siteY y < o.by_ + o.h)
  | 4 => dieOf o.site == dieOf y
  | _ => true

/-- Do the observers hold the maker of an access (R74)? -/
def Observers.sees (o : Observers) (g : Agent) : Bool := if o.scope = 0 then o.site == g.site && o.act == g.act else o.has g.site

/-! ### Physical memory (R210, R382) -/

/-- The target types of the physical map. -/
inductive Target where
  | hbm | weight | tile | regs | headgate | host | cellar | nowhere
  deriving DecidableEq, Repr

/-- The target of a physical address (R210). -/
def paTarget (pa : Nat) : Target :=
  if pa < 0x8000000000 then .hbm
  else if pa < 0x8400000000 then .weight
  else if 0xC000000000 ≤ pa ∧ pa < 0xC104000000 then .tile
  else if 0xE000000000 ≤ pa ∧ pa < 0xE000820000 then .regs
  else if 0xF000000000 ≤ pa ∧ pa < 0xF000100000 then .headgate
  else if 0x10000000000 ≤ pa ∧ pa < 0x20000000000 then .host
  else if 0x20000000000 ≤ pa ∧ pa < 0x20100000000 then .cellar
  else .nowhere

/-- The base of a site's tile store (R210). -/
def tileBase (n : Nat) : Nat := 0xC000000000 + n * 2 ^ 21

/-- The two storage addresses of a cellar byte: primary and secondary mirror (R382). -/
def cellarPrimary (r : RecState) (pa : Nat) : Nat :=
  let k := (pa - 0x20000000000) / 2 ^ 21
  k % 8 * 2 ^ 36 + (r.celBase + k / 8) * 2 ^ 21 + pa % 2 ^ 21

def cellarSecondary (r : RecState) (pa : Nat) : Nat :=
  let k := (pa - 0x20000000000) / 2 ^ 21
  (k + 4) % 8 * 2 ^ 36 + (r.celBase + r.nreg / 8 + k / 8) * 2 ^ 21 + pa % 2 ^ 21

/-- Does an HBM address lie in the range that its stack gives the cellar (R382)? -/
def inCellarRange (r : RecState) (pa : Nat) : Bool :=
  decide (r.celBase * 2 ^ 21 ≤ pa % 2 ^ 36 ∧ pa % 2 ^ 36 < r.celBase * 2 ^ 21 + r.nreg * 2 ^ 19)

/-- The bank that holds granule `g` of a site's tile store: consecutive granules of a group's range lie in consecutive banks (R174). -/
def TileUnit.bankOf (u : TileUnit) (g : Nat) : Nat :=
  let b := g / 256
  let n := 2 ^ (u.banks.getD b Bank.reset).grp
  let b0 := b / n * n
  b0 + (g - 256 * b0) % n

/-- The pseudo-channel of an HBM address (R211). -/
def pseudoChannel (pa : Nat) : Nat := pa / 2 ^ 36 * 256 + ((pa / 2 ^ 11 % 256) ^^^ (pa / 2 ^ 19 % 256))

/-- The ordering point of an address of a device's map: a pseudo-channel, a weight-store bank, a tile-store bank, the host's queue; of a
cellar line, the pseudo-channel of its primary mirror (R67). -/
def pointOf (r : RecState) (bank : Nat → Nat → Nat) (pa : Nat) : Nat × Nat :=
  match paTarget pa with
  | .hbm => (0, pseudoChannel pa)
  | .weight => (1, pa / 2 ^ 27)
  | .tile => let n := (pa - 0xC000000000) / 2 ^ 21; (2, n * 8 + bank n (pa % 2 ^ 21 / 1024))
  | .host => (3, 0)
  | .cellar => (0, pseudoChannel (cellarPrimary r pa))
  | _ => (6, pa / 2 ^ 12)

/-- The ordering point of an address of this device. -/
def State.orderPoint (s : State) (pa : Nat) : Nat × Nat := pointOf s.rcv (fun n g => (s.site n).tile.bankOf g) pa

/-- The ordering point of an address of a peer, whose bank groups and cellar base this device does not know: as after reset (log entry
111). -/
def peerPoint (pa : Nat) : Nat × Nat := pointOf RecState.reset (fun _ g => g / 256) pa

/-- What a byte's cell is combined with: zero, but for a weight-store bank whose contents are undefined (R364). -/
def MemState.haze (m : MemState) (a : Nat) : Byte :=
  if m.wild.isEmpty || paTarget a != .weight then 0
  else match Tbl.get? m.wild ((a - 0x8000000000) / 2 ^ 27) with
    | some k => Config.wsUndefined k a
    | none => 0

/-- The byte of storage at an address: an address with no entry holds 0 (R438). -/
def MemState.byte (m : MemState) (a : Nat) : Byte := Tbl.getD m.cells a 0 ^^^ m.haze a

/-- Store one byte, keeping the canonical form: rising addresses, no zero byte. -/
def MemState.setByte (m : MemState) (a : Nat) (v : Byte) : MemState := { m with cells := Tbl.put m.cells a (v ^^^ m.haze a) 0 }

/-- Storage bytes from `a`. -/
def MemState.bytes (m : MemState) (a n : Nat) : List Byte := (List.range n).map fun i => m.byte (a + i)

def MemState.setBytes (m : MemState) (a : Nat) (l : List Byte) : MemState :=
  match l with
  | [] => m
  | b :: r => (m.setByte a b).setBytes (a + 1) r

/-- The aligned 8 B unit at unit number `u`, little-endian (R2). -/
def MemState.unit (m : MemState) (u : Nat) : Word := BitVec.ofNat 64 (ofBytes (m.bytes (u * 8) 8))

/-- The canonical form of memory: addresses strictly rising, and no entry equal to what an unlisted address reads as. -/
def risingCells (l : List Host.Cell) : Bool :=
  match l with
  | [] => true
  | [(_, v)] => v != 0
  | (a, v) :: (b, w) :: r => v != 0 && decide (a < b) && risingCells ((b, w) :: r)

def MemState.wf (m : MemState) : Bool := risingCells m.cells && risingCells m.host

/-! ### Writes and reads with the paths and scopes they belong to (R66, R75, R84) -/

def pathBit (p : Nat) : BitVec 8 := BitVec.ofNat 8 (2 ^ p)

/-- The paths whose accesses R70 to R73 order with those of path `p`: its own, and at one site VEC and MAT. -/
def ownPaths (p : Nat) : BitVec 8 := if p = 1 ∨ p = 2 then 6 else pathBit p

/-- Two MEM accesses of one context at one site. -/
def Agent.sameCtx (a g : Agent) : Bool :=
  a.path == 3 && g.path == 3 && a.site == g.site && a.ctx == g.ctx && a.asid == g.asid

/-- Is an access with these observers ordered before `g`, for `g`: by alias class (R71), by class 0 (R72), by the tile interlock (R70), by
its completion token on one path (R73), by an acquire (R78), or because an engine's read `g` sees every performed write of its path (log entry 24)? -/
def Agent.precedes (a : Agent) (obs : List Observers) (g : Agent) : Bool :=
  (a.sameCtx g && decide (a.seq < g.seq) &&
    (a.cls == some 0 || g.cls == some 0 || a.acq || (a.cls.isSome && a.cls == g.cls && a.pts.any fun p => g.pts.contains p))) ||
  ((a.path == 1 || a.path == 2) && (g.path == 1 || g.path == 2) && a.site == g.site && decide (a.seq < g.seq)) ||
  (a.path == g.path && (g.strong || g.deps.contains a.seq) && obs.any fun o => o.sees g)

/-- Does the entry name `g`? The number of an implied fence is that of the request behind it (R347, R369). -/
def Follow.binds (f : Follow) (g : Agent) : Bool :=
  f.paths.getLsbD g.path && f.obs.sees g &&
  (g.deps.contains f.seq ||
   (f.site == g.site && f.ctx == g.ctx && f.asid == g.asid && (decide (f.seq < g.seq) || (!f.sync && f.seq == g.seq))))

/-- Is the write ordered before `g` (R70 to R73, R78, R81, R83)? -/
def WriteRec.mustSee (w : WriteRec) (g : Agent) : Bool :=
  w.who.precedes w.obs g || w.follows.any (fun f => f.binds g) ||
  w.after.any (fun a => a.precedes [a.obs] g) ||
  w.saw.any fun a => a.path == g.path && a.site == g.site && a.precedes [a.obs] g

/-- What later orderings need of the maker of an access. -/
def Agent.stamp (g : Agent) : Agent := { g with deps := [] }

/-- The units that `n` bytes from `a` touch. -/
def unitsOf (a n : Nat) : List Nat := if n = 0 then [] else (List.range ((a + n - 1) / 8 - a / 8 + 1)).map (a / 8 + ·)

/-- The bytes of unit `u` among `n` bytes from `a`. -/
def unitMask (a n u : Nat) : BitVec 8 :=
  BitVec.ofNat 8 ((List.range 8).foldl (fun m i => m + (if a ≤ u * 8 + i ∧ u * 8 + i < a + n then 2 ^ i else 0)) 0)

/-- Record, for each unit about to change, the write and the contents before it (R75). `now`: commit numbers given out. The contents stand
at `src`, which is `a` but for a cellar line that its secondary serves. -/
def MemState.note (m : MemState) (g : Agent) (now a n : Nat) (src : Nat := a) : MemState :=
  let new := (unitsOf a n).map fun u =>
    ({ unit := u, mask := unitMask a n u, old := m.unit (u - a / 8 + src / 8), who := g.stamp, perf := now, obs := [g.obs], saw := [], after := [],
       follows := [], fences := [] } : WriteRec)
  { m with recs := new.reverse ++ m.recs }

/-- A whole write mends the marks of the lines and units that it covers; a part write leaves an uncorrectable one and
mends a correctable one (R173, R211). -/
def mendMarks (size : Nat) (t : Tbl Mark) (a n : Nat) : Tbl Mark :=
  t.filter fun p =>
    let lo := p.1 * size
    if decide (a ≤ lo ∧ lo + size ≤ a + n) then false
    else if decide (lo < a + n ∧ a < lo + size) then p.2 != .correctable
    else true

/-- Bytes reach storage: their lines and units are mended (R173, R211). -/
def MemState.store (m : MemState) (a : Nat) (l : List Byte) : MemState :=
  let m := m.setBytes a l
  { m with lines := mendMarks 64 m.lines a l.length, units := mendMarks 8 m.units a l.length }

/-- A write that performs at its ordering point. -/
def MemState.write (m : MemState) (g : Agent) (now a : Nat) (l : List Byte) : MemState := (m.note g now a l.length).store a l

/-- A write by `g` that performs now. -/
def State.writeMem (s : State) (g : Agent) (a : Nat) (l : List Byte) : State := { s with mem := s.mem.write g s.seq a l }

/-- The contents that R84 allows a read of the bytes `m` of unit `u` beside the newest: those before each write, newest first, up to the
first write of those bytes that is ordered before the read. `recs` holds the newest write first. -/
def staleValues (recs : List WriteRec) (u : Nat) (m : BitVec 8) (g : Agent) : List Word :=
  match recs with
  | [] => []
  | w :: r =>
    if w.unit = u then (if w.mask &&& m ≠ 0 ∧ w.mustSee g then [] else w.old :: staleValues r u m g) else staleValues r u m g

/-- The read has returned the unit as it stood before its `k` newest writes: it is noted at the writes whose bytes among `m` it returned
(R83). -/
def sawUnit (recs : List WriteRec) (u k : Nat) (m : BitVec 8) (g : Agent) : List WriteRec :=
  match recs with
  | [] => []
  | w :: r =>
    if w.unit ≠ u then w :: sawUnit r u k m g
    else if k ≠ 0 then w :: sawUnit r u (k - 1) m g
    else (if w.mask &&& m ≠ 0 then { w with saw := g.stamp :: w.saw } else w) :: sawUnit r u 0 (m &&& ~~~w.mask) g

/-- The mark that a read of a unit meets: its own in a tile store, its line's elsewhere, or the armed injection (R173, R211,
R430). -/
def MemState.markOf (m : MemState) (u : Nat) : Option Mark :=
  let tile := paTarget (u * 8) == .tile
  let own := if tile then Tbl.get? m.units u else Tbl.get? m.lines (u / 8)
  match own, m.inj with
  | some .uncorrectable, _ => some .uncorrectable
  | some .poison, _ => some .poison
  | _, some (a, k) => if (if tile then a / 8 == u else a / 64 == u / 8) then some k else own
  | _, none => own

/-- Is a unit damaged: an uncorrectable error or a poison marker (R173, R211)? -/
def MemState.damaged (m : MemState) (u : Nat) : Bool :=
  match m.markOf u with
  | some k => k != .correctable
  | none => false

/-- Does the range read as uncorrectable? -/
def MemState.bad (m : MemState) (a n : Nat) : Bool := (unitsOf a n).any m.damaged

/-- Read the bytes `m` of one unit: the only value R84 allows, or one of several by a free choice; a free value where the unit is
damaged. The newest contents stand at unit `src`. -/
def State.readUnit (s : State) (g : Agent) (m : BitVec 8) (u : Nat) (src : Nat := u) : Word × State :=
  let now := if s.mem.damaged src then Config.damaged s.free src else s.mem.unit src
  let old := staleValues s.mem.recs u m g
  let k := if old.isEmpty then 0 else Config.readChoice s.free u % (old.length + 1)
  let s := if old.isEmpty then s else s.bumpFree
  (if k = 0 then now else old.getD (k - 1) now, { s with mem := { s.mem with recs := sawUnit s.mem.recs u k m g } })

/-- Read the units of `n` bytes from `a` in turn, whose newest contents stand from `b` on. -/
def State.readUnits (s : State) (g : Agent) (a n b : Nat) (us : List Nat) : List Word × State :=
  match us with
  | [] => ([], s)
  | u :: r =>
    let (v, s) := s.readUnit g (unitMask a n u) u (u - a / 8 + b / 8)
    let (vs, s) := s.readUnits g a n b r
    (v :: vs, s)

/-- What a read of these units leaves behind: their correctable errors corrected and counted, TILE_CE at the tile's site and HBM_CE
at the controller's, and an injection that it met disarmed (R173, R211, R418, R430). -/
def State.settleUnits (s : State) (us : List Nat) : State :=
  let fixed := us.filter fun u => s.mem.markOf u == some .correctable
  let site (u : Nat) : Option (Nat × Nat) :=
    match paTarget (u * 8) with
    | .tile => some ((u * 8 - 0xC000000000) / 2 ^ 21, 4)
    | .hbm => some (u * 8 / 2 ^ 36 * 256 + 128, 5)
    | _ => none
  let keys := (fixed.map fun u => if paTarget (u * 8) = .tile then u else u / 8 * 8).eraseDups
  let met : Bool := match s.mem.inj with
    | some (b, _) => us.any fun u => if paTarget b = .tile then b / 8 == u else b / 64 == u / 8
    | none => false
  let s := { s with mem := { s.mem with
      units := s.mem.units.filter fun p => !(p.2 == .correctable && fixed.contains p.1)
      lines := s.mem.lines.filter fun p => !(p.2 == .correctable && keys.contains (p.1 * 8))
      inj := if met then none else s.mem.inj } }
  keys.foldl (fun s u => match site u with | some (k, e) => s.count k e | none => s) s

/-- What a read of `n` bytes from `a` leaves behind. -/
def State.settle (s : State) (a n : Nat) : State := s.settleUnits (unitsOf a n)

/-- `n` bytes from storage address `a`, each unit single-copy atomic (R66); their newest contents stand from `b` on. -/
def State.readBytes (s : State) (g : Agent) (a n : Nat) (b : Nat := a) : List Byte × State :=
  let (vs, s) := s.readUnits g a n b (unitsOf a n)
  (slice (vs.flatMap fun v => toBytes v.toNat 8) (a % 8) n, s.settle b n)

/-- Later accesses that `e` names must see the write. -/
def WriteRec.add (w : WriteRec) (e : Option Follow) : WriteRec :=
  match e with
  | some e => { w with follows := e :: w.follows }
  | none => w

/-- Change the records of performed writes. -/
def State.mapRecs (s : State) (f : WriteRec → WriteRec) : State := { s with mem := { s.mem with recs := s.mem.recs.map f } }

/-- Later accesses that `f` names must see a write: those that `f` answers for it (R78, R81). -/
def State.follow (s : State) (f : WriteRec → Option Follow) : State := s.mapRecs fun w => w.add (f w)

/-- Observers of the whole device, for an agent of site `n` that acts for no launch (R74). -/
def deviceWide (n : Nat) : Observers := { scope := 5, site := n, bx := 0, by_ := 0, w := 0, h := 0 }

/-- The pager's and the coordinator's own accesses: MEM accesses in context 7 through a port (R12), device scope, each ordered after
those before it (log entry 24). -/
def sysAgent (n seq : Nat) : Agent :=
  { path := 3, site := n, ctx := 7, seq := seq, obs := deviceWide n, strong := true }

def State.sysWrite (s : State) (n a : Nat) (l : List Byte) : State :=
  let (q, s) := s.takeSeq
  s.writeMem (sysAgent n q) a l

def State.sysRead (s : State) (n a len : Nat) : List Byte × State :=
  let (q, s) := s.takeSeq
  s.readBytes (sysAgent n q) a len

/-- A little-endian field that a system engine reads. -/
def State.sysField (s : State) (n a len : Nat) : Nat × State :=
  let (l, s) := s.sysRead n a len
  (ofBytes l, s)

/-! ### Fault records (R46, R288) -/

/-- The coordinator's site (R290). -/
def coordSite : Nat := 2048

/-- What a fault record names beside its code (R46). -/
structure FaultInfo where
  code : Nat
  named : Bool
  who : Who
  va : Nat
  handle : Nat
  pmask : Word
  detail : Word
  deriving DecidableEq, Repr

def FaultInfo.bytes (f : FaultInfo) (lost : Bool) (seq : Nat) (time : Word) : List Byte :=
  toBytes f.code 2 ++ toBytes (f.code / 256) 1 ++ toBytes (1 + (if f.named then 2 else 0) + (if lost then 4 else 0)) 1 ++
  toBytes (f.who.site + f.who.ctx * 2 ^ 12) 2 ++ toBytes f.who.ip.toNat 2 ++ toBytes f.who.itn.toNat 2 ++ toBytes 0 2 ++
  toBytes f.who.fp.toNat 4 ++ toBytes (f.va % 2 ^ 56) 8 ++ toBytes f.handle 4 ++ toBytes seq 4 ++ toBytes f.pmask.toNat 8 ++
  toBytes time.toNat 8 ++ toBytes f.detail.toNat 8 ++ toBytes f.who.hdr.toNat 8

/-- The key under which context 7's own binding is kept beside those of the 4,096 ASIDs. -/
def sysRing : Nat := 4096

/-- The ring that a fault of a context goes to: the ASID's, or context 7's, which RP_SYSCD names (R288). -/
def ringKey (ctx asid : Nat) : Nat := if ctx = 7 then sysRing else asid

/-- The context descriptor bound to an ASID (R287), or the one that RP_SYSCD names (R288). -/
def State.binding? (s : State) (key : Nat) : Option Binding :=
  if key = sysRing then
    let b := Tbl.getD s.pager.binds sysRing { pa := 0, seq := 0, lost := false }
    some { b with pa := s.pager.sysCd }
  else Tbl.get? s.pager.binds key

/-- A field of the context descriptor that a binding names (R287). -/
def State.cdField (s : State) (key off len : Nat) : Nat :=
  match s.binding? key with
  | some b => field b.desc off len
  | none => 0

/-- A descriptor as the pager reads it to bind it. -/
def State.readDesc (s : State) (pa : Nat) : List Byte × State := s.sysRead coordSite pa 64

/-- RP_SYSCD names context 7's descriptor, which is read then (R288, log entry 112); another one starts a new ring. -/
def State.bindSys (s : State) (pa : Nat) : State :=
  let (d, s) := s.readDesc pa
  let old := Tbl.getD s.pager.binds sysRing { pa := 0, seq := 0, lost := false }
  let same := s.pager.sysCd == pa
  { s with pager := { s.pager with
      sysCd := pa
      binds := Tbl.set s.pager.binds sysRing { pa := pa, seq := if same then old.seq else 0, lost := same && old.lost, desc := d } } }

/-- Write a fault record to the ring under `asid` (R288): dropped and remembered when the ring is full. With no descriptor
bound there is no ring and nothing is written (log entry 11). Answers the record's SEQ. -/
def State.record (s : State) (asid : Nat) (f : FaultInfo) : Nat × State :=
  match s.binding? asid with
  | none => (0, s)
  | some b =>
    let base := field b.desc 0x10 8
    let len := 2 ^ (field b.desc 2 2 % 64)
    let (prod, s) := s.sysField coordSite base 8
    let (cons, s) := s.sysField coordSite (base + 8) 8
    if (prod + 2 ^ 64 - cons) % 2 ^ 64 = len then
      (b.seq.toNat, { s with pager := { s.pager with binds := Tbl.set s.pager.binds asid { b with lost := true } } })
    else
      let s := s.sysWrite coordSite (base + 64 * (1 + b.seq.toNat % len)) (f.bytes b.lost b.seq.toNat s.obs.time)
      let s := s.sysWrite coordSite base (toBytes (prod + 1) 8)
      (b.seq.toNat,
       { s with pager := { s.pager with binds := Tbl.set s.pager.binds asid { b with seq := b.seq + 1, lost := false } } })

/-- A logged fault that names no token (R125). -/
def State.logFault (s : State) (w : Who) (code : Nat) (detail : Nat) : State :=
  let f : FaultInfo :=
    { code := code, named := false, who := { w with hdr := 0, ip := 0, itn := 0, fp := 0 },
      va := 0, handle := 0, pmask := 0, detail := BitVec.ofNat 64 detail }
  (s.record (ringKey w.ctx w.asid) f).2

/-- A logged fault of the memory port, which names the responsible token (R46, R225). -/
def State.logPort (s : State) (w : Who) (code detail va handle : Nat) (pmask : Word) : State :=
  let f : FaultInfo :=
    { code := code, named := true, who := w, va := va % 2 ^ 56, handle := handle, pmask := pmask, detail := BitVec.ofNat 64 detail }
  (s.record (ringKey w.ctx w.asid) f).2

/-- A site of a context's launch has met an error that fails a replica (R366). -/
def State.hurt (s : State) (n c : Nat) : State :=
  match s.slot? n c with
  | some k => if s.xp.hurt.contains k.handle then s else { s with xp := { s.xp with hurt := s.xp.hurt ++ [k.handle] } }
  | none => s

def Who.zero : Who := { site := 0, ctx := 0, asid := 0, ip := 0, itn := 0, fp := 0, hdr := 0 }

/-! ### Tokens and entries (R34, R40) -/

def Token.hdr (t : Token) : Word :=
  fieldsWord [(62, t.cls.toNat), (61, b2n t.psn), (58, t.ctx.toNat), (52, t.dx.toNat), (46, t.dy.toNat), (35, t.ip.toNat),
    (34, b2n t.port), (17, t.fp.toNat), (1, t.itn.toNat), (0, b2n t.smp)]

def Token.ofWords (h p : Word) : Token :=
  { cls := BitVec.ofNat 2 (wbits h 62 2), psn := wbit h 61, ctx := BitVec.ofNat 3 (wbits h 58 3),
    dx := BitVec.ofNat 6 (wbits h 52 6), dy := BitVec.ofNat 6 (wbits h 46 6), ip := BitVec.ofNat 11 (wbits h 35 11),
    port := wbit h 34, fp := BitVec.ofNat 17 (wbits h 17 17), itn := BitVec.ofNat 16 (wbits h 1 16), smp := wbit h 0,
    payload := p }

/-- The fields of a target-table entry (R40). -/
structure Entry where
  dx : BitVec 6
  dy : BitVec 6
  ip : BitVec 11
  port : Bool
  ctx : BitVec 3
  remote : Bool
  link : Nat
  low : Nat
  deriving DecidableEq, Repr

def Entry.of (w : Word) : Entry :=
  { dx := BitVec.ofNat 6 (wbits w 58 6), dy := BitVec.ofNat 6 (wbits w 52 6), ip := BitVec.ofNat 11 (wbits w 41 11),
    port := wbit w 40, ctx := BitVec.ofNat 3 (wbits w 37 3), remote := wbit w 36, link := wbits w 20 16, low := wbits w 0 20 }

/-- An entry word with its port replaced. -/
def withPort (w : Word) (p : Bool) : Word :=
  BitVec.ofNat 64 (w.toNat - b2n (wbit w 40) * 2 ^ 40 + b2n p * 2 ^ 40)

/-- A token that an entry addresses. -/
def Entry.token (e : Entry) (cls : BitVec 2) (psn : Bool) (port : Bool) (fp : BitVec 17) (itn : BitVec 16) (v : Word) : Token :=
  { cls := cls, psn := psn, ctx := e.ctx, dx := e.dx, dy := e.dy, ip := e.ip, port := port, fp := fp, itn := itn, smp := false,
    payload := v }

/-- The origin of tokens that engines create (R423). -/
def engineOrigin : Origin := { site := 0xFFF, idx := 0, gen := 0 }

/-- The network of a token's class (R25). -/
def vnetOf (cls : BitVec 2) : VNet := if cls = 2 then .reply else if cls = 3 then .system else .request

/-- The requests that the system engines still hold, with the path of their accesses (R65). -/
def State.engineReqs (s : State) : List SysReq :=
  s.coll.queue ++ s.coll.groups.flatMap (fun g => g.waiting.map (·.req) ++ (match g.cur with | some o => [o.req] | none => [])) ++
  s.xp.disp ++ s.xp.other ++ (match s.xp.cur with | some d => [d.req] | none => []) ++ s.xp.waiting.map (·.req) ++
  s.rcv.queue ++ (match s.rcv.sealing with | some x => [x.req] | none => []) ++ s.rcv.roll.getD [] ++ s.rcv.owed.map (·.1)

/-- The path of a buffered effect that is an access (R65). -/
def Effect.path? (e : Effect) : Option Nat :=
  match e with
  | .tile i .. => some (if i.isVec then 1 else 2)
  | .mem .. => some 3
  | .sys i .. => i.reqPath?
  | _ => none

/-- The paths of a memory request: that of the port, and for `wsld` also that of the copy channel, which writes (R65, R212). -/
def memPaths (i : Instr) : List Nat := match i with | .wsld _ => [3, 5] | _ => [3]

/-- The path of an effect that still waits in an activation's commit, by its commit number. -/
def Activation.pathOf (a : Activation) (id : Nat) : Option Nat :=
  match a.committing with
  | some (_, next) => if id < next then none else (a.effects[id - next]?).bind (·.path?)
  | none => none

/-- The path of an access that has not performed or finished, by its commit number. -/
def State.pathOf (s : State) (id : Nat) : Option Nat :=
  if s.reqs.any (fun r => r.id == id && !r.ins.isMldw && r.answer.isNone) || s.fences.any (·.seq == id) then some 3
  else if s.sites.any (fun p => p.2.tile.queue.any (·.seq == id)) then some 1
  else if s.sites.any (fun p => p.2.mx.queue.any (·.seq == id)) then some 2
  else
    match (s.engineReqs.find? (·.seq == id)).bind (·.ins.reqPath?) with
    | some p => some p
    | none => s.sites.findSome? fun p => p.2.seq.acts.findSome? fun a => a.2.pathOf id

/-- Has the access not performed yet? -/
def State.pending (s : State) (id : Nat) : Bool := (s.pathOf id).isSome

/-- The write's own number, or that of a read that returned it, of an access ordered after it, or of what later accesses follow. -/
def WriteRec.holds (w : WriteRec) (id : Nat) : Bool :=
  w.who.seq == id || w.saw.any (·.seq == id) || w.after.any (·.seq == id) || w.follows.any (·.seq == id)

/-- The accesses of a list that still matter to an ordering: those pending, and those by which some write is seen. -/
def State.prune (s : State) (l : List Nat) : List Nat :=
  (l.filter fun id => s.pending id || s.mem.recs.any (fun w => w.holds id) || s.mem.posted.any (·.who.seq == id)).eraseDups

/-- SENT or RECV of a context at a site, one more (R302). -/
def State.countSent (s : State) (n c : Nat) : State :=
  s.modSite n fun x =>
    let k := Tbl.getD x.counts c { sent := 0, recv := 0, eos4 := 0 }
    { x with counts := Tbl.set x.counts c { k with sent := k.sent + 1 } }

def State.countRecv (s : State) (n c : Nat) (eos4 : Bool) : State :=
  s.modSite n fun x =>
    let k := Tbl.getD x.counts c { sent := 0, recv := 0, eos4 := 0 }
    { x with counts := Tbl.set x.counts c { k with recv := k.recv + 1, eos4 := k.eos4 + b2n eos4 } }

/-- Is a site inside the region of a slot held at `near`? -/
def CtxSlot.covers (k : CtxSlot) (near y : Nat) : Bool :=
  (near < 2048) == (y < 2048) && (near < 2048 || dieOf near == dieOf y) &&
  decide (k.bx ≤ siteX y ∧ siteX y < k.bx + k.w ∧ k.by_ ≤ siteY y ∧ siteY y < k.by_ + k.h)

/-- A token starts on its way: it takes the next number (R26). -/
def State.sendOff (s : State) (f : Flight) : State :=
  { s with mesh := s.mesh ++ [{ f with num := s.sent }], sent := s.sent + 1 }

/-- The binding under which the region-link table of a context is found: its ASID's, else for context 7 the one that RP_SYSCD names. -/
def State.linkKey (s : State) (c asid : Nat) : Nat := if c = 7 ∧ (s.binding? asid).isNone then sysRing else asid

/-- Entry `link` of a region-link table as a site's link cache gives it: one of its 16 entries, or what the pager reads and fills in,
in the place of the oldest fill where none is free (R297, log entry 112). An entry past the table's end is not valid. -/
def State.linkLookup (s : State) (n key link : Nat) : Word × State :=
  if s.cdField key 4 4 ≤ link then (0, s)
  else
    match (s.site n).seq.links.find? fun x => x.1 == key && x.2.1 == link with
    | some x => (x.2.2, s)
    | none =>
      let (v, s) := s.sysField coordSite (s.cdField key 0x18 8 + 8 * link) 8
      let e : Word := BitVec.ofNat 64 v
      (e, s.modSeq n fun q => { q with links := q.links.drop (q.links.length + 1 - 16) ++ [(key, link, e)] })

/-- A token starts on its way to the linked launch (R297). -/
def State.sendLink (s : State) (f : LinkFlight) : State :=
  let (e, s) := s.linkLookup f.src (s.linkKey f.sctx f.asid) f.link
  { s with pager := { s.pager with links := s.pager.links ++ [{ f with num := s.sent, entry := e }] }, sent := s.sent + 1 }

/-- Put a token on the mesh, counted as sent at its source, or at its destination when the source lies outside the region
(R302, log entry 12). -/
def State.putMesh (s : State) (k : CtxSlot) (f : Flight) : State :=
  (s.countSent (if k.covers f.dst f.src then f.src else f.dst) f.tok.ctx.toNat).sendOff f

/-- The region that holds context `c` at site `n` for an ASID: its context slot there, or, while the launch is away, where the
launch table places it (R286). -/
def State.region? (s : State) (n c asid : Nat) : Option CtxSlot :=
  match s.slot? n c with
  | some k => some k
  | none =>
    s.pager.launches.findSome? fun p =>
      let l := p.2
      let at_ (b : Nat × Nat × Nat) : Option CtxSlot :=
        let k : CtxSlot := { asid := l.asid, handle := p.1, bx := b.1, by_ := b.2.1, w := l.w, h := l.h, page := none, held := false,
                             frozen := false, csw := false, captured := [], stopped := [] }
        if k.covers n n && (!l.sys || dieOf n == 8 + b.2.2) then some k else none
      if l.ctx = c ∧ l.asid = asid ∧ l.sys = isSystemSite n then
        match at_ (l.bx, l.by_, l.io) with
        | some k => some k
        | none => l.twin.bind at_
      else none

/-- The observers of scope `sc` for context `c` of an ASID at site `n`: its region is that of the slot, or the one in which the launch
table places a launch that is away (R74). `act` is the first commit number of the issuing activation. -/
def State.observers (s : State) (n c asid sc : Nat) (act : Nat := 0) : Observers :=
  match s.region? n c asid with
  | some k => { scope := sc, site := n, bx := k.bx, by_ := k.by_, w := k.w, h := k.h, act := act }
  | none => { scope := sc, site := n, bx := 0, by_ := 0, w := 0, h := 0, act := act }

/-- Put a token on the mesh for the site that its entry names in the region of its context at site `near`, or hand it to the
region-link table (R297). An entry that names no site delivers nothing (R10). -/
def State.launchFrom (s : State) (src near : Nat) (t : Token) (remote : Bool) (link : Nat) (org : Origin) (deps : List Nat)
    (asid gen : Nat) : State :=
  if remote then
    s.sendLink { tok := t, link := link, src := near, sctx := t.ctx.toNat, asid := asid, org := org, deps := deps }
  else
    match s.region? near t.ctx.toNat asid with
    | none => s
    | some k =>
      if k.w ≤ t.dx.toNat ∨ k.h ≤ t.dy.toNat then s
      else
        s.putMesh k { tok := t, src := src, dst := k.siteOf near t.dx.toNat t.dy.toNat, vn := vnetOf t.cls, org := org, deps := deps,
                      asid := asid, gen := gen, step := false }

/-- A token that a site sends. -/
def State.launchToken (s : State) (src : Nat) (t : Token) (remote : Bool) (link : Nat) (org : Origin) (deps : List Nat)
    (asid gen : Nat) : State := s.launchFrom src src t remote link org deps asid gen

/-- An engine's reply-class token, sent at site `src` for a request of site `near`: reply or completion (R187, R221). The ASID and
generation of the request travel with it (R91). -/
def State.replyFrom (s : State) (src near : Nat) (r : Option Reply) (v : Word) (psn : Bool) (deps : List Nat) (asid gen : Nat) :
    State :=
  match r with
  | none => s
  | some r =>
    let e := Entry.of r.entry
    s.launchFrom src near (e.token 2 psn e.port r.fp r.itn v) e.remote e.link engineOrigin (s.prune deps) asid gen

/-! ### Frames (R94 to R102) -/

def frameKey (n slot : Nat) : Nat := n * 131072 + slot

def State.fslot (s : State) (n slot : Nat) : Slot := Tbl.getD s.mem.frames (frameKey n slot) Slot.empty

def State.setFslot (s : State) (n slot : Nat) (v : Slot) : State :=
  { s with mem := { s.mem with frames := Tbl.put s.mem.frames (frameKey n slot) v Slot.empty } }

/-- Empty `cnt` slots from `slot`. -/
def State.clearSlots (s : State) (n slot cnt : Nat) : State :=
  { s with mem := { s.mem with
      frames := s.mem.frames.filter fun p => !decide (frameKey n slot ≤ p.1 ∧ p.1 < frameKey n slot + cnt) } }

/-- The number of slots of a size class (R98). -/
def classSlots (c : Nat) : Nat := 8 * 2 ^ c

/-- The frame whose base is `fp`, if one is allocated there. -/
def State.frame? (s : State) (n fp : Nat) : Option FrameRec := Tbl.get? (s.site n).seq.frames fp

/-- R99: none when context `c` may reach the slots `off` to `off + cnt - 1` of the frame at `fp`; else the reason of
0x0107. -/
def State.frameCheck (s : State) (n c fp off cnt : Nat) : Option Nat :=
  match s.frame? n fp with
  | none => some 0
  | some f => if c ≠ 7 ∧ f.owner ≠ c then some 1 else if classSlots f.cls < off + cnt then some 2 else none

/-- DETAIL of 0x0107 (R125). -/
def badFrame (fp off reason : Nat) : Nat := fp % 2 ^ 17 + off % 256 * 2 ^ 17 + reason * 2 ^ 25

/-- Is the aligned run of slots outside every allocated frame, every frame of a reserve, and the system reserve? -/
def SeqUnit.runFree (q : SeqUnit) (base size : Nat) : Bool :=
  decide (128 ≤ base) &&
  !(q.frames.any fun p => decide (p.1 < base + size ∧ base < p.1 + classSlots p.2.cls)) &&
  !(q.reserved.any fun p => decide (p.1 < base + size ∧ base < p.1 + classSlots p.2.cls))

/-- The lowest free run of the class in the pool, looking at `fuel` places: a run can only be missed when as many frames
are taken, so the number of frames and reserve frames, plus the system reserve, bounds the search. -/
def SeqUnit.findRun (q : SeqUnit) (size base fuel : Nat) : Option Nat :=
  match fuel with
  | 0 => none
  | fuel + 1 =>
    if 131072 < base + size then none
    else if q.runFree base size then some base
    else SeqUnit.findRun q size (base + size) fuel

/-- The pool frame that is handed out: the lowest (log entry 100). -/
def SeqUnit.poolFrame (q : SeqUnit) (cls : Nat) : Option Nat :=
  let size := classSlots cls
  let used := q.frames.foldl (fun a p => a + ceilDiv (classSlots p.2.cls) size + 1) 0 +
              q.reserved.foldl (fun a p => a + ceilDiv (classSlots p.2.cls) size + 1) 0
  q.findRun size 0 (used + 128 / size + 2)

/-- The free frame of a reserve level of a context's page that is handed out: its lowest one (log entry 100). -/
def SeqUnit.reserveFrame (q : SeqUnit) (ctx level cls : Nat) : Option Nat :=
  match q.reserved.filter fun p => p.2.ctx == ctx && p.2.level == level && p.2.cls == cls with
  | [] => none
  | p :: _ => some p.1

/-- Hand out a frame under R100, steps 1 and 2: every slot cleared (R98). -/
def State.grantFrame (s : State) (n ctx cls level : Nat) (useRes : Bool) : Option (Nat × State) :=
  let q := (s.site n).seq
  let take (fp : Nat) (o : FrameOrigin) (rsv : Tbl ReserveFrame) : Option (Nat × State) :=
    let s := s.modSeq n fun q => { q with frames := Tbl.set q.frames fp { cls := cls, owner := ctx, origin := o }, reserved := rsv }
    some (fp, s.clearSlots n fp (classSlots cls))
  match (if useRes then q.reserveFrame ctx level cls else none) with
  | some fp => take fp (.reserve ctx level) (Tbl.erase q.reserved fp)
  | none =>
    match q.poolFrame cls with
    | some fp => take fp .pool q.reserved
    | none => none

/-- The lowest free frame of the system reserve (R95). -/
def SeqUnit.systemFrame (q : SeqUnit) : Option Nat :=
  ((List.range 16).map (· * 8)).find? fun fp => !Tbl.has q.frames fp

def State.takeSystemFrame (s : State) (n fp : Nat) (o : FrameOrigin) : State :=
  let s := s.modSeq n fun q => { q with frames := Tbl.set q.frames fp { cls := 0, owner := 7, origin := o } }
  s.clearSlots n fp 8

/-- Parked operands in a frame. -/
def State.parked (s : State) (n fp cls : Nat) : Nat :=
  ((List.range (classSlots cls)).filter fun i => (s.fslot n (fp + i)).pres).length

/-- Return a frame to its origin (R100, R102): parked operands go, and a reserve frame goes back to its reserve. -/
def State.returnFrame (s : State) (n fp : Nat) : State :=
  match s.frame? n fp with
  | none => s
  | some f =>
    let lo := frameKey n fp
    let s := { s with mem := { s.mem with
        frames := (s.mem.frames.map fun (p : Nat × Slot) =>
          if lo ≤ p.1 ∧ p.1 < lo + classSlots f.cls then (p.1, { p.2 with pres := false }) else p).filter (·.2 ≠ Slot.empty) } }
    s.modSeq n fun q =>
      { q with
        frames := Tbl.erase q.frames fp
        reserved := match f.origin with
          | .reserve c l => Tbl.set q.reserved fp { ctx := c, level := l, cls := f.cls }
          | _ => q.reserved
        parkedDeps := q.parkedDeps.filter fun p => !decide (fp ≤ p.1 ∧ p.1 < fp + classSlots f.cls) }

/-! ### Claims (R107) -/

def State.claimed (s : State) (n slot : Nat) : Bool :=
  (s.site n).seq.acts.any (fun p => p.2.claim == some slot) || (s.site n).seq.fireQ.any (fun f => f.claim == some slot)

/-- The claim of a slot ends: held tokens for it are presented again. -/
def State.endClaim (s : State) (n slot : Nat) : State :=
  let s := if slot ∈ (s.site n).seq.clearing then s.setFslot n slot Slot.empty else s
  s.modSeq n fun q => { q with released := q.released ++ [slot], clearing := q.clearing.filter (· ≠ slot) }

/-! ### Taking a trap (R17, R120 to R122) -/

/-- The trap queue has room (R120). -/
def SeqUnit.trapRoom (q : SeqUnit) : Bool := decide (q.trapQ.length < 16)

/-- What a trap reports: code, DETAIL, virtual address, handle. -/
structure Trap where
  code : Nat
  detail : Word
  va : Nat := 0
  handle : Nat := 0
  deriving DecidableEq, Repr

def illegal (w : Word) : Trap := { code := 0x0101, detail := w }
def privilege (w : Word) : Trap := { code := 0x0102, detail := w }

def Activation.who (a : Activation) (n asid : Nat) : Who :=
  { site := n, ctx := a.ctx, asid := asid, ip := a.ip, itn := a.tok.itn, fp := a.fp, hdr := a.tok.hdr }

/-- The fault record of a trap, naming a token (R120 step 2). -/
def State.trapRecord (s : State) (w : Who) (t : Trap) : Nat × State :=
  let f : FaultInfo :=
    { code := t.code, named := true, who := w, va := t.va, handle := t.handle, pmask := 0, detail := t.detail }
  s.record (ringKey w.ctx w.asid) f

/-- Slot 4 of a trap frame (R121). -/
def trapStatus (code slot ip : Nat) (arrival restored : Bool) (seq : Nat) : Word :=
  fieldsWord [(0, code % 2 ^ 16), (16, slot % 8), (19, ip % 2 ^ 11), (30, b2n arrival), (31, b2n restored), (32, seq % 2 ^ 16)]

/-- TAKE A TRAP raised by the activation in slot `k` of site `n` (R120 steps 1 to 3): its effects are discarded, its
operands stand again in their slot, the record is written and the trap queued. A trap of an activation that a trap token
fired is a double trap: it halts the site (R122). -/
def State.takeTrap (s : State) (n k : Nat) (a : Activation) (t : Trap) : State :=
  let w := a.who n (s.asidOf n a.ctx)
  let s := s.modSeq n fun q => { q with acts := Tbl.erase q.acts k }
  let s := match a.claim with
    | some slot => s.endClaim n slot
    | none => s
  if a.trapHandler then
    let s := (s.trapRecord w { code := 0x0111, detail := BitVec.ofNat 64 t.code, va := 0, handle := 0 }).2
    s.modSeq n fun q => { q with halt := true }
  else
    let (seq, s) := s.trapRecord w t
    let r : TrapRec :=
      { hdr := a.tok.hdr, payload := a.tok.payload, partner := if a.claim.isSome then a.partner else 0, detail := t.detail,
        status := trapStatus t.code k a.pc false a.claim.isSome seq, va := BitVec.ofNat 64 t.va, time := s.obs.time,
        handle := BitVec.ofNat 64 t.handle, itn := a.tok.itn, deps := a.deps }
    s.modSeq n fun q => { q with trapQ := q.trapQ ++ [r] }

/-- TAKE A TRAP AT ARRIVAL: the token is withheld and reported (R106, R120, R121). -/
def State.trapArrival (s : State) (n : Nat) (f : Flight) (t : Trap) : State :=
  let w : Who := { site := n, ctx := f.tok.ctx.toNat, asid := s.asidOf n f.tok.ctx.toNat, ip := f.tok.ip, itn := f.tok.itn,
                   fp := f.tok.fp, hdr := f.tok.hdr }
  let (seq, s) := s.trapRecord w t
  let r : TrapRec :=
    { hdr := f.tok.hdr, payload := f.tok.payload, partner := 0, detail := t.detail,
      status := trapStatus t.code 0 f.tok.ip.toNat true false seq, va := 0, time := s.obs.time, handle := 0, itn := f.tok.itn,
      deps := f.deps }
  s.modSeq n fun q => { q with trapQ := q.trapQ ++ [r] }

/-- RETURN FROM A TRAP at commit (R157): present or discard the token that slots 0 and 1 of the trap frame hold; mode 0
.go, 1 .drop, 2 .step. The frame returns to the system reserve. A presented token goes to this site's input. -/
def State.resume (s : State) (n mode fp : Nat) (org : Origin) (deps : List Nat) : State × Option Flight :=
  let t := Token.ofWords (s.fslot n fp).value (s.fslot n (fp + 1)).value
  let s := s.returnFrame n fp
  let f : Flight := { tok := t, src := n, dst := n, vn := vnetOf t.cls, org := org, deps := deps,
                      asid := s.asidOf n t.ctx.toNat, gen := (s.gen (s.asidOf n t.ctx.toNat)).toNat, step := mode == 2 }
  (s, if mode = 1 then none else some f)

/-! ### The trace ring and notifications (R306, R427) -/

/-- Write a record of the trace ring, or count it as lost while the ring is full (R427). The time is that of the event. -/
def State.traceRec (s : State) (typ ctx site ip itn fp aux : Nat) (detail : Word) : State :=
  let o := s.obs
  if o.trLen = 0 then s
  else if (o.prod - o.cons).toNat = 2 ^ o.trLen then
    { s with obs := { o with lost := if o.lost = BitVec.allOnes 16 then o.lost else o.lost + 1 } }
  else
    let l := toBytes typ 1 ++ toBytes ctx 1 ++ toBytes site 2 ++ toBytes ip 2 ++ toBytes itn 2 ++ toBytes fp 4 ++ toBytes aux 4 ++
             toBytes o.time.toNat 8 ++ toBytes detail.toNat 8
    let s := s.sysWrite coordSite (o.trBase + 32 * (o.prod.toNat % 2 ^ o.trLen)) l
    { s with obs := { s.obs with prod := s.obs.prod + 1 } }

/-- A measurement of `v` at source `src`, for monitor `m` to sample if it is enabled and watches that source (R429). -/
def State.measure (s : State) (m src v : Nat) : State :=
  match s.obs.mons[m]? with
  | none => s
  | some x => if x.en && x.src.toNat == src then { s with obs := { s.obs with samples := s.obs.samples ++ [(m, v)] } } else s

/-- A site of firmware's region (R306): of the firmware's launch (R441), or else of the first launch of context 7 in the table
(log entry 46). -/
def State.firmwareSite (s : State) : Nat :=
  let at_ (l : Launch) : Nat := siteNear (2048 + 16 * l.io) l.bx l.by_
  match s.pkg.fw.bind fun p => Tbl.get? s.pager.launches p.1, s.pager.launches.find? fun p => p.2.ctx == 7 with
  | some l, _ => at_ l
  | none, some p => at_ p.2
  | none, none => coordSite

/-- A notification to firmware's handler (R306): dropped while RP_NOTIFY.EN is clear. -/
def State.notify (s : State) (code site handle : Nat) : State :=
  if wbit s.pager.notify 0 then
    let e := Entry.of s.pager.notify
    let v := fieldsWord [(48, code % 2 ^ 16), (32, site % 2 ^ 12), (0, handle % 2 ^ 32)]
    let n := s.firmwareSite
    s.launchFrom coordSite n (e.token 3 false e.port 0 0 v) e.remote e.link engineOrigin [] (s.asidOf n 7) (s.gen (s.asidOf n 7)).toNat
  else s

/-! ### Running a word (R15, R53) -/

/-- The answer of a step. -/
abbrev Out := Host.Outcome State Fault Refusal

/-- What a word does at issue: a trap, or the state and the activation after it. -/
abbrev Body := State → Nat → Activation → Except Trap (State × Activation)

def Activation.pred (a : Activation) (p : Nat) : Bool := p == 0 || a.preds.getLsbD p

/-- The guard of a word (R48). -/
def Activation.guardOk (a : Activation) (g : Guard) : Bool := (a.pred g.pg.toNat) ^^ g.pn

/-- How many targets and streams the page of a context at a site has (R43). -/
def State.targetCount (s : State) (n c : Nat) : Nat := match s.page? n c with | some p => p.targets.length | none => 0
def State.streamCount (s : State) (n c : Nat) : Nat := match s.page? n c with | some p => p.streams.length | none => 0

/-- Some target or stream index that the word names is not in use (R42, R43). -/
def indexBad (s : State) (n c : Nat) (i : Instr) : Bool :=
  (i.tixs.any fun t => decide (s.targetCount n c ≤ t)) ||
  match i.sdx? with | some k => decide (s.streamCount n c ≤ k) | none => false

/-- The checks of R53 that need the page and the activation: target and stream indices in use, feature bits, privilege. -/
def issueCheck (s : State) (n : Nat) (a : Activation) (i : Instr) (w : Word) : Option Trap :=
  if indexBad s n a.ctx i || (i.needs &&& ~~~a.feat) != 0 then some (illegal w)
  else if i.privileged && a.ctx ≠ 7 then some (privilege w)
  else none

/-- A word's trap is taken, or waits with its activation while the trap queue is full (R120, log entry 96): a double trap enters no
queue (R122). -/
def trapOrWait (s : State) (n k : Nat) (a : Activation) (u : State) (t : Trap) : State :=
  if a.trapHandler || (s.site n).seq.trapRoom then u.takeTrap n k a t else s

/-- Run a word for the activation at `State.cur`: the checks of R53, the guard, then its body; a failed check or body takes
the trap. `w` is the word as DETAIL shows it. -/
def runWord (i : Instr) (w : Word) (body : Body) (s : State) : Out :=
  let n := s.cur.1
  let k := s.cur.2
  match s.act? n k with
  | none => .fault .noIssuer
  | some a =>
    let u := s.count n 1
    match issueCheck u n a i w with
    | some t => .next (trapOrWait s n k a u t)
    | none =>
      if !a.guardOk i.guard then .next (u.setAct n k { a with pc := a.pc + 1 })
      else
        match body u n a with
        | .error t => .next (trapOrWait s n k a u t)
        | .ok (u, a) => .next (u.setAct n k { a with pc := a.pc + 1 })

end Sys2Proof.Machine
end

