-- ==== Sys2Proof/Machine/Flags.lean ====
section
/-! DEFINITION. The exception flags of an activation, the policy of its context, and poison (R58, R113, R114). -/
namespace Sys2Proof.Machine

/-- The policy of an exception in %exc: 0 ignore, 1 sticky flag, 2 poison (R58). The index is 0 INV, 1 OVF, 2 DZ, 3 OUT. -/
def policy (exc : BitVec 8) (k : Nat) : Nat := exc.toNat / 4 ^ k % 4

/-- raise(flag) of R113 for each exception of `e`, under the policy `exc`. -/
def Activation.raise (a : Activation) (exc : BitVec 8) (e : Exc) : Activation :=
  let hit (on : Bool) (k pol : Nat) : Bool := on && policy exc k == pol
  let out := e.missing || e.outOvf
  { a with
    inv := a.inv || hit e.inv 0 1
    ovf := a.ovf || hit e.ovf 1 1
    dz := a.dz || hit e.dz 2 1
    out := a.out || hit out 3 1
    pz := a.pz || hit e.inv 0 2 || hit e.ovf 1 2 || hit e.dz 2 2 || hit out 3 2 }

/-- The flags of an activation as SQ_STICKY holds them for a context: bit 3 OUT, 2 DZ, 1 OVF, 0 INV (R124). -/
def Activation.flagBits (a : Activation) : Nat := b2n a.inv + b2n a.ovf * 2 + b2n a.dz * 4 + b2n a.out * 8

/-- A stochastic draw from G_seq of a context at issue (R169). -/
def State.drawSeq (s : State) (n c : Nat) : Nat × State :=
  let g := genStep (s.cregs n c).gseq
  (drawOf g, s.modCregs n c fun r => { r with gseq := g })

/-- The draw of a scalar form: one for .sr, none for another rounding (R169). -/
def State.drawFor (s : State) (n c : Nat) (r : Rnd) : Nat × State := if r = .sr then s.drawSeq n c else (0, s)

end Sys2Proof.Machine
end

