-- ==== Sys2Proof/Machine/Operands.lean ====
section
/-! DEFINITION. Operand forms: registers and predicates (R56), frame operands (R145), targets (R42, R51, R148), tile
descriptors (R37, R177), addresses (R52). -/
namespace Sys2Proof.Machine

/-- Read a register: s0 reads as zero (R56). -/
def Activation.reg (a : Activation) (r : Reg) : Word := if r = 0 then 0 else a.regs[r.toNat]

/-- Write a register: a write to s0 is discarded (R56). -/
def Activation.setReg (a : Activation) (r : Reg) (v : Word) : Activation :=
  if r = 0 then a else { a with regs := a.regs.set r.toNat v }

/-- Read a predicate: p0 reads as true (R56). -/
def Activation.predOf (a : Activation) (p : PredReg) : Bool := a.pred p.toNat

/-- Write a predicate other than p0. -/
def Activation.setPred (a : Activation) (p : PredReg) (v : Bool) : Activation :=
  { a with preds := if v then a.preds ||| BitVec.ofNat 8 (2 ^ p.toNat) else a.preds &&& ~~~(BitVec.ofNat 8 (2 ^ p.toNat)) }

/-- Add an effect to the buffer (R15). -/
def Activation.push (a : Activation) (e : Effect) : Activation := { a with effects := a.effects ++ [e] }

/-- sext(IMM32, 32) as a 64-bit value. -/
def sext32 (imm : BitVec 32) : Word := BitVec.ofInt 64 (sext imm.toNat 32)

/-! ### Frame operands (R99, R145) -/

def trapFrameFault (fp off reason : Nat) : Trap := { code := 0x0107, detail := BitVec.ofNat 64 (badFrame fp off reason) }

/-- The frame that register field A names for a slot range: act.fp for A = 0, else reg(A)[16:0], whose upper bits must be
zero; checked under R99. -/
def frameOperand (s : State) (n : Nat) (a : Activation) (r : Reg) (off cnt : Nat) : Except Trap Nat :=
  let v := if r = 0 then a.fp.toNat else (a.reg r).toNat
  if 2 ^ 17 ≤ v then .error (trapFrameFault v off 0)
  else
    match s.frameCheck n a.ctx v off cnt with
    | some why => .error (trapFrameFault v off why)
    | none => .ok v

/-! ### Targets (R10, R42, R51, R148) -/

/-- The page's target entry `t`. -/
def entryWord (s : State) (n c t : Nat) : Word :=
  match s.page? n c with
  | some p => p.targets.getD t 0
  | none => 0

/-- check_region of R127: the entry names a site of the region that holds its context slot here. -/
def regionOk (s : State) (n : Nat) (e : Entry) : Bool :=
  e.remote ||
  match s.slot? n e.ctx.toNat with
  | some k => decide (e.dx.toNat < k.w ∧ e.dy.toNat < k.h)
  | none => false

/-- The checks of R42 and R10 on an entry that a word names. `w` is the word. -/
def checkEntry (s : State) (n : Nat) (a : Activation) (w e : Word) : Except Trap Unit :=
  let d := Entry.of e
  if a.ctx ≠ 7 ∧ d.ctx.toNat ≠ a.ctx then .error (privilege w)
  else if regionOk s n d then .ok ()
  else .error { code := 0x0103, detail := e }

/-- The target of index `t`, checked. -/
def target (s : State) (n : Nat) (a : Activation) (w : Word) (t : Nat) : Except Trap Word :=
  let e := entryWord s n a.ctx t
  match checkEntry s n a w e with
  | .ok _ => .ok e
  | .error x => .error x

/-- The FP that register field F gives: act.fp for s0 (R51). -/
def fpOf (a : Activation) (f : Reg) : BitVec 17 := if f = 0 then a.fp else BitVec.ofNat 17 (a.reg f).toNat

/-- The ITN that register field I gives: act.itn for s0 (R51). -/
def itnOf (a : Activation) (i : Reg) : BitVec 16 := if i = 0 then a.itn else BitVec.ofNat 16 (a.reg i).toNat

/-- The payload of a T word: reg(V), or sext(IMM18, 18) for V = s0 (R148). -/
def valOf (a : Activation) (v : Reg) (imm : BitVec 18) : Word :=
  if v = 0 then BitVec.ofInt 64 (sext imm.toNat 18) else a.reg v

/-- The reply of a T word: its entry with the port XORed, F and I (R51, R146). The entry is not checked at issue: R148 checks those of
the send family (log entry 45). -/
def replyT (s : State) (n : Nat) (a : Activation) (t : TF) : Reply :=
  let e := entryWord s n a.ctx t.tix.toNat
  { entry := withPort e (wbit e 40 ^^ t.port), fp := fpOf a t.f, itn := itnOf a t.i }

/-- The completion or reply of an X, M or S word: its entry unchanged, act.fp and act.itn; none for 0x1FF (R187, R221). -/
def replyOf (s : State) (n : Nat) (a : Activation) (w : Word) (t : BitVec 9) : Except Trap (Option Reply) :=
  if t = 0x1FF then .ok none
  else
    match target s n a w t.toNat with
    | .error x => .error x
    | .ok e => .ok (some { entry := e, fp := a.fp, itn := a.itn })

/-! ### Tile descriptors (R37) -/

/-- The fields of a tile descriptor. -/
structure Desc where
  site : Nat
  gran : Nat
  gen : BitVec 5
  kind : Nat
  efc : Nat
  rows : Nat
  cols : Nat
  flags : Nat
  deriving DecidableEq, Repr

def Desc.of (w : Word) : Desc :=
  { site := wbits w 52 12, gran := wbits w 41 11, gen := BitVec.ofNat 5 (wbits w 36 5), kind := wbits w 32 4, efc := wbits w 24 8,
    rows := wbits w 16 8, cols := wbits w 8 8, flags := wbits w 0 8 }

/-- The descriptor that an allocation returns. -/
def Desc.word (site gran gen kind shape : Nat) : Word :=
  fieldsWord [(52, site), (41, gran), (36, gen), (32, kind), (0, shape)]

/-- Bits 63:32. -/
def handleOf (w : Word) : Nat := w.toNat / 2 ^ 32

/-- Bits 31:0. -/
def shapeOf (w : Word) : BitVec 32 := BitVec.ofNat 32 w.toNat

/-- The format of a descriptor; the checks of R37 make it a legal code. -/
def Desc.ef (d : Desc) : EF := (EF.ofCode d.efc).getD .i8

def Desc.scaled (d : Desc) : Bool := d.flags % 2 == 1
def Desc.sparse (d : Desc) : Bool := d.flags / 2 % 2 == 1
def Desc.outl (d : Desc) : Bool := d.flags / 4 % 2 == 1

/-- Bytes of one row of the element plane. -/
def Desc.rowBytes (d : Desc) : Nat := ceilDiv (d.cols * d.ef.width) 8

/-- Blocks of 24 elements in a row. -/
def Desc.blocks (d : Desc) : Nat := ceilDiv d.cols 24

def Desc.scaleBase (d : Desc) : Nat := d.rows * d.rowBytes
def Desc.outBase (d : Desc) : Nat := d.scaleBase + (if d.scaled then d.rows * d.blocks * 2 else 0)

/-- size(R37) in bytes. -/
def Desc.size (d : Desc) : Nat := d.outBase + (if d.outl then d.rows * d.blocks * 8 else 0)

def Desc.granules (d : Desc) : Nat := ceilDiv d.size 1024

/-- The descriptor is well formed (R37): a block-scaled one may have any format there (log entry 105). -/
def Desc.wellFormed (d : Desc) : Bool :=
  decide (d.site < 2080) && decide (d.kind ≤ 4) && (EF.ofCode d.efc).isSome && decide (1 ≤ d.rows ∧ d.rows ≤ 64) &&
  decide (1 ≤ d.cols ∧ d.cols ≤ 192) && decide (d.flags < 8) && (!d.outl || (d.scaled && d.efc == 0xC0)) &&
  (d.efc != 0xC0 || d.scaled) && decide (d.size ≤ 16384) && decide (d.gran + d.granules ≤ 2048)

/-- The current generation of a granule (R175). -/
def TileUnit.gen (t : TileUnit) (g : Nat) : BitVec 5 := Tbl.getD t.gens g 0

/-- The live tile that a descriptor names at its home (R175): a dying one is not named. -/
def State.liveTile? (s : State) (n : Nat) (d : Desc) : Option Tile :=
  let u := (s.site n).tile
  match Tbl.get? u.tiles d.gran with
  | some t => if d.site = n ∧ u.gen d.gran = d.gen ∧ t.dying = none then some t else none
  | none => none

/-- What an instruction calls for in a tile operand: a data tile, a mask tile, either of them, or the KIND it names (R177). -/
inductive TileRole where
  | data | mask | either | kind (k : Nat)
  deriving DecidableEq, Repr

/-- KIND 0, 2 and 3 are data tiles, and KIND 4 in context 7 (R177). -/
def Desc.isData (d : Desc) (c : Nat) : Bool := d.kind == 0 || d.kind == 2 || d.kind == 3 || (d.kind == 4 && c == 7)

/-- The reason for which a descriptor does not suit a role, if any: 0 KIND, 1 EF. A mask tile is KIND 1 with EF n8 (R177). -/
def TileRole.unfit (r : TileRole) (c : Nat) (d : Desc) : Option Nat :=
  let mask : Option Nat := if d.kind ≠ 1 then some 0 else if d.efc ≠ 1 then some 1 else none
  match r with
  | .data => if d.isData c then none else some 0
  | .mask => mask
  | .either => if d.isData c then none else mask
  | .kind k => if d.kind = k then none else some 0

/-- A tile operand of a word: its register operand's position in D, A, B, C order, its descriptor word and its role. -/
structure TileOpnd where
  pos : Nat
  w : Word
  role : TileRole
  deriving DecidableEq, Repr

def TileOpnd.d (o : TileOpnd) : Desc := Desc.of o.w

/-- The first operand that fails a check, D first. -/
def firstBad (l : List TileOpnd) (f : TileOpnd → Bool) : Option TileOpnd := l.find? fun o => !f o

/-- 0x0201: DETAIL holds the operand in bits 3:0, the reason in bits 7:4 and the shape word in bits 63:32 (R183). -/
def mismatch (o : TileOpnd) (reason : Nat) : Trap :=
  { code := 0x0201, detail := BitVec.ofNat 64 (o.pos + reason * 2 ^ 4 + o.w.toNat % 2 ^ 32 * 2 ^ 32), handle := handleOf o.w }

/-- Steps 1 to 4 of R177 over the tile operands of a word. -/
def tileNames (s : State) (n c : Nat) (l : List TileOpnd) : Option Trap :=
  match firstBad l fun o => o.d.wellFormed with
  | some o => some { code := 0x0105, detail := o.w, handle := handleOf o.w }
  | none =>
    match firstBad l fun o => o.d.site == n with
    | some o => some { code := 0x0202, detail := o.w, handle := handleOf o.w }
    | none =>
      match firstBad l fun o => (s.liveTile? n o.d).isSome with
      | some o => some { code := 0x010D, detail := BitVec.ofNat 64 (handleOf o.w), handle := handleOf o.w }
      | none =>
        match firstBad l fun o => c == 7 || (match s.liveTile? n o.d with | some t => t.owner == c | none => false) with
        | some o => some { code := 0x0203, detail := o.w, handle := handleOf o.w }
        | none => none

/-- The record part of step 5 for one operand: KIND (reason 0), then the shape word (reason 4). -/
def tileRecord (s : State) (n : Nat) (o : TileOpnd) : Option Trap :=
  match s.liveTile? n o.d with
  | none => none
  | some t => if t.kind ≠ o.d.kind then some (mismatch o 0) else if t.shape ≠ shapeOf o.w then some (mismatch o 4) else none

/-- Step 5 of R177: each operand in turn against its record and then for suitability, `suit` answering a reason. -/
def tileSuits (s : State) (n : Nat) (l : List TileOpnd) (suit : TileOpnd → Option Nat) : Option Trap :=
  match l with
  | [] => none
  | o :: r =>
    match tileRecord s n o with
    | some t => some t
    | none =>
      match suit o with
      | some why => some (mismatch o why)
      | none => tileSuits s n r suit

/-! ### Addresses (R52) -/

/-- ea(u): the register A plus sext(OFF, 15) × u, as an exact integer. -/
def effAddr (a : Activation) (m : MF) (u : Nat) : Int := (a.reg m.a).toNat + sext m.off.toNat 15 * u

end Sys2Proof.Machine
end

