-- ==== Sys2Proof/Machine/Fetch.lean ====
section
/-! DEFINITION. Fetching the next word of an activation from its page (R43, R53, R109). -/
namespace Sys2Proof.Machine

/-- What a fetch gives. -/
inductive Fetched where
  /-- no such activation, or it issues no more, or its site is halted -/
  | idle
  /-- the instruction to execute -/
  | run (i : Instr)
  /-- no instruction: the trap that R53 gives -/
  | bad (t : Trap)
  deriving DecidableEq, Repr

/-- The code word at an IP of a context's page; none outside PH_CODELEN. -/
def State.codeWord? (s : State) (n c ip : Nat) : Option Word := (s.page? n c).bind fun p => p.code[ip]?

/-- Fetch for the activation in slot `k` of site `n`: a word past the arm's end or outside the code area is 0x0101, and so
is a word that decodes to no instruction (R53). Past the end DETAIL shows the word that stands there, or 0 where there is none (log
entries 97, 99). -/
def fetch (s : State) (n k : Nat) : Fetched :=
  match s.act? n k with
  | none => .idle
  | some a =>
    if a.ended ∨ (s.site n).seq.halt then .idle
    else
      match s.codeWord? n a.ctx a.pc with
      | none => .bad (illegal 0)
      | some w =>
        if a.limit ≤ a.pc then .bad (illegal w)
        else
          match decode w with
          | .ok i => .run i
          | .error _ => .bad (illegal w)

end Sys2Proof.Machine
end

