-- ==== Sys2Proof/Machine/Integer.lean ====
section
/-! DEFINITION. Group 0: the scalar integer instructions (R128 to R133). -/
namespace Sys2Proof.Machine

/-- A body that only computes on the activation. -/
def pureBody (f : Activation → Activation) : Body := fun s _ a => .ok (s, f a)

/-- Run a word whose DETAIL is its own encoding. -/
def run (i : Instr) (body : Body) (s : State) : Out := runWord i (encode i) body s

/-- D ← f(A, B) (R128). -/
def alu (d a b : Reg) (f : Word → Word → Word) : Body := pureBody fun t => t.setReg d (f (t.reg a) (t.reg b))

/-- A division: with a divisor of 0 the result is `z` of the dividend, and DZ is raised (R128). -/
def divide (d a b : Reg) (f : Word → Word → Word) (z : Word → Word) : Body := fun s n t =>
  if t.reg b = 0 then
    .ok (s, (t.raise (s.cregs n t.ctx).exc { dz := true }).setReg d (z (t.reg a)))
  else .ok (s, t.setReg d (f (t.reg a) (t.reg b)))

/-- The amount of a shift form: b[5:0]. -/
def shAmt (b : Word) : Nat := b.toNat % 64

/-- A shift form of R128 and `shfi`. -/
def shiftBy (fn : ShFn) (a : Word) (n : Nat) : Word :=
  match fn with
  | .shl => a <<< n
  | .shr => a >>> n
  | .sra => a.sshiftRight n
  | .rotl => a.rotateLeft n

def logOp (fn : LogFn) (a b : Word) : Word :=
  match fn with
  | .and => a &&& b
  | .or => a ||| b
  | .xor => a ^^^ b
  | .andn => a &&& ~~~b

/-- Bits of `v` in reverse order over `n` bits. -/
def revBits (v n : Nat) : Nat :=
  match n with
  | 0 => 0
  | k + 1 => v % 2 * 2 ^ k + revBits (v / 2) k

/-- The number of one bits among the low `n`. -/
def popBits (v n : Nat) : Nat :=
  match n with
  | 0 => 0
  | k + 1 => v % 2 + popBits (v / 2) k

/-- Leading zeros of a `w`-bit number: `w` for 0. -/
def clzBits (v w : Nat) : Nat := if v = 0 then w else w - 1 - v.log2

/-- Trailing zeros among `w` bits: `w` for 0. -/
def ctzBits (v w : Nat) : Nat := clzBits (revBits v w) w

/-- The bytes of a `w`-bit number in reverse order. -/
def swapBytes (v w : Nat) : Nat := ofBytes (toBytes v (w / 8)).reverse

def bitop (fn : BitopFn) (a : Word) : Word :=
  BitVec.ofNat 64
    (match fn with
     | .clz => clzBits a.toNat 64
     | .ctz => ctzBits a.toNat 64
     | .popc => popBits a.toNat 64
     | .brev => revBits a.toNat 64
     | .bswap => swapBytes a.toNat 64)

/-- The comparisons of R131: lt le gt ge signed, lo ls hi hs unsigned. -/
def condOk (c : Cond) (a b : Word) : Bool :=
  match c with
  | .eq => a == b
  | .ne => a != b
  | .lt => a.slt b
  | .le => a.sle b
  | .gt => b.slt a
  | .ge => b.sle a
  | .lo => a.ult b
  | .ls => a.ule b
  | .hi => b.ult a
  | .hs => b.ule a

/-- `nop` (R128). -/
def execNop (g : Guard) (s : State) : Out := run (.nop g) (pureBody id) s

/-- The wrapping sum (R128). -/
def execAdd (g : Guard) (d a b : Reg) (s : State) : Out :=
  run (.add g d a b) (alu d a b fun x y => x + y) s

/-- The wrapping difference (R128). -/
def execSub (g : Guard) (d a b : Reg) (s : State) : Out :=
  run (.sub g d a b) (alu d a b fun x y => x - y) s

/-- The low 64 bits of the product (R128). -/
def execMul (g : Guard) (d a b : Reg) (s : State) : Out :=
  run (.mul g d a b) (alu d a b fun x y => x * y) s

/-- The signed high product (R128). -/
def execMulh (g : Guard) (d a b : Reg) (s : State) : Out :=
  run (.mulh g d a b) (alu d a b fun x y => BitVec.ofInt 64 (x.toInt * y.toInt / 2 ^ 64)) s

/-- The unsigned high product (R128). -/
def execMulhn (g : Guard) (d a b : Reg) (s : State) : Out :=
  run (.mulhn g d a b) (alu d a b fun x y => BitVec.ofNat 64 (x.toNat * y.toNat / 2 ^ 64)) s

/-- Signed quotient truncated toward zero (R128): −2^63 by −1 wraps to −2^63. -/
def execDiv (g : Guard) (d a b : Reg) (s : State) : Out :=
  run (.div g d a b) (divide d a b (fun x y => BitVec.ofInt 64 (x.toInt.tdiv y.toInt)) fun _ => BitVec.allOnes 64) s

/-- Unsigned quotient (R128). -/
def execDivn (g : Guard) (d a b : Reg) (s : State) : Out :=
  run (.divn g d a b) (divide d a b (fun x y => BitVec.ofNat 64 (x.toNat / y.toNat)) fun _ => BitVec.allOnes 64) s

/-- Signed remainder (R128). -/
def execRem (g : Guard) (d a b : Reg) (s : State) : Out :=
  run (.rem g d a b) (divide d a b (fun x y => BitVec.ofInt 64 (x.toInt.tmod y.toInt)) id) s

/-- Unsigned remainder (R128). -/
def execRemn (g : Guard) (d a b : Reg) (s : State) : Out :=
  run (.remn g d a b) (divide d a b (fun x y => BitVec.ofNat 64 (x.toNat % y.toNat)) id) s

/-- A AND B (R128). -/
def execAnd (g : Guard) (d a b : Reg) (s : State) : Out :=
  run (.and g d a b) (alu d a b fun x y => x &&& y) s

/-- A OR B (R128). -/
def execOr (g : Guard) (d a b : Reg) (s : State) : Out :=
  run (.or g d a b) (alu d a b fun x y => x ||| y) s

/-- A XOR B (R128). -/
def execXor (g : Guard) (d a b : Reg) (s : State) : Out :=
  run (.xor g d a b) (alu d a b fun x y => x ^^^ y) s

/-- A AND NOT B (R128). -/
def execAndn (g : Guard) (d a b : Reg) (s : State) : Out :=
  run (.andn g d a b) (alu d a b fun x y => x &&& ~~~y) s

/-- Shift left (R128). -/
def execShl (g : Guard) (d a b : Reg) (s : State) : Out :=
  run (.shl g d a b) (alu d a b fun x y => shiftBy .shl x (shAmt y)) s

/-- Logical shift right (R128). -/
def execShr (g : Guard) (d a b : Reg) (s : State) : Out :=
  run (.shr g d a b) (alu d a b fun x y => shiftBy .shr x (shAmt y)) s

/-- Arithmetic shift right (R128). -/
def execSra (g : Guard) (d a b : Reg) (s : State) : Out :=
  run (.sra g d a b) (alu d a b fun x y => shiftBy .sra x (shAmt y)) s

/-- Rotate left (R128). -/
def execRotl (g : Guard) (d a b : Reg) (s : State) : Out :=
  run (.rotl g d a b) (alu d a b fun x y => shiftBy .rotl x (shAmt y)) s

/-- Signed minimum (R128). -/
def execMin (g : Guard) (d a b : Reg) (s : State) : Out :=
  run (.min g d a b) (alu d a b fun x y => if x.slt y then x else y) s

/-- Signed maximum (R128). -/
def execMax (g : Guard) (d a b : Reg) (s : State) : Out :=
  run (.max g d a b) (alu d a b fun x y => if x.slt y then y else x) s

/-- Unsigned minimum (R128). -/
def execMinn (g : Guard) (d a b : Reg) (s : State) : Out :=
  run (.minn g d a b) (alu d a b fun x y => if x.ult y then x else y) s

/-- Unsigned maximum (R128). -/
def execMaxn (g : Guard) (d a b : Reg) (s : State) : Out :=
  run (.maxn g d a b) (alu d a b fun x y => if x.ult y then y else x) s

/-- `bitop` (R129). -/
def execBitop (g : Guard) (fn : BitopFn) (d a : Reg) (s : State) : Out :=
  run (.bitop g fn d a) (pureBody fun t => t.setReg d (bitop fn (t.reg a))) s

/-- Extract a bit field (R133). -/
def execBfx (g : Guard) (d a : Reg) (lsb : BitVec 6) (width : BitVec 7) (sx : Bool) (s : State) : Out :=
  run (.bfx g d a lsb width sx)
    (pureBody fun t =>
      let f := (t.reg a).toNat / 2 ^ lsb.toNat % 2 ^ width.toNat
      t.setReg d (if sx then BitVec.ofInt 64 (sext f width.toNat) else BitVec.ofNat 64 f)) s

/-- Insert a bit field (R133). -/
def execBfi (g : Guard) (d a : Reg) (lsb : BitVec 6) (width : BitVec 7) (s : State) : Out :=
  run (.bfi g d a lsb width)
    (pureBody fun t =>
      let m : Word := BitVec.ofNat 64 ((2 ^ width.toNat - 1) * 2 ^ lsb.toNat)
      t.setReg d ((t.reg d &&& ~~~m) ||| ((t.reg a <<< lsb.toNat) &&& m))) s

/-- Select by a predicate (R130). -/
def execSel (g : Guard) (d a b : Reg) (p : PredReg) (s : State) : Out :=
  run (.sel g d a b p) (pureBody fun t => t.setReg d (if t.predOf p then t.reg a else t.reg b)) s

/-- `movi` (R132): the sign-extended immediate, or the immediate in bits 63:32. -/
def execMovi (g : Guard) (hi : Bool) (d : Reg) (imm : BitVec 32) (s : State) : Out :=
  run (.movi g hi d imm)
    (pureBody fun t =>
      t.setReg d (if hi then BitVec.ofNat 64 (imm.toNat * 2 ^ 32 + (t.reg d).toNat % 2 ^ 32) else sext32 imm)) s

/-- `addi` (R132). -/
def execAddi (g : Guard) (d a : Reg) (imm : BitVec 32) (s : State) : Out :=
  run (.addi g d a imm) (pureBody fun t => t.setReg d (t.reg a + sext32 imm)) s

/-- `logi` (R132). -/
def execLogi (g : Guard) (fn : LogFn) (d a : Reg) (imm : BitVec 32) (s : State) : Out :=
  run (.logi g fn d a imm) (pureBody fun t => t.setReg d (logOp fn (t.reg a) (sext32 imm))) s

/-- `shfi` (R132). -/
def execShfi (g : Guard) (fn : ShFn) (d a : Reg) (n : BitVec 6) (s : State) : Out :=
  run (.shfi g fn d a n) (pureBody fun t => t.setReg d (shiftBy fn (t.reg a) n.toNat)) s

/-- `cmp` (R131). -/
def execCmp (g : Guard) (c : Cond) (p : PredReg) (a b : Reg) (s : State) : Out :=
  run (.cmp g c p a b) (pureBody fun t => t.setPred p (condOk c (t.reg a) (t.reg b))) s

/-- `cmpi` (R131). -/
def execCmpi (g : Guard) (c : Cond) (p : PredReg) (a : Reg) (imm : BitVec 32) (s : State) : Out :=
  run (.cmpi g c p a imm) (pureBody fun t => t.setPred p (condOk c (t.reg a) (sext32 imm))) s

end Sys2Proof.Machine
end

