-- ==== Sys2Proof/Machine/Float.lean ====
section
/-! DEFINITION. Group 1: scalar float, address arithmetic, predicates and special registers (R134 to R143). -/
namespace Sys2Proof.Machine

/-- A float form: the exact result is rounded once under `rnd` into the precision, and its exceptions are raised (R134).
.sr draws from G_seq at issue (R169). -/
def floatBody (pr : Prec) (rnd : Rnd) (d : Reg) (f : Activation → Val × Exc) : Body := fun s n t =>
  let (dr, s) := s.drawFor n t.ctx rnd
  let r := roundOut pr rnd dr (f t)
  .ok (s, (t.raise (s.cregs n t.ctx).exc r.2).setReg d r.1)

def Activation.fval (t : Activation) (pr : Prec) (r : Reg) : Val := floatIn pr (t.reg r)

/-- `fadd` (R134). -/
def execFadd (g : Guard) (pr : Prec) (rnd : Rnd) (d a b : Reg) (s : State) : Out :=
  run (.fadd g pr rnd d a b) (floatBody pr rnd d fun t => Val.add rnd (t.fval pr a) (t.fval pr b)) s

/-- `fsub` (R134). -/
def execFsub (g : Guard) (pr : Prec) (rnd : Rnd) (d a b : Reg) (s : State) : Out :=
  run (.fsub g pr rnd d a b) (floatBody pr rnd d fun t => Val.sub rnd (t.fval pr a) (t.fval pr b)) s

/-- `fmul` (R134). -/
def execFmul (g : Guard) (pr : Prec) (rnd : Rnd) (d a b : Reg) (s : State) : Out :=
  run (.fmul g pr rnd d a b) (floatBody pr rnd d fun t => Val.mul (t.fval pr a) (t.fval pr b)) s

/-- `fma`: one rounding (R134). -/
def execFma (g : Guard) (pr : Prec) (rnd : Rnd) (d a b c : Reg) (s : State) : Out :=
  run (.fma g pr rnd d a b c) (floatBody pr rnd d fun t => Val.fma rnd (t.fval pr a) (t.fval pr b) (t.fval pr c)) s

/-- `fmin`: minimumNumber, −0 below +0 (R134). -/
def execFmin (g : Guard) (pr : Prec) (d a b : Reg) (s : State) : Out :=
  run (.fmin g pr d a b) (pureBody fun t => t.setReg d (floatOut pr ((t.fval pr a).minNum (t.fval pr b)))) s

/-- `fmax`: maximumNumber (R134). -/
def execFmax (g : Guard) (pr : Prec) (d a b : Reg) (s : State) : Out :=
  run (.fmax g pr d a b) (pureBody fun t => t.setReg d (floatOut pr ((t.fval pr a).maxNum (t.fval pr b)))) s

/-- `fdiv` (R134). -/
def execFdiv (g : Guard) (pr : Prec) (rnd : Rnd) (d a b : Reg) (s : State) : Out :=
  run (.fdiv g pr rnd d a b) (floatBody pr rnd d fun t => Val.div (t.fval pr a) (t.fval pr b)) s

/-- `fsqrt` (R134). -/
def execFsqrt (g : Guard) (pr : Prec) (rnd : Rnd) (d a : Reg) (s : State) : Out :=
  run (.fsqrt g pr rnd d a) (floatBody pr rnd d fun t => Val.sqrt (Prec.fmt pr).t (Prec.fmt pr).emin (t.fval pr a)) s

/-- `fcmp` (R135). -/
def execFcmp (g : Guard) (pr : Prec) (c : FCond) (p : PredReg) (a b : Reg) (s : State) : Out :=
  run (.fcmp g pr c p a b)
    (fun s n t =>
      let r := fcompare c (t.fval pr a) (t.fval pr b)
      .ok (s, (t.raise (s.cregs n t.ctx).exc r.2).setPred p r.1)) s

/-- The other precision (R136). -/
def otherPrec (p : Prec) : Prec := match p with | .single => .double | .double => .single

/-- `fcvt` (R136). -/
def execFcvt (g : Guard) (pr : Prec) (rnd : Rnd) (fn : CvtFn) (d a : Reg) (s : State) : Out :=
  run (.fcvt g pr rnd fn d a)
    (match fn with
     | .cvf => floatBody pr rnd d fun t => (t.fval (otherPrec pr) a, Exc.none)
     | .fri => floatBody pr rnd d fun t => (Val.ofInt (t.reg a).toInt, Exc.none)
     | .frn => floatBody pr rnd d fun t => (Val.ofInt (t.reg a).toNat, Exc.none)
     | .toi => fun s n t =>
       let (dr, s) := s.drawFor n t.ctx rnd
       let r := roundInt (-(2 ^ 63)) (2 ^ 63 - 1) rnd dr (t.fval pr a)
       .ok (s, (t.raise (s.cregs n t.ctx).exc r.2).setReg d (BitVec.ofInt 64 r.1))
     | .ton => fun s n t =>
       let (dr, s) := s.drawFor n t.ctx rnd
       let r := roundInt 0 (2 ^ 64 - 1) rnd dr (t.fval pr a)
       .ok (s, (t.raise (s.cregs n t.ctx).exc r.2).setReg d (BitVec.ofInt 64 r.1))) s

/-- `fcls` (R137). -/
def execFcls (g : Guard) (pr : Prec) (d a : Reg) (s : State) : Out :=
  run (.fcls g pr d a) (pureBody fun t => t.setReg d (BitVec.ofNat 64 (fclsMask pr (t.reg a)))) s

/-- `lea` (R138). -/
def execLea (g : Guard) (shift : BitVec 2) (d a b : Reg) (imm : BitVec 32) (s : State) : Out :=
  run (.lea g shift d a b imm) (pureBody fun t => t.setReg d (t.reg a + (t.reg b <<< shift.toNat) + sext32 imm)) s

/-- The `bits` high bits of the wrapped product (R138, R208). -/
def hashBits (x mult bits : Nat) : Nat := x * mult % 2 ^ 64 / 2 ^ (64 - bits)

/-- `mhash` (R138). -/
def execMhash (g : Guard) (nbits : BitVec 7) (d a : Reg) (mult : BitVec 32) (s : State) : Out :=
  run (.mhash g nbits d a mult)
    (pureBody fun t => t.setReg d (BitVec.ofNat 64 (hashBits (t.reg a).toNat mult.toNat nbits.toNat))) s

/-- `pop` (R139). -/
def execPop (g : Guard) (fn : PopFn) (d a b : PredReg) (s : State) : Out :=
  run (.pop g fn d a b)
    (pureBody fun t =>
      t.setPred d
        (match fn with
         | .and => t.predOf a && t.predOf b
         | .or => t.predOf a || t.predOf b
         | .xor => t.predOf a ^^ t.predOf b
         | .andn => t.predOf a && !t.predOf b
         | .not => !t.predOf a
         | .set => true
         | .clr => false)) s

/-- `pmov` (R140): p0 reads as 1 and keeps its value. -/
def execPmov (g : Guard) (toPred : Bool) (r : Reg) (s : State) : Out :=
  run (.pmov g toPred r)
    (pureBody fun t =>
      if toPred then { t with preds := BitVec.ofNat 8 ((t.reg r).toNat % 256 / 2 * 2) }
      else t.setReg r (BitVec.ofNat 64 ((t.preds ||| 1#8).toNat))) s

/-! ### Special registers (R57, R58) -/

/-- The value of a special register as context `c` executes at site `n`; `k` names the copy of %seed and %exc. -/
def readSpecial (s : State) (n c no k : Nat) : Word :=
  let slot := s.slot? n c
  match no with
  | 0 => BitVec.ofNat 64 n
  | 1 => match slot with
    | some r => fieldsWord [(0, r.bx % 64), (8, r.by_ % 64), (16, (r.w - 1) % 64), (24, (r.h - 1) % 64)]
    | none => 0
  | 2 => BitVec.ofNat 64 c
  | 3 => match slot with | some r => BitVec.ofNat 64 r.asid | none => 0
  | 4 => match slot with | some r => BitVec.ofNat 64 (s.gen r.asid).toNat | none => 0
  | 5 => s.obs.time
  | 6 => BitVec.ofNat 64 (s.clkAt n)
  | 7 => BitVec.ofNat 64 (s.site n).feat.toNat
  | 8 => (s.cregs n k).seed
  | 9 => match s.page? n c with | some p => BitVec.ofNat 64 p.pcls | none => 0
  | 10 => BitVec.ofNat 64 (s.cregs n k).exc.toNat
  | _ => 0

/-- A committed `mts` (R57, R58, R169): a write to a read-only register writes nothing. -/
def writeSpecial (s : State) (n no k : Nat) (v : Word) : State :=
  match no with
  | 7 => s.modSite n fun x => { x with feat := x.feat &&& ~~~(BitVec.ofNat 5 v.toNat) }
  | 8 => s.modCregs n k fun r =>
    { r with seed := v, gseq := genSeed v, gvec := genSeed (v ^^^ 0x5555555555555555), gmat := genSeed (v ^^^ 0xAAAAAAAAAAAAAAAA) }
  | 10 => s.modCregs n k fun r => { r with exc := BitVec.ofNat 8 v.toNat }
  | _ => s

/-- Would the value write 3 to a policy field (R58)? -/
def badPolicy (v : Word) : Bool := (List.range 4).any fun i => wbits v (2 * i) 2 == 3

/-- The context whose copy an `mfs` or `mts` names (R57). -/
def specialCtx (no : BitVec 16) (c : BitVec 3) (own : Nat) : Nat := if no = 8 ∨ no = 10 then c.toNat else own

/-- `mfs` (R141). -/
def execMfs (g : Guard) (d : Reg) (no : BitVec 16) (ctx : BitVec 3) (s : State) : Out :=
  run (.mfs g d no ctx)
    (fun s n t => .ok (s, t.setReg d (readSpecial s n t.ctx no.toNat (specialCtx no ctx t.ctx)))) s

/-- `mts` acts at commit (R141); a policy of 3 is 0x0101 (R58). -/
def execMts (g : Guard) (a : Reg) (no : BitVec 16) (ctx : BitVec 3) (s : State) : Out :=
  run (.mts g a no ctx)
    (fun s _ t =>
      if no = 10 ∧ badPolicy (t.reg a) then .error (illegal (encode (.mts g a no ctx)))
      else .ok (s, t.push (.writeSpecial no.toNat (specialCtx no ctx t.ctx) (t.reg a)))) s

/-- The bounds of a float clamp follow fmax and fmin: a NaN bound is ignored, a NaN A gives NaN (R142). -/
def clampVal (x lo hi : Val) : Val := if x.isNan then .nan else (x.maxNum lo).minNum hi

/-- `clamp` (R142): min(max(A, B), C), and C when B exceeds C. -/
def execClamp (g : Guard) (fn : ClampFn) (d a b c : Reg) (s : State) : Out :=
  run (.clamp g fn d a b c)
    (pureBody fun t =>
      let x := t.reg a
      let lo := t.reg b
      let hi := t.reg c
      t.setReg d
        (match fn with
         | .signed => let m := if x.slt lo then lo else x; if hi.slt m then hi else m
         | .unsigned => let m := if x.ult lo then lo else x; if hi.ult m then hi else m
         | .single => floatOut .single (clampVal (floatIn .single x) (floatIn .single lo) (floatIn .single hi))
         | .double => floatOut .double (clampVal (floatIn .double x) (floatIn .double lo) (floatIn .double hi)))) s

/-- `iabs` (R143): wrapping, no flag. -/
def execIabs (g : Guard) (neg : Bool) (d a : Reg) (s : State) : Out :=
  run (.iabs g neg d a)
    (pureBody fun t => t.setReg d (if neg || (t.reg a).slt 0 then 0 - t.reg a else t.reg a)) s

end Sys2Proof.Machine
end

