-- ==== Sys2Proof/Machine/Sequencer.lean ====
section
/-! DEFINITION. Group 2: entries, frames, sends, groups, handles and traps, at issue (R144 to R158). Their effects are
buffered here and take place at commit (R15). -/
namespace Sys2Proof.Machine

/-- `ent` (R50, R53, R109). The word that fired the activation opens the handler: its FEAT must be covered by %feat, and a
two-arm entry runs arm A up to ALT or arm B from ALT. Anywhere else it is 0x0101. -/
def execEnt (e : EntF) (s : State) : Out :=
  run (.ent e)
    (fun s n t =>
      let bad : Except Trap (State × Activation) := .error (illegal (encode (.ent e)))
      let last := t.pc + e.len.toNat
      if t.pc ≠ t.ip.toNat then bad
      else if (e.feat &&& ~~~(s.site n).feat) ≠ 0 then bad
      else
        match e.arity with
        | .sel =>
          if t.pc < e.alt.toNat ∧ e.alt.toNat ≤ last then
            if t.armB then .ok (s, { t with feat := e.feat, limit := last + 1, pc := e.alt.toNat - 1 })
            else .ok (s, { t with feat := e.feat, limit := e.alt.toNat })
          else bad
        | _ => .ok (s, { t with feat := e.feat, limit := last + 1 })) s

/-! ### Frames (R145 to R147) -/

/-- `ldf` reads at issue; a poisoned slot poisons the activation (R114, R145). -/
def execLdf (g : Guard) (side : Bool) (d a : Reg) (n : BitVec 8) (s : State) : Out :=
  run (.ldf g side d a n)
    (fun s site t =>
      match frameOperand s site t a n.toNat 1 with
      | .error x => .error x
      | .ok fp =>
        let v := s.fslot site (fp + n.toNat)
        if side then .ok (s, t.setReg d (fieldsWord [(0, b2n v.pres), (1, b2n v.psn), (2, b2n v.port), (16, v.stamp.toNat)]))
        else .ok (s, { t with pz := t.pz || v.psn }.setReg d v.value)) s

/-- `stf` (R145). -/
def execStf (g : Guard) (d a : Reg) (n : BitVec 8) (s : State) : Out :=
  run (.stf g d a n)
    (fun s site t =>
      match frameOperand s site t a n.toNat 1 with
      | .error x => .error x
      | .ok fp => .ok (s, t.push (.frameWrite fp n.toNat (t.reg d)))) s

/-- `fclr` (R145): n + count must not exceed the frame's size. -/
def execFclr (g : Guard) (a : Reg) (n cnt : BitVec 8) (s : State) : Out :=
  run (.fclr g a n cnt)
    (fun s site t =>
      match frameOperand s site t a n.toNat (cnt.toNat + 1) with
      | .error x => .error x
      | .ok fp => .ok (s, t.push (.frameClear fp n.toNat (cnt.toNat + 1)))) s

/-- `falloc` (R146): with the level's reserve named, the level must have one of the class. -/
def execFalloc (t : TF) (cls level : BitVec 3) (useRes : Bool) (s : State) : Out :=
  let w := encode (.falloc t cls level useRes)
  run (.falloc t cls level useRes)
    (fun s n a =>
      let r := match s.page? n a.ctx with | some p => p.reserve.getD level.toNat (0, 0) | none => (0, 0)
      if useRes ∧ (r.2 = 0 ∨ r.1 ≠ cls.toNat) then .error (illegal w)
      else
        .ok (s, a.push (.frameAlloc cls.toNat level.toNat useRes (replyT s n a t)))) s

/-- Has the activation already buffered a return of this frame? -/
def freedBefore (a : Activation) (fp : Nat) : Bool :=
  a.effects.any fun e => match e with | .frameFree f => f == fp | .resume _ f => f == fp | _ => false

/-- `ffree` (R147). -/
def execFfree (g : Guard) (a : Reg) (s : State) : Out :=
  run (.ffree g a)
    (fun s n t =>
      let fp := (t.reg a).toNat
      if 2 ^ 17 ≤ fp then .error (trapFrameFault fp 0 0)
      else
        match s.frameCheck n t.ctx fp 0 0 with
        | some why => .error (trapFrameFault fp 0 why)
        | none => if freedBefore t fp then .error (trapFrameFault fp 0 3) else .ok (s, t.push (.frameFree fp))) s

/-! ### Sends (R148) -/

/-- make of R148: the token's poison and sampling bits are set at commit. -/
def makeSend (a : Activation) (t : TF) (cls : BitVec 2) (e : Word) (port : Bool) (v : Word) : Effect :=
  let d := Entry.of e
  .send (d.token cls false port (fpOf a t.f) (itnOf a t.i) v) d.remote d.link

/-- The class of a KIND (R51). -/
def sendCls (k : SendKind) : BitVec 2 := match k with | .scalar | .tile => 0 | .ctl => 1 | .sys => 3

/-- `send` (R42, R148): KIND 3 is context 7's alone, and a tile descriptor must be well formed. -/
def execSend (t : TF) (kind : SendKind) (imm : BitVec 18) (s : State) : Out :=
  let w := encode (.send t kind imm)
  run (.send t kind imm)
    (fun s n a =>
      let v := valOf a t.v imm
      if kind = .sys ∧ a.ctx ≠ 7 then .error (privilege w)
      else
        match target s n a w t.tix.toNat with
        | .error x => .error x
        | .ok e =>
          if kind = .tile ∧ !(Desc.of v).wellFormed then .error { code := 0x0105, detail := v, handle := handleOf v }
          else .ok (s, a.push (makeSend a t (sendCls kind) e (wbit e 40 ^^ t.port) v))) s

/-- `sendc` (R38, R148). -/
def execSendc (t : TF) (cop rank : BitVec 8) (s : State) : Out :=
  let w := encode (.sendc t cop rank)
  run (.sendc t cop rank)
    (fun s n a =>
      match target s n a w t.tix.toNat with
      | .error x => .error x
      | .ok e =>
        let v := fieldsWord [(56, cop.toNat), (48, rank.toNat), (0, wbits (a.reg t.v) 0 48)]
        .ok (s, a.push (makeSend a t 1 e (wbit e 40 ^^ t.port) v))) s

/-- The binding that serves a context at a site: its ASID's, else for context 7 the one that RP_SYSCD names. -/
def State.descKey (s : State) (n c : Nat) : Nat :=
  s.linkKey c (s.asidOf n c)

/-- Is an entry read from a register one that no page could hold (R148)? -/
def badEntry (s : State) (n c : Nat) (w : Word) : Bool :=
  let e := Entry.of w
  decide (1535 < e.ip.toNat) || e.low != 0 || (!e.remote && e.link != 0) ||
  (e.remote && decide (s.cdField (s.descKey n c) 4 4 ≤ e.link))

/-- `sendx` (R148): its target entry comes from a register. -/
def execSendx (t : TF) (e : Reg) (imm : BitVec 18) (s : State) : Out :=
  let w := encode (.sendx t e imm)
  run (.sendx t e imm)
    (fun s n a =>
      let x := a.reg e
      if badEntry s n a.ctx x then .error { code := 0x0109, detail := x }
      else
        match checkEntry s n a w x with
        | .error y => .error y
        | .ok _ => .ok (s, a.push (makeSend a t 0 x (wbit x 40 ^^ t.port) (valOf a t.v imm)))) s

/-- `swt` (R148): both entries are checked, whichever the predicate selects. -/
def execSwt (t : TF) (tix2 : BitVec 9) (p : PredReg) (s : State) : Out :=
  let w := encode (.swt t tix2 p)
  run (.swt t tix2 p)
    (fun s n a =>
      match target s n a w t.tix.toNat, target s n a w tix2.toNat with
      | .error x, _ => .error x
      | _, .error x => .error x
      | .ok e1, .ok e2 =>
        if a.predOf p then .ok (s, a.push (makeSend a t 0 e1 (wbit e1 40 ^^ t.port) (a.reg t.v)))
        else .ok (s, a.push (makeSend a t 0 e2 (wbit e2 40) (a.reg t.v)))) s

/-- `sendm` (R148): to TIX, then to TIX2. -/
def execSendm (t : TF) (tix2 : BitVec 9) (imm : BitVec 18) (s : State) : Out :=
  let w := encode (.sendm t tix2 imm)
  run (.sendm t tix2 imm)
    (fun s n a =>
      match target s n a w t.tix.toNat, target s n a w tix2.toNat with
      | .error x, _ => .error x
      | _, .error x => .error x
      | .ok e1, .ok e2 =>
        let v := valOf a t.v imm
        .ok (s, (a.push (makeSend a t 0 e1 (wbit e1 40 ^^ t.port) v)).push (makeSend a t 0 e2 (wbit e2 40) v))) s

/-- `wadv` (R115, R149). -/
def execWadv (g : Guard) (d : Reg) (s : State) : Out :=
  run (.wadv g d)
    (pureBody fun t =>
      let itn := t.itn + 1
      { t with itn := itn }.setReg d (BitVec.ofNat 64 itn.toNat)) s

/-- The order of commits with slot `k`, whose `end` issues now: those that reached `end` in one clk commit in ascending order of slot
(R16). -/
def SeqUnit.endOrder (q : SeqUnit) (clk k : Nat) : List Nat :=
  let after (j : Nat) : Bool := match Tbl.get? q.acts j with | some a => a.endAt == clk && decide (k < j) | none => false
  (q.ready.filter fun j => !after j) ++ [k] ++ q.ready.filter after

/-- `end` (R16, R150): the activation stops issuing and is ready to commit. -/
def execEndH (g : Guard) (s : State) : Out :=
  run (.endH g)
    (fun s n t => .ok (s.modSeq n fun q => { q with ready := q.endOrder s.clk s.cur.2 }, { t with ended := true, endAt := s.clk })) s

/-! ### Membership groups (R116, R151) -/

/-- The layout of a group id (R116). -/
def groupIdOk (v : Word) : Bool :=
  decide (v.toNat < 2 ^ 24) && decide (wbits v 12 12 < 2080) && wbits v 6 6 == 0

def badGroup (v : Word) : Trap := { code := 0x010B, detail := v }

/-- A group instruction with a target: the request is committed to the group's home. -/
def groupBody (op : GroupOp) (t : TF) : Body := fun s n a =>
  let id := a.reg t.v
  if groupIdOk id then .ok (s, a.push (.group op id 1 (some (replyT s n a t)))) else .error (badGroup id)

/-- `join` (R118, R151). -/
def execJoin (t : TF) (s : State) : Out := run (.join t) (groupBody .join t) s

/-- `leave` (R118, R151). -/
def execLeave (t : TF) (s : State) : Out :=
  run (.leave t)
    (fun s _ a =>
      let id := a.reg t.v
      if groupIdOk id then .ok (s, a.push (.group .leave id 1 none)) else .error (badGroup id)) s

/-- `arrive`: a release at its scope (R119, R151). -/
def execArrive (t : TF) (scope : BitVec 4) (s : State) : Out :=
  run (.arrive t scope)
    (fun s _ a =>
      let id := a.reg t.v
      if groupIdOk id then .ok (s, a.push (.group .arrive id scope.toNat none)) else .error (badGroup id)) s

/-- `wait` (R118, R151). -/
def execWait (t : TF) (s : State) : Out := run (.wait t) (groupBody .wait t) s

/-! ### Tile handles (R152 to R154) -/

/-- `halloc` (R152): the shape is checked with SITE this site. The record of a malformed shape shows the descriptor so made (log
entry 102). -/
def execHalloc (t : TF) (kind : BitVec 4) (s : State) : Out :=
  let w := encode (.halloc t kind)
  run (.halloc t kind)
    (fun s n a =>
      let d := Desc.word n 0 0 kind.toNat (shapeOf (a.reg t.v)).toNat
      if kind = 4 ∧ a.ctx ≠ 7 then .error (privilege w)
      else if (Desc.of d).wellFormed then .ok (s, a.push (.halloc (shapeOf (a.reg t.v)) kind.toNat (replyT s n a t)))
      else .error { code := 0x0105, detail := d, handle := handleOf d }) s

/-- The issue checks of a handle operand: well formed (R37), and live when its home is this site (R153); no feature is asked for (log
entry 106). -/
def handleCheck (s : State) (n : Nat) (v : Word) (stale : Bool) : Option Trap :=
  let d := Desc.of v
  if !d.wellFormed then some { code := 0x0105, detail := v, handle := handleOf v }
  else if stale && d.site == n && (s.liveTile? n d).isNone then
    some { code := 0x010D, detail := BitVec.ofNat 64 (handleOf v), handle := handleOf v }
  else none

def handleBody (op : HandleOp) (r : Reg) : Body := fun s n a =>
  match handleCheck s n (a.reg r) true with
  | some x => .error x
  | none => .ok (s, a.push (.handle op (a.reg r) none))

/-- `hinc` (R153). -/
def execHinc (g : Guard) (a : Reg) (s : State) : Out := run (.hinc g a) (handleBody .inc a) s

/-- `hdec` (R153). -/
def execHdec (g : Guard) (a : Reg) (s : State) : Out := run (.hdec g a) (handleBody .dec a) s

/-- `hinfo` (R154): a stale handle gives a poisoned reply, and no trap. -/
def execHinfo (t : TF) (sel : Bool) (s : State) : Out :=
  run (.hinfo t sel)
    (fun s n a =>
      match handleCheck s n (a.reg t.v) false with
      | some x => .error x
      | none => .ok (s, a.push (.handle (.info sel) (a.reg t.v) (some (replyT s n a t))))) s

/-! ### Traps and services (R155 to R158) -/

/-- `trap` (R155). -/
def execTrap (g : Guard) (imm : BitVec 32) (s : State) : Out :=
  run (.trap g imm) (fun _ _ _ => .error { code := 0x010F, detail := BitVec.ofNat 64 imm.toNat }) s

/-- `brk` (R155): a `nop` in an activation that `resm.step` fired. -/
def execBrk (g : Guard) (imm : BitVec 32) (s : State) : Out :=
  run (.brk g imm)
    (fun s _ t => if t.step then .ok (s, t) else .error { code := 0x0110, detail := BitVec.ofNat 64 imm.toNat }) s

/-- `sys` (R156). -/
def execSys (t : TF) (service : BitVec 18) (s : State) : Out :=
  run (.sys t service) (fun s n a => .ok (s, a.push (.service service.toNat (a.reg t.v) (replyT s n a t)))) s

/-- `resm` (R157): the register must name an allocated trap frame. -/
def resmBody (mode : Nat) (r : Reg) : Body := fun s n a =>
  let fp := (a.reg r).toNat
  match s.frame? n fp with
  | none => .error (trapFrameFault fp 0 0)
  | some f =>
    if f.origin ≠ .trapFrame then .error (trapFrameFault fp 0 4)
    else if freedBefore a fp then .error (trapFrameFault fp 0 3)
    else .ok (s, a.push (.resume mode fp))

/-- `resm.go` (R157). -/
def execResmGo (g : Guard) (a : Reg) (s : State) : Out := run (.resmGo g a) (resmBody 0 a) s

/-- `resm.drop` (R157). -/
def execResmDrop (g : Guard) (a : Reg) (s : State) : Out := run (.resmDrop g a) (resmBody 1 a) s

/-- `resm.step` (R157). -/
def execResmStep (g : Guard) (a : Reg) (s : State) : Out := run (.resmStep g a) (resmBody 2 a) s

/-- `psn` (R114, R158). -/
def execPsn (g : Guard) (fn : PsnFn) (s : State) : Out :=
  run (.psn g fn)
    (pureBody fun t =>
      match fn with
      | .test d => t.setPred d t.pz
      | .set => { t with pz := true }
      | .clr => { t with pz := false }) s

end Sys2Proof.Machine
end

