-- ==== Sys2Proof/Machine/Arrival.lean ====
section
/-! DEFINITION. Tokens at a site's input: checks, matching, holding and firing (R38, R39, R91, R103 to R110), and the
delivery of traps and service requests (R120 to R123). -/
namespace Sys2Proof.Machine

/-! ### Control payloads (R38, R39) -/

def cop (v : Word) : Nat := wbits v 56 8

/-- RANK and OPND hold what R38 allows for their COP; CSW and RMK need CTX 7 (R39). -/
def controlOk (t : Token) : Bool :=
  let rank := wbits t.payload 48 8
  let op := wbits t.payload 0 48
  match cop t.payload with
  | 1 => decide (rank ≤ 4) && decide (op < 2 ^ rank)
  | 2 => rank == 0 && op == 0
  | 3 => decide (rank ≤ 3) && op == 0
  | 4 => rank == 0 && decide (op < 16) && op % 8 != 7 && t.ctx == 7
  | 5 => rank == 0 && decide (op < 2 ^ 16) && t.ctx == 7
  | 6 => rank == 0 && decide (1 ≤ op ∧ op < 2 ^ 16)
  | 7 => rank == 0 && decide (op < 2)
  | _ => false

/-- EOS of rank 4 (R302). -/
def isEos4 (t : Token) : Bool := t.cls == 1 && cop t.payload == 1 && wbits t.payload 48 8 == 4

/-! ### The destination entry word (R50, R104) -/

def entArity (w : Word) : Nat := wbits w 50 2
def entSlot (w : Word) : Nat := wbits w 42 8
def isEnt (w : Word) : Bool := wbits w 56 8 == 0x40

/-- class_ok of R104. -/
def classOk (arity : Nat) (t : Token) : Bool :=
  let sys7 := t.cls == 3 && t.ctx == 7
  match arity with
  | 0 => t.cls == 1 || t.cls == 2 || sys7
  | 3 => if t.port then t.cls == 1 && cop t.payload == 7 else t.cls == 0 || t.cls == 2 || sys7
  | _ => t.cls == 0 || t.cls == 2 || sys7

/-- The match slot that a token names at a dyadic or two-arm entry. -/
def matchSlot (s : State) (n : Nat) (t : Token) : Option Nat :=
  match s.codeWord? n t.ctx.toNat t.ip.toNat with
  | some w => if isEnt w && decide (2 ≤ entArity w) then some (t.fp.toNat + entSlot w) else none
  | none => none

/-! ### Firing (R108, R423, R426) -/

/-- Write a history entry: its index and generation (R423). -/
def State.history (s : State) (n : Nat) (t : Token) (stamp : BitVec 16) (org : Origin) (single : Bool) : Nat × State :=
  let o := (s.site n).obs
  let gen := match Tbl.get? o.hist o.next with | some e => (e.gen + 1) % 256 | none => 0
  let e : HistEntry :=
    { gen := gen, ctx := t.ctx.toNat, ip := t.ip, itn := t.itn, fp := t.fp, stamp := stamp, clk := BitVec.ofNat 16 (s.clkAt n),
      org := org, single := single }
  (o.next * 256 + gen,
   s.modSite n fun x => { x with obs := { x.obs with hist := Tbl.set x.obs.hist o.next e, next := (o.next + 1) % 256 } })

/-- A firing enters the fire queue: `slot` is the match slot it claims, with the partner parked there. -/
def State.fire (s : State) (n : Nat) (w : Word) (f : Flight) (slot : Option Nat) : State :=
  let t := f.tok
  let now := BitVec.ofNat 16 (s.clkAt n)
  let p := match slot with | some k => s.fslot n k | none => Slot.empty
  let (h, s) := s.history n t (if slot.isSome then p.stamp else now) f.org slot.isNone
  let s := s.count n 0
  let s := if t.smp then
      (s.count n 14).traceRec 5 t.ctx.toNat n t.ip.toNat t.itn.toNat t.fp.toNat 0 t.hdr
    else s
  let old := match slot with | some k => Tbl.getD (s.site n).seq.parkedDeps k [] | none => []
  let r : Fired :=
    { tok := t, word := w
      d1 := if slot.isSome && t.port then p.value else t.payload
      d2 := if slot.isNone then 0 else if t.port then t.payload else p.value
      pz := t.psn || (slot.isSome && p.psn)
      claim := slot, partner := p.value
      armB := entArity w == 3 && (if t.port then t.payload.getLsbD 0 else p.value.getLsbD 0)
      step := f.step, trapHandler := false, org := f.org, hist := h, deps := s.prune (f.deps ++ old) }
  s.modSeq n fun q => { q with fireQ := q.fireQ ++ [r] }

/-- Firing is possible: the site is not halted, and the fire queue and the trap queue have room (R108, R120, R122). -/
def SeqUnit.canFire (q : SeqUnit) : Bool := !q.halt && decide (q.fireQ.length < 32) && decide (q.trapQ.length < 16)

/-- A trap at arrival, which waits while the trap queue is full (R120). -/
def State.trapAtInput (s : State) (n : Nat) (f : Flight) (t : Trap) : Option State :=
  if (s.site n).seq.trapRoom then some (s.trapArrival n f t) else none

/-- on_arrival of R106 for a token taken from the input. None: it stays where it is, since it would fire or trap and cannot, or names
a claimed slot while the retry buffer is full. Where the page has no word at the token's IP, DETAIL shows 0 (log entry 97). -/
def State.onArrival (s : State) (n : Nat) (f : Flight) : Option State :=
  let t := f.tok
  let c := t.ctx.toNat
  match s.codeWord? n c t.ip.toNat with
  | none => s.trapAtInput n f (illegal 0)
  | some w =>
    if !isEnt w then s.trapAtInput n f (illegal w)
    else if !classOk (entArity w) t then
      s.trapAtInput n f { code := 0x0108, detail := fieldsWord [(0, entArity w), (2, b2n t.port), (3, t.cls.toNat)] }
    else if entArity w ≤ 1 then
      if (s.site n).seq.canFire then some (s.fire n w f none) else none
    else
      match s.frameCheck n c t.fp.toNat (entSlot w) 1 with
      | some why => s.trapAtInput n f (trapFrameFault t.fp.toNat (entSlot w) why)
      | none =>
        let k := t.fp.toNat + entSlot w
        let p := s.fslot n k
        if s.claimed n k then
          if (s.site n).seq.retryQ.length < 16 then
            some ((s.count n 6).modSeq n fun q => { q with retryQ := q.retryQ ++ [f] })
          else none
        else if !p.pres then
          let s := s.setFslot n k { value := t.payload, pres := true, psn := t.psn, port := t.port, stamp := BitVec.ofNat 16 (s.clkAt n) }
          some (s.modSeq n fun q => { q with parkedDeps := Tbl.set q.parkedDeps k f.deps })
        else if p.port = t.port then s.trapAtInput n f { code := 0x0106, detail := p.value }
        else if (s.site n).seq.canFire then some (s.fire n w f (some k))
        else none

/-! ### The input (R103 to R105, R307) -/

/-- Does an armed stop condition take this token (R428)? -/
def stopTakes (s : State) (n : Nat) (t : Token) : Bool :=
  s.obs.stopArmed &&
  match s.slot? n t.ctx.toNat with
  | none => false
  | some k =>
    !k.frozen && k.handle == s.obs.stopHandle.toNat && (wbit s.obs.stop1 11 || wbits s.obs.stop1 0 11 == t.ip.toNat) &&
    ((wbits s.obs.stop1 32 16 ^^^ t.itn.toNat) &&& wbits s.obs.stop1 48 16) == 0

/-- The source of tokens that a site presents again: they come ahead of new input of their context (R105, R310). -/
def presentSrc : Nat := 4096

/-- The ejection queue of a site that a token stands in: those of the three networks, and 3 for tokens presented again. -/
def Flight.queue (f : Flight) : Nat :=
  if f.src = presentSrc then 3 else match f.vn with | .request => 0 | .reply => 1 | .system => 2

/-- A token is at the head of its ejection queue at its site (R103, R107). Tokens presented again come ahead of the others of their
context (R105, R307). -/
def atHead (l : List Flight) (i : Nat) : Bool :=
  match l[i]? with
  | none => false
  | some f =>
    f.here && !((l.take i).any fun g =>
      g.here && g.dst == f.dst && (g.queue == f.queue || (g.src == presentSrc && g.tok.ctx == f.tok.ctx)))

/-- The input of a site accepts a token: neither the fire queue nor the trap queue is full, and its die is not being wiped (R25, R108,
R120, R439). -/
def inputOpen (s : State) (n : Nat) : Bool :=
  decide ((s.site n).seq.fireQ.length < 32) && (s.site n).seq.trapRoom && !s.pkg.wiping.contains (dieOf n)

/-- The system sink tile of a site is full: it holds 1,024 captured tokens, of all contexts (R105, R307). -/
def State.sinkFull (s : State) (n : Nat) : Bool :=
  decide (1024 ≤ ((s.site n).ctxs.map fun p => p.2.captured.length + p.2.stopped.length).foldl (· + ·) 0)

/-- A token goes into the site's sink tile. -/
def State.capture (s : State) (n : Nat) (f : Flight) : State :=
  s.modCtx n f.tok.ctx.toNat fun k => { k with captured := k.captured ++ [f] }

/-- Held tokens wait to be presented again, ahead of new input (R107). -/
def retryWaits (s : State) (n : Nat) : Bool :=
  (s.site n).seq.released.any fun k => (s.site n).seq.retryQ.any fun f => matchSlot s n f.tok == some k

/-- A reply that is discarded at its destination (R91): its request's generation is old, or its ASID is not the slot's. -/
def replyStale (s : State) (n : Nat) (f : Flight) : Bool :=
  f.tok.cls == 2 &&
  (f.gen != (s.gen f.asid).toNat ||
   match s.slot? n f.tok.ctx.toNat with
   | some k => k.asid != f.asid
   | none => false)

/-- A reply for a context that is away, and whose cistern slice is set (R234). -/
def toCistern (s : State) (n : Nat) (f : Flight) : Bool :=
  f.tok.cls == 2 && (s.slot? n f.tok.ctx.toNat).isNone

/-- What kind of arrival a token is, for the rows of the opcode table. -/
inductive ArrivalKind where
  | plain | hold | release | rmk | cistern | stop
  deriving DecidableEq, Repr

def arrivalKind (s : State) (n : Nat) (f : Flight) : ArrivalKind :=
  if toCistern s n f && !replyStale s n f then .cistern
  else if f.tok.cls == 1 && controlOk f.tok && cop f.tok.payload == 4 then
    if wbit f.tok.payload 3 then .release else .hold
  else if f.tok.cls == 1 && controlOk f.tok && cop f.tok.payload == 5 then .rmk
  else if stopTakes s n f.tok then .stop
  else .plain

/-- Take flight `i` off the mesh, counting it as received (R302). -/
def State.takeFlight (s : State) (i : Nat) (f : Flight) : State :=
  let s := { s with mesh := listDrop1 s.mesh i }
  (s.countRecv f.dst f.tok.ctx.toNat false).modSeq f.dst fun q =>
    { q with inNext := if f.queue < 3 then (f.queue + 1) % 3 else q.inNext, inAt := some s.clk }

/-- A token at the head of its queue as the input handles it (R39, R91, R103 to R106, R307): none where it must wait. -/
def State.tokenArrived (s : State) (i : Nat) (f : Flight) : Option State :=
  let n := f.dst
  let taken := s.takeFlight i f
  if !inputOpen s n then none
  else if replyStale s n f then some taken
  else if f.tok.cls == 1 && !controlOk f.tok then some (taken.trapArrival n f { code := 0x0104, detail := f.tok.payload })
  else
    match s.slot? n f.tok.ctx.toNat with
    | some k =>
      if k.held then none
      else if k.frozen || k.csw then (if s.sinkFull n then none else some (taken.capture n f))
      else taken.onArrival n f
    | none => some (taken.trapArrival n f (illegal 0))

/-- A read's reply has been accepted at its site (R429). -/
def State.fetched (s : State) (f : Flight) : State :=
  match f.fetch with
  | some c => s.measure 0 f.dst (s.clk - c)
  | none => s

/-- TOKEN_ARRIVAL: flight `i` is accepted at its site's input, unless it must wait there. -/
def execTokenArrival (i : Nat) (s : State) : Out :=
  match s.mesh[i]? with
  | none => .next s
  | some f =>
    if !atHead s.mesh i || retryWaits s f.dst || arrivalKind s f.dst f ≠ .plain then .next s
    else .next (((s.tokenArrived i f).map fun t => t.fetched f).getD s)

/-- CSW_HOLD: context 7 holds a context at a site; a hold in force stays (R105). -/
def execCswHold (i : Nat) (s : State) : Out :=
  match s.mesh[i]? with
  | none => .next s
  | some f =>
    if !atHead s.mesh i || !inputOpen s f.dst || retryWaits s f.dst || arrivalKind s f.dst f ≠ .hold then .next s
    else .next ((s.takeFlight i f).modCtx f.dst (wbits f.tok.payload 0 3) fun k => { k with csw := true })

/-- Put captured tokens back at the head of a site's input, in captured order. They were received before (R302). -/
def State.represent (s : State) (n : Nat) (l : List Flight) : State :=
  let s := { s with mesh := (l.map fun f => { f with src := presentSrc, dst := n, here := true }) ++ s.mesh }
  l.foldl (fun s f => s.countSent n f.tok.ctx.toNat) s

/-- CSW_RELEASE: the captured tokens are presented again, ahead of new input; a release of a context that is not held changes
nothing (R105). -/
def execCswRelease (i : Nat) (s : State) : Out :=
  match s.mesh[i]? with
  | none => .next s
  | some f =>
    if !atHead s.mesh i || !inputOpen s f.dst || retryWaits s f.dst || arrivalKind s f.dst f ≠ .release then .next s
    else
      let c := wbits f.tok.payload 0 3
      let s := s.takeFlight i f
      match s.slot? f.dst c with
      | some k =>
        if k.csw && !k.frozen then
          .next ((s.modCtx f.dst c fun k => { k with csw := false, captured := [] }).represent f.dst k.captured)
        else .next (s.modCtx f.dst c fun k => { k with csw := false })
      | none => .next s

/-- CISTERN_WRITE: a reply for an absent context goes to its slice; a full slice holds it and is reported once (R234). The
frame slot of the record needs the entry word, taken from the image in the configuration cache. -/
def execCisternWrite (i : Nat) (s : State) : Out :=
  match s.mesh[i]? with
  | none => .next s
  | some f =>
    let n := f.dst
    let c := f.tok.ctx.toNat
    if !atHead s.mesh i || !inputOpen s n || arrivalKind s n f ≠ .cistern then .next s
    else
      let p := (s.site n).port
      let key := f.asid * 8 + c
      let len := Tbl.getD p.cistLen key 0
      let cnt := Tbl.getD p.cistCount key 0
      if len ≤ cnt then
        if key ∈ p.cistFull then .next s
        else
          let w : Who := { site := n, ctx := c, asid := f.asid, ip := f.tok.ip, itn := f.tok.itn, fp := f.tok.fp, hdr := f.tok.hdr }
          let s := s.logFault w 0x030D c
          .next ((s.modPort n fun p => { p with cistFull := key :: p.cistFull }).notify 0x030D n 0)
      else
        let w := (s.pager.launches.findSome? fun l =>
          if l.2.asid = f.asid ∧ l.2.ctx = c then
            (Tbl.get? s.pager.cache l.2.imageKey).bind fun img =>
              let h := img.bytes
              let pages := field h 0x0A 2
              (List.range pages).findSome? fun k =>
                let base := field h 0x18 4 + k * 16384
                if siteNear n (l.2.bx + field h (base + 8) 1) (l.2.by_ + field h (base + 9) 1) = n then
                  some (field h (base + 0x1000 + 8 * f.tok.ip.toNat) 8)
                else none
          else none).getD 0
        let word := BitVec.ofNat 64 w
        let slot := if isEnt word && decide (2 ≤ entArity word) then f.tok.fp.toNat + entSlot word else f.tok.fp.toNat
        let l := toBytes f.tok.hdr.toNat 8 ++ toBytes f.tok.payload.toNat 8 ++ toBytes n 2 ++ toBytes 1 2 ++ toBytes cnt 4 ++
                 toBytes (slot % 2 ^ 17) 8
        let s := s.takeFlight i f
        let s := s.sysWrite n (Tbl.getD p.cistBase key 0 + 32 * cnt) l
        .next (s.modPort n fun p =>
          { p with
            cistCount := Tbl.set p.cistCount key (cnt + 1)
            cistDeps := Tbl.set p.cistDeps key (Tbl.getD p.cistDeps key [] ++ [f.deps]) })

/-- HELD_TOKEN_RETRY: the first held token of the first released slot is presented again (R107). A token of a context that is
frozen or held by CSW is captured (R105, R307). -/
def execHeldTokenRetry (n : Nat) (s : State) : Out :=
  match (s.site n).seq.released with
  | [] => .next s
  | k :: rest =>
    let dropK (s : State) : State := s.modSeq n fun q => { q with released := rest }
    match (s.site n).seq.retryQ.findIdx? fun f => matchSlot s n f.tok == some k with
    | none => .next (dropK s)
    | some i =>
      if s.claimed n k then .next (dropK s)
      else
        match (s.site n).seq.retryQ[i]? with
        | none => .next s
        | some f =>
          let taken := s.modSeq n fun q => { q with retryQ := listDrop1 q.retryQ i }
          match s.slot? n f.tok.ctx.toNat with
          | some k =>
            if k.frozen || k.csw then
              .next (if s.sinkFull n then s else taken.capture n f)
            else .next ((taken.onArrival n f).getD s)
          | none => .next ((taken.onArrival n f).getD s)

/-! ### Activation slots (R96, R108) -/

/-- The lowest free slot that a context may take. -/
def SeqUnit.freeSlot (q : SeqUnit) (c : Nat) : Option Nat :=
  (List.range 8).find? fun k => !Tbl.has q.acts k && (k != 7 || c == 7)

/-- The registers at firing (R56). -/
def firedRegs (f : Fired) : Vector Word 16 :=
  ((((((Vector.replicate 16 (0 : Word)).set 1 f.d1).set 2 f.d2).set 3 (BitVec.ofNat 64 f.tok.fp.toNat)).set 4
    (BitVec.ofNat 64 f.tok.itn.toNat)).set 5 f.tok.hdr)

def Fired.start (f : Fired) : Activation :=
  { ctx := f.tok.ctx.toNat, ip := f.tok.ip, pc := f.tok.ip.toNat, limit := f.tok.ip.toNat + 1, fp := f.tok.fp, itn := f.tok.itn,
    pz := f.pz, inv := false, ovf := false, dz := false, out := false, regs := firedRegs f, preds := 0, effects := [], armB := f.armB,
    ended := false, feat := 0, tok := f.tok, claim := f.claim, partner := f.partner, step := f.step, trapHandler := f.trapHandler,
    tag := f.tok.smp, hist := f.hist, org := f.org, deps := f.deps, committing := none, endAt := 0, avail := [] }

/-- ACTIVATION_SLOT_GRANT: the first fired activation that has an eligible free slot takes the lowest one (R96, R108). -/
def execActivationSlotGrant (n : Nat) (s : State) : Out :=
  let q := (s.site n).seq
  if q.halt then .next s
  else
    match q.fireQ.findIdx? fun f => (q.freeSlot f.tok.ctx.toNat).isSome with
    | none => .next s
    | some i =>
      match q.fireQ[i]? with
      | none => .next s
      | some f =>
        match q.freeSlot f.tok.ctx.toNat with
        | none => .next s
        | some k => .next (s.modSeq n fun q => { q with fireQ := listDrop1 q.fireQ i, acts := Tbl.set q.acts k f.start })

/-! ### Traps and services delivered (R120 to R123) -/

/-- A token made inside the site for context 7. -/
def innerToken (ip : BitVec 11) (fp : Nat) (itn : BitVec 16) (psn : Bool) (v : Word) : Token :=
  { cls := 3, psn := psn, ctx := 7, dx := 0, dy := 0, ip := ip, port := false, fp := BitVec.ofNat 17 fp, itn := itn, smp := false,
    payload := v }

def innerFlight (s : State) (n : Nat) (t : Token) (deps : List Nat) : Flight :=
  { tok := t, src := n, dst := n, vn := .system, org := engineOrigin, deps := deps, asid := s.asidOf n 7,
    gen := (s.gen (s.asidOf n 7)).toNat, step := false }

/-- Fill slots of a system frame from `fp`. -/
def State.fillFrame (s : State) (n fp : Nat) (vs : List Word) : State :=
  match vs with
  | [] => s
  | v :: r => (s.setFslot n fp { Slot.empty with value := v }).fillFrame n (fp + 1) r

/-- Context 7 fires nothing at a site where it is frozen (R126). -/
def State.frozen7 (s : State) (n : Nat) : Bool := match s.slot? n 7 with | some k => k.frozen | none => false

/-- A token made inside the site has been taken at its input (R103). -/
def State.innerTaken (s : State) (n : Nat) : State := s.modSeq n fun q => { q with inAt := some s.clk }

/-- The head of the trap queue can be delivered, but for its handler word (R120). -/
def trapReady (s : State) (n : Nat) : Bool :=
  let q := (s.site n).seq
  !q.trapQ.isEmpty && q.systemFrame.isSome && q.trapEn && !q.halt && decide (q.fireQ.length < 32) && !s.frozen7 n

/-- The handler word at SQ_TRAPIP.IP, when it is an `ent` with ARITY 1 (R122). -/
def trapHandlerWord (s : State) (n : Nat) : Option Word :=
  (s.codeWord? n 7 (s.site n).seq.trapIp.toNat).filter fun w => isEnt w && entArity w == 1

/-- Mark the activation last fired as one that a trap token fired (R122). -/
def markTrapHandler (l : List Fired) : List Fired :=
  l.dropLast ++ (match l.getLast? with | some f => [{ f with trapHandler := true }] | none => [])

/-- TRAP_DELIVERY: the head of the trap queue takes a system frame and fires the handler; an unusable handler word sets
TRAPBAD and holds the queue (R120 to R122). -/
def execTrapDelivery (n : Nat) (s : State) : Out :=
  let q := (s.site n).seq
  match q.trapQ, q.systemFrame with
  | r :: rest, some fp =>
    if !trapReady s n then .next s
    else
      match trapHandlerWord s n with
      | some w =>
        let s := (s.takeSystemFrame n fp .trapFrame).fillFrame n fp
          [r.hdr, r.payload, r.partner, r.detail, r.status, r.va, r.time, r.handle]
        let s := ((s.modSeq n fun q => { q with trapQ := rest }).count n 13).innerTaken n
        let s := s.fire n w (innerFlight s n (innerToken q.trapIp fp r.itn false r.status) r.deps) none
        .next (s.modSeq n fun q => { q with fireQ := markTrapHandler q.fireQ })
      | none => .next (s.modSeq n fun q => { q with trapBad := true })
  | _, _ => .next s

/-- Slot 0 of a service frame (R123). -/
def serviceCaller (r : ServiceReq) : Word := fieldsWord [(0, r.who.ctx % 8), (3, r.who.asid % 2 ^ 12), (15, r.gen % 2 ^ 16)]

/-- An entry word with its CTX replaced. -/
def withCtx (w : Word) (c : Nat) : Word := BitVec.ofNat 64 (w.toNat - wbits w 37 3 * 2 ^ 37 + c % 8 * 2 ^ 37)

/-- The held service request's handler can fire (R108, R120, R123, R126). -/
def serviceReady (s : State) (n : Nat) : Bool :=
  let q := (s.site n).seq
  q.service.isSome && q.systemFrame.isSome && q.sysEn && q.canFire && !s.frozen7 n

/-- The system frame at `fp` filled for a service request, which is held no longer (R123). -/
def State.serviceFrame (s : State) (n fp : Nat) (r : ServiceReq) : State :=
  ((s.takeSystemFrame n fp .serviceFrame).fillFrame n fp
    [serviceCaller r, r.arg, BitVec.ofNat 64 r.num, withCtx r.reply.entry r.who.ctx,
     fieldsWord [(0, r.reply.fp.toNat), (32, r.reply.itn.toNat)], 0, 0, 0]).modSeq n fun q => { q with service := none }

/-- The token that fires the service handler (R123). -/
def serviceFlight (s : State) (n fp : Nat) (r : ServiceReq) : Flight :=
  innerFlight s n (innerToken (s.site n).seq.sysIp fp r.itn r.psn (BitVec.ofNat 64 r.num)) r.deps

/-- A service request delivered: none where its token must wait, so that the request is held still (R123). -/
def State.serviceDelivered (s : State) (n fp : Nat) (r : ServiceReq) : Option State :=
  ((s.serviceFrame n fp r).innerTaken n).onArrival n (serviceFlight s n fp r)

/-- SERVICE_DELIVERY: the held service request takes a system frame and fires the handler at SQ_SYSIP.IP (R123). -/
def execServiceDelivery (n : Nat) (s : State) : Out :=
  match (s.site n).seq.service, (s.site n).seq.systemFrame with
  | some r, some fp => if serviceReady s n then .next ((s.serviceDelivered n fp r).getD s) else .next s
  | _, _ => .next s

end Sys2Proof.Machine
end

