-- ==== Sys2Proof/Machine/Vector.lean ====
section
/-! DEFINITION. Group 3: the vector engine's words at issue (R177, R186, R187, R189 to R209). What an operation does when
the engine runs it is in VecOps.lean. -/
namespace Sys2Proof.Machine

/-! ### Operand roles (R189) -/

/-- The roles of D, A, B and C: none for a field that is no tile. -/
structure Roles where
  d : Option TileRole := none
  a : Option TileRole := none
  b : Option TileRole := none
  c : Option TileRole := none
  deriving DecidableEq, Repr

/-- The tile roles of a vector word. -/
def vecRoles (i : Instr) : Roles :=
  let t : Option TileRole := some .data
  let m : Option TileRole := some .mask
  let u : Option TileRole := some .either
  match i with
  | .vadd _ | .vsub _ | .vmul _ | .vmin _ | .vmax _ | .vperm _ => { d := t, a := t, b := t }
  | .vfma _ => { d := t, a := t, b := t, c := t }
  | .vabs _ | .vneg _ | .vcvt _ | .vqnt _ | .vdqn _ | .vfn .. | .vred .. | .vscan .. | .vbc _ | .vtrn _ | .vhash ..
  | .vpopc .. | .vhist _ | .vmov _ | .vrnd _ | .vbit .. => { d := t, a := t }
  | .vlog fn _ => { d := u, a := u, b := if fn = .not then none else u }
  | .vsh _ x => { d := t, a := t, b := if x.m.getLsbD 0 then none else t }
  | .vcmp .. => { d := m, a := t, b := t }
  | .vsel _ => { d := t, a := t, b := t, c := m }
  | .vfill .. => { d := t }
  | .vpack .. => { d := t, a := m }
  | .vunpk .. => { d := m, a := t }
  | .vmask .. => { d := m }
  | _ => {}

/-- The tile operands that roles give, D first, then A, B and C. -/
def opnds (r : Roles) (d a b c : Word) : List TileOpnd :=
  let one (p : Nat) (w : Word) (o : Option TileRole) : List TileOpnd :=
    match o with | some k => [{ pos := p, w := w, role := k }] | none => []
  one 0 d r.d ++ one 1 a r.a ++ one 2 b r.b ++ one 3 c r.c

/-! ### What suits an instruction (R177 step 5) -/

/-- EF (reason 1), block scaling (reason 2) and shape (reason 3) of an operand. -/
def fit (d : Desc) (ef scaled : Bool) (rows cols : Option Nat) : Option Nat :=
  if !ef then some 1
  else if d.scaled ≠ scaled then some 2
  else if rows.getD d.rows ≠ d.rows ∨ cols.getD d.cols ≠ d.cols then some 3
  else none

/-- n16 or n32. -/
def isIndexEf (e : EF) : Bool := e == .n16 || e == .n32

/-- D's formats for a sum of elements of format `e` (R201). -/
def sumEf (e d : EF) : Bool := if e == .f64 then d == .f64 else if e.isFloat then d.shortFloat else d.isInt

/-- The shape that the plain form of `vmov` asks of A: that of D, EF, FLAGS and all (R207). -/
def sameShape (d o : Desc) : Option Nat :=
  if o.efc ≠ d.efc then some 1 else if o.flags ≠ d.flags then some 2
  else if o.rows ≠ d.rows ∨ o.cols ≠ d.cols then some 3 else none

/-- Why operand `o` of a vector word does not suit it, given the descriptors of D and A: reasons 1 to 3, and 6 (R190 to
R209). A of `vfn` has D's format (log entry 107), and D of `vscan` any that is not f4x (log entry 108). -/
def vecNeed (i : Instr) (D A : Desc) (o : TileOpnd) : Option Nat :=
  let d := o.d
  let one (x : XF) : Bool := d.ef == x.ef
  let same (x : XF) : Option Nat := fit d (one x) false (some D.rows) (some D.cols)
  let any : Option Nat := fit d true false none none
  match i with
  | .vadd x | .vsub x | .vmul x | .vfma x | .vmin x | .vmax x =>
    if o.pos = 2 then fit d (one x) false (some (if x.m.getLsbD 0 then 1 else D.rows)) (some (if x.m.getLsbD 1 then 1 else D.cols))
    else same x
  | .vcmp _ x =>
    match o.pos with
    | 0 => any
    | 2 => fit d (one x) false (some (if x.m.getLsbD 0 then 1 else D.rows)) (some (if x.m.getLsbD 1 then 1 else D.cols))
    | _ => same x
  | .vabs x | .vneg x | .vlog _ x | .vsh _ x | .vbit _ x | .vfn _ x | .vrnd x => same x
  | .vsel x => if o.pos = 3 then fit d true false (some D.rows) (some D.cols) else same x
  | .vpopc rows x =>
    if o.pos = 1 then fit d (one x) false none none
    else if rows then fit d (isIndexEf d.ef) false (some A.rows) (some 1)
    else fit d (one x) false (some A.rows) (some A.cols)
  | .vcvt x => fit d (d.ef != .f4x && (o.pos != 0 || one x)) false (some D.rows) (some D.cols)
  | .vqnt x =>
    if o.pos = 0 then
      match fit d (one x) true none none with
      | some why => some why
      | none => if x.m ≠ 0 ∧ !d.outl then some 2 else none
    else fit d d.ef.shortFloat false (some D.rows) (some D.cols)
  | .vdqn x => if o.pos = 0 then fit d (one x) false none none else fit d d.ef.scalable true (some D.rows) (some D.cols)
  | .vred fn x =>
    if o.pos = 1 then fit d (one x) false none none
    else
      let ef := match fn with | .sum => sumEf x.ef d.ef | .argmax | .argmin => isIndexEf d.ef | _ => one x
      if x.m.getLsbD 0 then fit d ef false (some 1) (some A.cols) else fit d ef false (some A.rows) (some 1)
  | .vscan _ x =>
    if o.pos = 1 then fit d (one x) false none none
    else fit d (d.ef != .f4x) false (some A.rows) (some A.cols)
  | .vbc x =>
    if o.pos = 0 then fit d (one x) false none none
    else if x.m.getLsbD 0 then fit d (one x) false (some D.rows) none else fit d (one x) false none (some D.cols)
  | .vfill _ x => fit d (one x) false none none
  | .vtrn x => if o.pos = 0 then fit d (one x) false none none else fit d (one x) false (some D.cols) (some D.rows)
  | .vperm x =>
    match o.pos with
    | 2 => fit d (d.ef == .n16) false (some (if x.m.getLsbD 0 then D.rows else 1)) (some D.cols)
    | 1 => fit d (one x) false (some D.rows) none
    | _ => fit d (one x) false none none
  | .vhash n x =>
    if o.pos = 1 then fit d (one x) false none none
    else
      match fit d (d.ef == .n16 || d.ef == .n32 || d.ef == .n64) false (some A.rows) (some A.cols) with
      | some why => some why
      | none => if d.ef.width < n.toNat then some 6 else none
  | .vhist x => if o.pos = 1 then fit d (one x) false none none else fit d (d.ef == .n32) false (some 1) none
  | .vpack rm _ =>
    if o.pos = 1 then any
    else if rm then fit d (d.ef == .n64) false (some 1) (some 1)
    else fit d (d.ef == .n64) false (some A.rows) (some (ceilDiv A.cols 64))
  | .vunpk rm _ =>
    if o.pos = 0 then any
    else if rm then fit d (d.ef == .n64) false (some 1) (some 1)
    else fit d (d.ef == .n64) false (some D.rows) (some (ceilDiv D.cols 64))
  | .vmov x =>
    if o.pos = 0 then (if one x then none else some 1)
    else if x.m = 0 then sameShape D d
    else if D.ef = d.ef ∧ D.flags ≠ d.flags then some 2 else none
  | .vmask .. => any
  | _ => none

/-- Suitability of one operand: KIND, the 4-bit feature (R159), then the instruction's entry. -/
def suitFor (need : TileOpnd → Option Nat) (c : Nat) (feat : BitVec 5) (o : TileOpnd) : Option Nat :=
  match o.role.unfit c o.d with
  | some why => some why
  | none => if o.d.ef.is4bit ∧ !feat.getLsbD 2 then some 1 else need o

/-- The window of a `vmov` (R207): row0 and column0. -/
def windowRow (v : Word) : Nat := wbits v 0 8
def windowCol (v : Word) : Nat := wbits v 8 8

/-- Does the window of `small`'s shape at `v` lie in `big`, on block boundaries when they are block-scaled (R207)? -/
def windowOk (v : Word) (big small : Desc) : Bool :=
  let c0 := windowCol v
  decide (v.toNat < 2 ^ 16) && decide (windowRow v + small.rows ≤ big.rows) && decide (c0 + small.cols ≤ big.cols) &&
  (!big.scaled || (c0 % 24 == 0 && ((c0 + small.cols) % 24 == 0 || c0 + small.cols == big.cols)))

/-- The register operand B is in its range (R203, R207). -/
def vecRange (i : Instr) (D A : Desc) (b : Word) : Bool :=
  match i with
  | .vbc x => decide (b.toNat < (if x.m.getLsbD 0 then A.cols else A.rows))
  | .vmov x =>
    x.m == 0 || (D.ef == A.ef && (if x.m.getLsbD 0 then windowOk b A D else windowOk b D A))
  | _ => true

/-- The checks of R177 on a vector word: the first that fails. Reason 5 shows operand 2 and D's shape word (log entry 104). -/
def vecCheck (s : State) (n : Nat) (t : Activation) (i : Instr) (d a b c : Word) : Option Trap :=
  let l := opnds (vecRoles i) d a b c
  match tileNames s n t.ctx l with
  | some x => some x
  | none =>
    match tileSuits s n l (suitFor (vecNeed i (Desc.of d) (Desc.of a)) t.ctx t.feat) with
    | some x => some x
    | none =>
      if vecRange i (Desc.of d) (Desc.of a) b then none
      else some { code := 0x0201, detail := BitVec.ofNat 64 (2 + 5 * 2 ^ 4 + d.toNat % 2 ^ 32 * 2 ^ 32), handle := handleOf d }

/-- R196: `vcvt` from an integer format to an integer format needs RND 0 (log entry 26). -/
def cvtRndBad (i : Instr) (A : Desc) : Bool :=
  match i with
  | .vcvt x => x.ef.isInt && A.ef.isInt && x.rnd != .rne
  | _ => false

/-- A vector word at issue: R177, the completion target (R186), then the effect. -/
def vecBody (i : Instr) (x : XF) : Body := fun s n t =>
  let d := t.reg x.d
  let a := t.reg x.a
  let b := t.reg x.b
  let c := t.reg x.c
  match vecCheck s n t i d a b c with
  | some e => .error e
  | none =>
    if cvtRndBad i (Desc.of a) then .error (illegal (encode i))
    else
    match replyOf s n t (encode i) x.ct with
    | .error e => .error e
    | .ok r => .ok (s, t.push (.tile i d a b c r))

/-- `vadd` (R190). -/
def execVadd (x : XF) (s : State) : Out := run (.vadd x) (vecBody (.vadd x) x) s
/-- `vsub` (R190). -/
def execVsub (x : XF) (s : State) : Out := run (.vsub x) (vecBody (.vsub x) x) s
/-- `vmul` (R190). -/
def execVmul (x : XF) (s : State) : Out := run (.vmul x) (vecBody (.vmul x) x) s
/-- `vfma` (R190). -/
def execVfma (x : XF) (s : State) : Out := run (.vfma x) (vecBody (.vfma x) x) s
/-- `vmin` (R190). -/
def execVmin (x : XF) (s : State) : Out := run (.vmin x) (vecBody (.vmin x) x) s
/-- `vmax` (R190). -/
def execVmax (x : XF) (s : State) : Out := run (.vmax x) (vecBody (.vmax x) x) s
/-- `vabs` (R190). -/
def execVabs (x : XF) (s : State) : Out := run (.vabs x) (vecBody (.vabs x) x) s
/-- `vneg` (R190). -/
def execVneg (x : XF) (s : State) : Out := run (.vneg x) (vecBody (.vneg x) x) s
/-- `vlog` (R191). -/
def execVlog (fn : VlogFn) (x : XF) (s : State) : Out := run (.vlog fn x) (vecBody (.vlog fn x) x) s
/-- `vsh` (R191). -/
def execVsh (fn : ShFn) (x : XF) (s : State) : Out := run (.vsh fn x) (vecBody (.vsh fn x) x) s
/-- `vcmp` (R192). -/
def execVcmp (c : FCond) (x : XF) (s : State) : Out := run (.vcmp c x) (vecBody (.vcmp c x) x) s
/-- `vsel` (R193). -/
def execVsel (x : XF) (s : State) : Out := run (.vsel x) (vecBody (.vsel x) x) s
/-- `vcvt` (R196). -/
def execVcvt (x : XF) (s : State) : Out := run (.vcvt x) (vecBody (.vcvt x) x) s
/-- `vqnt` (R198). -/
def execVqnt (x : XF) (s : State) : Out := run (.vqnt x) (vecBody (.vqnt x) x) s
/-- `vdqn` (R199). -/
def execVdqn (x : XF) (s : State) : Out := run (.vdqn x) (vecBody (.vdqn x) x) s
/-- `vfn` (R200). -/
def execVfn (fn : FnFn) (x : XF) (s : State) : Out := run (.vfn fn x) (vecBody (.vfn fn x) x) s
/-- `vred` (R201). -/
def execVred (fn : RedFn) (x : XF) (s : State) : Out := run (.vred fn x) (vecBody (.vred fn x) x) s
/-- `vscan` (R202). -/
def execVscan (fn : ScanFn) (x : XF) (s : State) : Out := run (.vscan fn x) (vecBody (.vscan fn x) x) s
/-- `vbc` (R203). -/
def execVbc (x : XF) (s : State) : Out := run (.vbc x) (vecBody (.vbc x) x) s
/-- `vfill` (R204). -/
def execVfill (fn : FillFn) (x : XF) (s : State) : Out := run (.vfill fn x) (vecBody (.vfill fn x) x) s
/-- `vtrn` (R205). -/
def execVtrn (x : XF) (s : State) : Out := run (.vtrn x) (vecBody (.vtrn x) x) s
/-- `vperm` (R206). -/
def execVperm (x : XF) (s : State) : Out := run (.vperm x) (vecBody (.vperm x) x) s
/-- `vhash` (R208). -/
def execVhash (n : BitVec 7) (x : XF) (s : State) : Out := run (.vhash n x) (vecBody (.vhash n x) x) s
/-- `vpopc` (R191). -/
def execVpopc (rows : Bool) (x : XF) (s : State) : Out := run (.vpopc rows x) (vecBody (.vpopc rows x) x) s
/-- `vhist` (R209). -/
def execVhist (x : XF) (s : State) : Out := run (.vhist x) (vecBody (.vhist x) x) s
/-- `vpack` (R195). -/
def execVpack (rm : Bool) (x : XF) (s : State) : Out := run (.vpack rm x) (vecBody (.vpack rm x) x) s
/-- `vunpk` (R195). -/
def execVunpk (rm : Bool) (x : XF) (s : State) : Out := run (.vunpk rm x) (vecBody (.vunpk rm x) x) s
/-- `vmov` (R207). -/
def execVmov (x : XF) (s : State) : Out := run (.vmov x) (vecBody (.vmov x) x) s
/-- `vrnd` (R197). -/
def execVrnd (x : XF) (s : State) : Out := run (.vrnd x) (vecBody (.vrnd x) x) s
/-- `vbit` (R191). -/
def execVbit (fn : VbitFn) (x : XF) (s : State) : Out := run (.vbit fn x) (vecBody (.vbit fn x) x) s
/-- `vmask` (R194). -/
def execVmask (fn : MaskFn) (x : XF) (s : State) : Out := run (.vmask fn x) (vecBody (.vmask fn x) x) s

end Sys2Proof.Machine
end

