-- ==== Sys2Proof/Machine/Matrix.lean ====
section
/-! DEFINITION. Group 4: the matrix engine's words at issue (R249, R250, R273 to R285). What an operation does when the engine
runs it is in MxOps.lean. -/
namespace Sys2Proof.Machine

/-- MX_OWNER (R271). -/
def MatrixUnit.ownerWord (m : MatrixUnit) : Word :=
  match m.owner with
  | some c => BitVec.ofNat 64 (8 + c % 8)
  | none => 0

/-- The tile roles of a matrix word (R274). -/
def mxRoles (i : Instr) : Roles :=
  let t : Option TileRole := some .data
  let k4 : Option TileRole := some (.kind 4)
  match i with
  | .mlds _ => { a := some (.kind 0) }
  | .mstr x => { a := t, c := if x.c = 0 then none else t }
  | .mstt _ | .mspm .. => { a := t }
  | .mepc _ => { a := some (.kind 2) }
  | .mout _ | .mtkr .. => { d := t }
  | .mclaim _ | .mrel _ | .msave _ | .mrest _ => { d := k4, a := k4, b := k4, c := k4 }
  | _ => {}

/-- Why a weight shape does not suit (R250, R251, R275): EF, FLAGS or shape. `feat` is the handler's FEAT. -/
def weightUnfit (d : Desc) (x : XF) (feat : BitVec 5) : Option Nat :=
  if d.efc ≠ x.ef.code then some 1
  else if (d.scaled && x.ef.mxClass == 16) || (d.sparse && !feat.getLsbD 1) then some 2
  else if 32 < d.rows ∨ 96 < d.cols then some 3
  else none

/-- Why the shape word of `mldw` does not suit: the FLAGS must also be ones that R37 allows. -/
def shapeUnfit (d : Desc) (x : XF) (feat : BitVec 5) : Option Nat :=
  if d.efc ≠ x.ef.code then some 1
  else if 8 ≤ d.flags ∨ (d.outl ∧ !(d.scaled && x.ef == .f4x)) ∨ (x.ef = .f4x ∧ !d.scaled) then some 2
  else if d.rows = 0 ∨ d.cols = 0 then some 3
  else weightUnfit d x feat

/-- Why an activation tile does not suit (R250, R278). -/
def actUnfit (d : Desc) (x : XF) (rows : Nat) : Option Nat :=
  if d.ef ≠ x.ef then some 1 else if d.scaled && x.ef.mxClass == 16 then some 2 else if d.rows ≠ rows then some 3 else none

/-- Why operand `o` of a matrix word does not suit it, given A's descriptor. -/
def mxNeed (i : Instr) (A : Desc) (feat : BitVec 5) (o : TileOpnd) : Option Nat :=
  let d := o.d
  match i with
  | .mlds x => weightUnfit d x feat
  | .mstr x => actUnfit d x A.rows
  | .mstt x => if d.ef ≠ x.ef then some 1 else if d.scaled then some 2 else none
  | .mspm .. => fit d (d.ef == .n4) false none none
  | .mepc _ => if d.rows ≤ 8 then fit d (d.ef == .n64) false none (some 32) else some 3
  | .mout x =>
    if d.ef ≠ x.ef then some 1
    else if x.m.getLsbD 1 && d.scaled then some 2
    else if 32 < d.cols then some 3 else none
  | .mtkr _ x => if d.cols ≤ 8 then fit d (d.ef == x.ef) false none none else some 3
  | _ => fit d (d.ef == .n64) false (some 64) (some 32)

/-- 0x0402: the register field and its value (R272). -/
def mxOperand (field : Nat) (v : Word) : Trap :=
  { code := 0x0402, detail := BitVec.ofNat 64 (field + v.toNat % 2 ^ 56 * 2 ^ 8) }

/-- The first repeated tile among the four state-image operands (R268): the field that repeats an earlier one. -/
def repeatedTile (ws : List Word) : Option Nat :=
  (List.range 4).find? fun k => (ws.take k).any fun w => (Desc.of w).gran == (Desc.of (ws.getD k 0)).gran

/-- The register-range checks of each entry (R273 step 4). -/
def mxRange (i : Instr) (x : XF) (feat : BitVec 5) (d a b c : Word) : Option Trap :=
  let A := Desc.of a
  match i with
  | .mldw _ =>
    let sh := Desc.of (BitVec.ofNat 64 (b.toNat % 2 ^ 32))
    match shapeUnfit sh x feat with
    | some why => some { code := 0x0201, detail := BitVec.ofNat 64 (2 + why * 2 ^ 4 + b.toNat % 2 ^ 32 * 2 ^ 32) }
    | none => if a.toNat % 64 ≠ 0 ∨ 2 ^ 21 < a.toNat % 2 ^ 21 + sh.size then some (mxOperand 1 a) else none
  | .mstr _ => if A.rows < d.toNat then some (mxOperand 0 d) else none
  | .mstt _ => if A.cols < d.toNat ∨ 64 < d.toNat then some (mxOperand 0 d) else none
  | .manc _ => if a.toInt < -32768 ∨ 32767 < a.toInt then some (mxOperand 1 a) else none
  | .mout _ => if 2 ^ 32 ≤ a.toNat then some (mxOperand 1 a) else none
  | .mclaim _ | .mrel _ | .msave _ | .mrest _ =>
    match repeatedTile [d, a, b, c] with
    | some k => some (mxOperand k ([d, a, b, c].getD k 0))
    | none => none
  | _ => none

/-- Steps 2 to 4 of R273. -/
def mxCheck (s : State) (n : Nat) (t : Activation) (i : Instr) (x : XF) (d a b c : Word) : Option Trap :=
  let m := (s.site n).mx
  let l := opnds (mxRoles i) d a b c
  if t.ctx ≠ 7 ∧ m.owner ≠ some t.ctx then some { code := 0x0401, detail := m.ownerWord }
  else
    match tileNames s n t.ctx l with
    | some e => some e
    | none =>
      match tileSuits s n l (suitFor (mxNeed i (Desc.of a) t.feat) t.ctx t.feat) with
      | some e => some e
      | none => mxRange i x t.feat d a b c

/-- A matrix word at issue (R273), the completion target, then the effect. -/
def mxBody (i : Instr) (x : XF) : Body := fun s n t =>
  let d := t.reg x.d
  let a := t.reg x.a
  let b := t.reg x.b
  let c := t.reg x.c
  match mxCheck s n t i x d a b c with
  | some e => .error e
  | none =>
    match replyOf s n t (encode i) x.ct with
    | .error e => .error e
    | .ok r => .ok (s, t.push (.tile i d a b c r))

/-- `mlds` (R275). -/
def execMlds (x : XF) (s : State) : Out := run (.mlds x) (mxBody (.mlds x) x) s
/-- `mldw` (R266, R275). -/
def execMldw (x : XF) (s : State) : Out := run (.mldw x) (mxBody (.mldw x) x) s
/-- `mswp` (R277). -/
def execMswp (x : XF) (s : State) : Out := run (.mswp x) (mxBody (.mswp x) x) s
/-- `mstr` (R278). -/
def execMstr (x : XF) (s : State) : Out := run (.mstr x) (mxBody (.mstr x) x) s
/-- `mstt` (R278). -/
def execMstt (x : XF) (s : State) : Out := run (.mstt x) (mxBody (.mstt x) x) s
/-- `macc` (R279). -/
def execMacc (anc : Bool) (x : XF) (s : State) : Out := run (.macc anc x) (mxBody (.macc anc x) x) s
/-- `manc` (R279). -/
def execManc (x : XF) (s : State) : Out := run (.manc x) (mxBody (.manc x) x) s
/-- `mepc` (R280). -/
def execMepc (x : XF) (s : State) : Out := run (.mepc x) (mxBody (.mepc x) x) s
/-- `mout` (R281). -/
def execMout (x : XF) (s : State) : Out := run (.mout x) (mxBody (.mout x) x) s
/-- `mclr` (R282). -/
def execMclr (x : XF) (s : State) : Out := run (.mclr x) (mxBody (.mclr x) x) s
/-- `mtkr` (R283). -/
def execMtkr (idx : Bool) (x : XF) (s : State) : Out := run (.mtkr idx x) (mxBody (.mtkr idx x) x) s
/-- `mtkc` (R283). -/
def execMtkc (x : XF) (s : State) : Out := run (.mtkc x) (mxBody (.mtkc x) x) s
/-- `mspm` (R276). -/
def execMspm (s4 : Bool) (x : XF) (s : State) : Out := run (.mspm s4 x) (mxBody (.mspm s4 x) x) s
/-- `mclaim` (R267, R284). -/
def execMclaim (x : XF) (s : State) : Out := run (.mclaim x) (mxBody (.mclaim x) x) s
/-- `mrel` (R267, R284). -/
def execMrel (x : XF) (s : State) : Out := run (.mrel x) (mxBody (.mrel x) x) s
/-- `msave` (R284). -/
def execMsave (x : XF) (s : State) : Out := run (.msave x) (mxBody (.msave x) x) s
/-- `mrest` (R284). -/
def execMrest (x : XF) (s : State) : Out := run (.mrest x) (mxBody (.mrest x) x) s
/-- `mstat` (R285). -/
def execMstat (take : Bool) (x : XF) (s : State) : Out := run (.mstat take x) (mxBody (.mstat take x) x) s

end Sys2Proof.Machine
end

