-- ==== Sys2Proof/Machine/Functions.lean ====
section
/-! DEFINITION. The functions of `vfn` and of the epilogue (R200, R262), correctly rounded in every mode: the exact value is
enclosed between rationals, finer and finer, until every number of the enclosure rounds alike. -/
namespace Sys2Proof.Machine

/-- An enclosure: the exact value lies in it. -/
structure Encl where
  lo : Rat
  hi : Rat
  deriving DecidableEq, Repr

/-- The largest, and the smallest, multiple of 2^−p on its side of `q`. -/
def ratDown (p : Nat) (q : Rat) : Rat := mkRat (q * ((2 ^ p : Nat) : Rat)).floor (2 ^ p)
def ratUp (p : Nat) (q : Rat) : Rat := mkRat (q * ((2 ^ p : Nat) : Rat)).ceil (2 ^ p)

/-- ln 2 = Σ 1/(k·2^k): lower sum in units of 2^−p. -/
def ln2Sum (p : Nat) (k : Nat) (fuel : Nat) : Nat :=
  match fuel with
  | 0 => 0
  | fuel + 1 => 2 ^ p / (k * 2 ^ k) + ln2Sum p (k + 1) fuel

def enclLn2 (p : Nat) : Encl :=
  let lo := ln2Sum p 1 p
  { lo := mkRat lo (2 ^ p), hi := mkRat (lo + p + 2 : Nat) (2 ^ p) }

/-- The Taylor terms of e^r − 1 in units of 2^−p, each cut off below: their sum and their number. -/
def expTerms (num den : Nat) (term k : Nat) (fuel : Nat) : Nat × Nat :=
  match fuel with
  | 0 => (0, 0)
  | fuel + 1 =>
    let t := term * num / (den * k)
    if t = 0 then (0, 1)
    else
      let r := expTerms num den t (k + 1) fuel
      (t + r.1, r.2 + 1)

/-- e^r for 0 ≤ r < 2: the cut of each term, carried on, stays below 2 units. -/
def enclExpSmall (r : Rat) (p : Nat) : Encl :=
  let s := expTerms r.num.toNat r.den (2 ^ p) 1 (2 * p + 16)
  { lo := mkRat (2 ^ p + s.1 : Nat) (2 ^ p), hi := mkRat (2 ^ p + s.1 + 4 * s.2 + 8 : Nat) (2 ^ p) }

/-- 2^x for every x between `a` and `b`, which lie within 1 of each other. -/
def enclExp2 (a b : Rat) (p : Nat) : Encl :=
  let n := a.floor
  let l := enclLn2 p
  let lo := enclExpSmall (ratDown p ((a - n) * l.lo)) p
  let hi := enclExpSmall (ratUp p ((b - n) * l.hi)) p
  { lo := pow2 n * lo.lo, hi := pow2 n * hi.hi }

/-- e^y. -/
def enclExp (y : Rat) (p : Nat) : Encl :=
  let l := enclLn2 p
  let a := if y < 0 then y / l.lo else y / l.hi
  let b := if y < 0 then y / l.hi else y / l.lo
  enclExp2 (ratDown p a) (ratUp p b) p

/-- Σ s^(2k+1)/(2k+1) in units of 2^−p for 0 ≤ s, each term cut off below: the sum and the number of terms. -/
def atanhTerms (num den : Nat) (pw k : Nat) (fuel : Nat) : Nat × Nat :=
  match fuel with
  | 0 => (0, 0)
  | fuel + 1 =>
    if pw = 0 then (0, 1)
    else
      let r := atanhTerms num den (pw * (num * num) / (den * den)) (k + 1) fuel
      (pw / (2 * k + 1) + r.1, r.2 + 1)

/-- ln m for 2/3 ≤ m ≤ 3/2. -/
def enclLnNear (m : Rat) (p : Nat) : Encl :=
  let s := (m - 1) / (m + 1)
  let a := ratAbs s
  let r := atanhTerms a.num.toNat a.den ((a * ((2 ^ p : Nat) : Rat)).floor.toNat) 0 (p + 8)
  let lo := mkRat (2 * r.1 : Nat) (2 ^ p)
  let hi := mkRat (2 * r.1 + 6 * r.2 + 12 : Nat) (2 ^ p)
  if s < 0 then { lo := -hi, hi := -lo } else { lo := lo, hi := hi }

def enclLog2 (x : Rat) (p : Nat) : Encl :=
  let e := ilog2 x
  let m := x / pow2 e
  let (e, m) := if 4 / 3 < m then (e + 1, m / 2) else (e, m)
  let l := enclLn2 p
  let n := enclLnNear m p
  let a := if n.lo < 0 then n.lo / l.lo else n.lo / l.hi
  let b := if n.hi < 0 then n.hi / l.hi else n.hi / l.lo
  { lo := e + a, hi := e + b }

/-- Σ (−1)^k s^(2k+1)/(2k+1) for s = 1/d: even terms cut below, odd terms cut above, and the reverse. -/
def atanInv (d : Nat) (pw k : Nat) (fuel : Nat) : Int × Int :=
  match fuel with
  | 0 => (-1, 1)
  | fuel + 1 =>
    let r := atanInv d (pw / (d * d)) (k + 1) fuel
    let t : Int := (pw / (2 * k + 1) : Nat)
    if k % 2 = 0 then (t + r.1, t + 2 + r.2) else (r.1 - t - 2, r.2 - t)

/-- π = 16·atan(1/5) − 4·atan(1/239). -/
def enclPi (p : Nat) : Encl :=
  let a := atanInv 5 (2 ^ p / 5) 0 (p / 4 + 4)
  let b := atanInv 239 (2 ^ p / 239) 0 (p / 4 + 4)
  { lo := mkRat (16 * a.1 - 4 * b.2) (2 ^ p), hi := mkRat (16 * a.2 - 4 * b.1) (2 ^ p) }

/-- Σ (−1)^k w^k/(k!·(2k+1)), the terms enclosed between `tl` and `th` units of 2^−p. -/
def erfSum (w : Rat) (tl th k : Nat) (fuel : Nat) : Int × Int :=
  match fuel with
  | 0 => (-(th : Int), th)
  | fuel + 1 =>
    let num := w.num.toNat
    let den := w.den * (k + 1)
    let r := erfSum w (tl * num / den) (th * num / den + 1) (k + 1) fuel
    let a : Int := (tl / (2 * k + 1) : Nat)
    let b : Int := (th / (2 * k + 1) + 1 : Nat)
    if k % 2 = 0 then (a + r.1, b + r.2) else (r.1 - b, r.2 - a)

/-- √q from below and above. -/
def enclSqrt (lo hi : Rat) (p : Nat) : Encl :=
  let down (q : Rat) : Nat := let n := (q * ((2 ^ (2 * p) : Nat) : Rat)).floor.toNat; isqrt n
  { lo := mkRat (down lo) (2 ^ p), hi := mkRat (down hi + 1 : Nat) (2 ^ p) }

/-- (x/2)(1 + erf(x/√2)) = x/2 + (x²/2)·√(2/π)·Σ (−1)^k (x²/2)^k/(k!·(2k+1)). -/
def enclGelu (x : Rat) (p : Nat) : Encl :=
  let w := x * x / 2
  let s := erfSum w (2 ^ p) (2 ^ p) 0 (2 * p + 256)
  let pi := enclPi p
  let c := enclSqrt (2 / pi.hi) (2 / pi.lo) p
  let lo := mkRat s.1 (2 ^ p)
  let hi := mkRat s.2 (2 ^ p)
  { lo := x / 2 + w * (if lo < 0 then c.hi * lo else c.lo * lo), hi := x / 2 + w * (if hi < 0 then c.lo * hi else c.hi * hi) }

/-- The enclosure of a function at a finite non-zero x in its domain, with the exact value where it is rational. Where the
value is nearer to 0, to 1, to x or to ∞ than any format can tell, a number on the same side stands in for it. -/
def enclFn (fn : FnFn) (x : Rat) (p : Nat) : Encl :=
  let pt (q : Rat) : Encl := { lo := q, hi := q }
  match fn with
  | .exp2 =>
    if 1000 < x then pt (pow2 1100) else if x < -1000 then pt (pow2 (-1100))
    else if x.den = 1 then pt (pow2 x.num) else enclExp2 x x p
  | .log2 => if x = pow2 (ilog2 x) then pt (ilog2 x) else enclLog2 x p
  | .rcp => pt (1 / x)
  | .rsqrt =>
    let e := enclSqrt (1 / x) (1 / x) p
    if e.lo * e.lo * x = 1 then pt e.lo else e
  | .tanh =>
    let a := ratAbs x
    if 200 < a then pt (if x < 0 then pow2 (-200) - 1 else 1 - pow2 (-200))
    else
      let u := enclExp (2 * a) p
      let lo := 1 - 2 / (u.lo + 1)
      let hi := 1 - 2 / (u.hi + 1)
      if x < 0 then { lo := -hi, hi := -lo } else { lo := lo, hi := hi }
  | .sigmoid =>
    if 200 < x then pt (1 - pow2 (-200)) else if x < -200 then pt (pow2 (-1100))
    else
      let u := enclExp (-x) p
      { lo := 1 / (1 + u.hi), hi := 1 / (1 + u.lo) }
  | .silu =>
    if 200 < x then pt (x * (1 - pow2 (-200))) else if x < -200 then pt (-pow2 (-1100))
    else
      let u := enclExp (-x) p
      if x < 0 then { lo := x / (1 + u.lo), hi := x / (1 + u.hi) } else { lo := x / (1 + u.hi), hi := x / (1 + u.lo) }
  | .gelu =>
    if 16 < x then pt (x * (1 - pow2 (-100))) else if x < -16 then pt (-pow2 (-1100))
    else enclGelu x p

/-- Do all numbers of the enclosure round alike in f16, bf16 and f32 in every mode? Every place where a rounding changes is
a multiple of 2^−17 of binary32's spacing (R168). -/
def Encl.settled (e : Encl) : Bool :=
  if e.lo = e.hi then true
  else if e.lo ≤ 0 ∧ 0 ≤ e.hi then false
  else
    let m := if ratAbs e.lo < ratAbs e.hi then ratAbs e.lo else ratAbs e.hi
    let lg := ilog2 m
    let g := pow2 ((if lg < -126 then -126 else lg) - 40)
    let q := e.lo / g
    q.floor == (e.hi / g).floor && (q.floor : Rat) != q

/-- The enclosure at doubling precision until it is settled. -/
def settle (fn : FnFn) (x : Rat) (p fuel : Nat) : Rat :=
  let e := enclFn fn x p
  match fuel with
  | 0 => (e.lo + e.hi) / 2
  | fuel + 1 => if e.settled then (e.lo + e.hi) / 2 else settle fn x (2 * p) fuel

/-- The value of a function, up to what rounds alike in every mode, and its exceptions (R200). -/
def fnVal (fn : FnFn) (v : Val) : Val × Exc :=
  match v with
  | .nan => (.nan, Exc.none)
  | .inf neg =>
    match fn with
    | .exp2 => (if neg then .fin false 0 else .inf false, Exc.none)
    | .log2 => if neg then (.nan, { inv := true }) else (.inf false, Exc.none)
    | .rcp => (.fin neg 0, Exc.none)
    | .rsqrt => if neg then (.nan, { inv := true }) else (.fin false 0, Exc.none)
    | .tanh => (.fin neg 1, Exc.none)
    | .sigmoid => (.fin false (if neg then 0 else 1), Exc.none)
    | .silu | .gelu => (if neg then .fin true 0 else .inf false, Exc.none)
  | .fin neg m =>
    if m = 0 then
      match fn with
      | .exp2 => (.fin false 1, Exc.none)
      | .log2 => (.inf true, { dz := true })
      | .rcp | .rsqrt => (.inf neg, { dz := true })
      | .sigmoid => (.fin false (1 / 2), Exc.none)
      | .tanh | .silu | .gelu => (.fin neg 0, Exc.none)
    else
      let x := v.rat
      match fn with
      | .log2 | .rsqrt => if neg then (.nan, { inv := true }) else (Val.ofRat (settle fn x 128 6), Exc.none)
      | _ => (Val.ofRat (settle fn x 128 6), Exc.none)

end Sys2Proof.Machine
end

