-- ==== Sys2Proof/Machine/TileImage.lean ====
section
/-! DEFINITION. The image of a tile: element codes, block scales and outlier entries out of its bytes and back (R160, R166),
and the tile store's reads and writes of it (R171, R173). -/
namespace Sys2Proof.Machine

/-- The codes of a tile by row, its block scales by row, and its outlier entries by row and block. -/
structure Img where
  rows : List (List Nat)
  scales : List (List Nat)
  outl : List (List (List Nat))
  deriving DecidableEq, Repr

/-- The `n` codes of width `w` that a row's bytes hold (R160). -/
def unpackRow (w : Nat) (l : List Byte) (n : Nat) : List Nat :=
  if w = 4 then ((l.flatMap fun b => [b.toNat % 16, b.toNat / 16]).take n)
  else (List.range n).map fun j => field l (j * (w / 8)) (w / 8)

/-- Nibbles in pairs; the pad nibble is zero (R160). -/
def packNibbles (l : List Nat) : List Byte :=
  match l with
  | [] => []
  | [a] => [BitVec.ofNat 8 (a % 16)]
  | a :: b :: r => BitVec.ofNat 8 (a % 16 + b % 16 * 16) :: packNibbles r

def packRow (w : Nat) (l : List Nat) : List Byte :=
  if w = 4 then packNibbles l else l.flatMap fun c => toBytes c (w / 8)

/-- The image that a tile's bytes hold. -/
def Img.of (d : Desc) (l : List Byte) : Img :=
  { rows := (List.range d.rows).map fun r => unpackRow d.ef.width (slice l (r * d.rowBytes) d.rowBytes) d.cols
    scales := if d.scaled then
        (List.range d.rows).map fun r => (List.range d.blocks).map fun b => field l (d.scaleBase + (r * d.blocks + b) * 2) 2
      else []
    outl := if d.outl then
        (List.range d.rows).map fun r => (List.range d.blocks).map fun b =>
          let o := d.outBase + (r * d.blocks + b) * 8
          [field l o 4, field l (o + 4) 4]
      else [] }

/-- The bytes of an image (R160, R166). -/
def Img.bytes (d : Desc) (m : Img) : List Byte :=
  m.rows.flatMap (packRow d.ef.width) ++
  (if d.scaled then m.scales.flatMap fun r => r.flatMap fun s => toBytes s 2 else []) ++
  (if d.outl then m.outl.flatMap fun r => r.flatMap fun b => b.flatMap fun e => toBytes e 4 else [])

def Img.code (m : Img) (r j : Nat) : Nat := (m.rows.getD r []).getD j 0

/-- The exact value of an element of a tile that is not block-scaled. -/
def Img.val (m : Img) (e : EF) (r j : Nat) : Val := codeVal e (m.code r j)

/-- An element of a tile, through scaled(c, s) when it is block-scaled (R167). -/
def Img.elem (m : Img) (d : Desc) (r j : Nat) : Val × Exc :=
  if d.scaled then
    scaled d.ef (m.code r j) ((m.scales.getD r []).getD (j / 24) 0) ((m.outl.getD r []).getD (j / 24) []) (j % 24)
  else (m.val d.ef r j, Exc.none)

/-- A row of elements. -/
def Img.rowElems (m : Img) (d : Desc) (r : Nat) : List (Val × Exc) := (List.range d.cols).map (m.elem d r)

/-- The row and the bytes of a tile that hold its data for row `r`: element, scale and outlier planes (R225). -/
def Desc.rowParts (d : Desc) (r : Nat) : List (Nat × Nat) :=
  [(r * d.rowBytes, d.rowBytes)] ++
  (if d.scaled then [(d.scaleBase + r * d.blocks * 2, d.blocks * 2)] else []) ++
  (if d.outl then [(d.outBase + r * d.blocks * 8, d.blocks * 8)] else [])

/-- The address of the first byte of a tile in its home's store. -/
def Desc.base (d : Desc) : Nat := tileBase d.site + d.gran * 1024

/-- A row mask with every row of `n` set. -/
def allRows (n : Nat) : Word := BitVec.ofNat 64 (2 ^ n - 1)

def rowMask (f : Nat → Bool) (n : Nat) : Word := BitVec.ofNat 64 ((List.range n).foldl (fun a r => a + b2n (f r) * 2 ^ r) 0)

/-- The rows of a tile that an uncorrectable 8 B unit feeds, and the first such unit as a byte offset in the tile (R173). -/
def State.badRows (s : State) (d : Desc) : Word × Option Nat :=
  let bad := (unitsOf d.base d.size).filter s.mem.damaged
  let hit (lo len : Nat) : Bool := bad.any fun u => decide (u * 8 < lo + len ∧ lo < u * 8 + 8)
  (rowMask (fun r => (d.rowParts r).any fun p => hit (d.base + p.1) p.2) d.rows,
   match bad with | [] => none | u :: _ => some (u * 8 - d.base))

/-- A stretch of a tile that an operation reads: the row that its data belongs to, its offset and its length. -/
structure RowPart where
  row : Nat
  off : Nat
  len : Nat
  deriving DecidableEq, Repr

/-- Every byte that holds a row's data. -/
def Desc.allParts (d : Desc) : List RowPart := (List.range d.rows).flatMap fun r => (d.rowParts r).map fun p => ⟨r, p.1, p.2⟩

/-- The bytes that hold one element's code. -/
def Desc.elemPart (d : Desc) (r j : Nat) : RowPart := ⟨r, r * d.rowBytes + j * d.ef.width / 8, ceilDiv d.ef.width 8⟩

/-- The bytes of a window of `h` rows and `w` columns: elements, and the scales and outlier entries of its blocks (R207). -/
def Desc.windowParts (d : Desc) (r0 c0 h w : Nat) : List RowPart :=
  let z := d.ef.width
  let nb := ceilDiv w 24
  (List.range h).flatMap fun k =>
    let r := r0 + k
    let lo := c0 * z / 8
    [⟨r, r * d.rowBytes + lo, ceilDiv ((c0 + w) * z) 8 - lo⟩] ++
    (if d.scaled then [⟨r, d.scaleBase + (r * d.blocks + c0 / 24) * 2, nb * 2⟩] else []) ++
    (if d.outl then [⟨r, d.outBase + (r * d.blocks + c0 / 24) * 8, nb * 8⟩] else [])

/-- Does a stretch hold a byte of the unit? -/
def RowPart.touches (p : RowPart) (d : Desc) (u : Nat) : Bool :=
  decide (u * 8 < d.base + p.off + p.len ∧ d.base + p.off < u * 8 + 8)

/-- The rows whose stretches a unit holds. -/
def unitRows (d : Desc) (l : List RowPart) (u : Nat) : Word := rowMask (fun r => l.any fun p => p.row == r && p.touches d u) 64

/-- The uncorrectable units among those that the stretches touch (R173). -/
def State.badUnits (s : State) (d : Desc) (l : List RowPart) : List Nat :=
  (unitsOf d.base d.size).filter fun u => s.mem.damaged u && l.any fun p => p.touches d u

/-- The bytes of a unit that the stretches hold. -/
def partsMask (d : Desc) (l : List RowPart) (u : Nat) : BitVec 8 :=
  l.foldl (fun m p => m ||| unitMask (d.base + p.off) p.len u) 0

/-- Read the units that stretches of a tile hold, in turn; the others are not read and show 0. -/
def State.readSome (s : State) (g : Agent) (d : Desc) (l : List RowPart) (us : List Nat) : List Word × State :=
  match us with
  | [] => ([], s)
  | u :: r =>
    let (v, s) := if l.any fun p => p.touches d u then s.readUnit g (partsMask d l u) u else (0, s)
    let (vs, s) := s.readSome g d l r
    (v :: vs, s)

/-- The units of a tile that the stretches touch, read by an engine: the tile's bytes, those of other units 0. -/
def State.readParts (s : State) (g : Agent) (d : Desc) (l : List RowPart) : List Byte × State :=
  let us := unitsOf d.base d.size
  let (vs, s) := s.readSome g d l us
  ((vs.flatMap fun v => toBytes v.toNat 8).take d.size, s.settleUnits (us.filter fun u => l.any fun p => p.touches d u))

/-- Read a tile's bytes, with the values that R84 allows, correcting its single-bit errors. -/
def State.readTile (s : State) (g : Agent) (d : Desc) : List Byte × State := s.readBytes g d.base d.size

/-- The poison mask of the live or dying tile at a descriptor's granule. -/
def State.tilePoison (s : State) (d : Desc) : Word :=
  match Tbl.get? (s.site d.site).tile.tiles d.gran with
  | some t => t.poison
  | none => 0

def State.setPoison (s : State) (d : Desc) (p : Word) : State :=
  s.modTile d.site fun u =>
    match Tbl.get? u.tiles d.gran with
    | some t => { u with tiles := Tbl.set u.tiles d.gran { t with poison := p } }
    | none => u

/-- Does the tile serve an operation committed with number `q`: live, or dying since a later commit (R175, R178)? -/
def Tile.serves (t : Tile) (q : Nat) : Bool := match t.dying with | none => true | some k => decide (q < k)

/-- The tile that a descriptor names, for an operation committed with number `q`: live, or dying since a later commit
(R175, R178). -/
def State.tileFor? (s : State) (d : Desc) (q : Nat) : Option Tile :=
  let u := (s.site d.site).tile
  match Tbl.get? u.tiles d.gran with
  | some t =>
    if u.gen d.gran = d.gen ∧ t.serves q then some t else none
  | none => none

/-- A logged fault that names a tile, an address or rows beside its code (R46). -/
def State.logAt (s : State) (w : Who) (code : Nat) (detail va handle : Nat) (pmask : Word) : State :=
  let f : FaultInfo :=
    { code := code, named := false, who := { w with hdr := 0, ip := 0, itn := 0, fp := 0 }, va := va, handle := handle,
      pmask := pmask, detail := BitVec.ofNat 64 detail }
  (s.record (ringKey w.ctx w.asid) f).2

/-- The record of a request that fails: 0x0206 of a rejected landing is the vector engine's and names no token (R183), the others are the port's (R237). -/
def State.logReject (s : State) (w : Who) (code detail va : Nat) : State :=
  if code = 0x0206 then s.logAt w code detail va 0 0 else s.logPort w code detail va 0 0

end Sys2Proof.Machine
end

