-- ==== Sys2Proof/Machine/VecOps.lean ====
section
/-! DEFINITION. What each vector operation computes (R190 to R209): the codes of D, the exceptions of each row of D, and the
generator after its draws. -/
namespace Sys2Proof.Machine

/-- The operands of a vector operation: descriptors, images, scalar registers, and G_vec. -/
structure VecIn where
  dD : Desc
  dA : Desc
  dB : Desc
  dC : Desc
  D : Img
  A : Img
  B : Img
  C : Img
  a : Word
  b : Word
  g : Word
  deriving DecidableEq, Repr

/-- The image of D, the exceptions of each of its rows, and G_vec. -/
structure VecOut where
  img : Img
  exc : List Exc
  g : Word
  deriving DecidableEq, Repr

/-- A row of results put in format with `put`, drawing once per element where `draws` (R169). -/
def putRow (put : Nat → Val × Exc → Nat × Exc) (draws : Bool) (g : Word) (l : List (Val × Exc)) : List Nat × Exc × Word :=
  match l with
  | [] => ([], Exc.none, g)
  | y :: r =>
    let g := if draws then genStep g else g
    let c := put (drawOf g) y
    let q := putRow put draws g r
    (c.1 :: q.1, c.2.or q.2.1, q.2.2)

/-- Rows of results in row-major order. -/
def putRows (put : Nat → Val × Exc → Nat × Exc) (draws : Bool) (g : Word) (m : List (List (Val × Exc))) :
    List (List Nat) × List Exc × Word :=
  match m with
  | [] => ([], [], g)
  | l :: r =>
    let p := putRow put draws g l
    let q := putRows put draws p.2.2 r
    (p.1 :: q.1, p.2.1 :: q.2.1, q.2.2)

/-- An exact result into `e`: round_to for a float or binary8 format, int_fit for an integer format (R168). -/
def putExact (e : EF) (rnd : Rnd) (sat : Bool) (dr : Nat) (y : Val × Exc) : Nat × Exc :=
  if e.isInt then
    let r := intFit e sat y.1.rat.floor
    (r.1, y.2.or r.2)
  else
    let r := roundCode e rnd sat dr y.1
    (r.1, y.2.or r.2)

def Img.ofRows (m : List (List Nat)) : Img := { rows := m, scales := [], outl := [] }

/-- Results that `putExact` writes in `e`. -/
def VecIn.exact (v : VecIn) (e : EF) (x : XF) (m : List (List (Val × Exc))) : VecOut :=
  let r := putRows (putExact e x.rnd x.sat) (x.rnd == .sr && !e.isInt) v.g m
  { img := Img.ofRows r.1, exc := r.2.1, g := r.2.2 }

/-- Results of A's format converted into `e` (R196): a float result is rounded into an integer format by the rounding mode. -/
def VecIn.into (v : VecIn) (e : EF) (x : XF) (m : List (List (Val × Exc))) : VecOut :=
  if e.isInt && !v.dA.ef.isInt then
    let put (dr : Nat) (y : Val × Exc) : Nat × Exc := let r := encodeVal e x.rnd x.sat dr y.1; (r.1, y.2.or r.2)
    let r := putRows put (x.rnd == .sr) v.g m
    { img := Img.ofRows r.1, exc := r.2.1, g := r.2.2 }
  else v.exact e x m

/-- Codes and exceptions that are given as they are. -/
def VecIn.plain (v : VecIn) (m : List (List (Nat × Exc))) : VecOut :=
  { img := Img.ofRows (m.map fun l => l.map (·.1)), exc := m.map fun l => l.foldl (fun e c => e.or c.2) Exc.none, g := v.g }

def VecIn.codes (v : VecIn) (m : List (List Nat)) : VecOut := v.plain (m.map fun l => l.map fun c => (c, Exc.none))

/-- A matrix of D's shape. -/
def grid {α : Type} (d : Desc) (f : Nat → Nat → α) : List (List α) :=
  (List.range d.rows).map fun r => (List.range d.cols).map fun j => f r j

/-! ### Elementwise (R190 to R193) -/

/-- The exact result of R190. -/
def arith (i : Instr) (rnd : Rnd) (a b c : Val) : Val × Exc :=
  match i with
  | .vadd _ => Val.add rnd a b
  | .vsub _ => Val.sub rnd a b
  | .vmul _ => Val.mul a b
  | .vfma _ => Val.fma rnd a b c
  | .vmin _ => (a.minNum b, Exc.none)
  | .vmax _ => (a.maxNum b, Exc.none)
  | .vabs _ => (a.abs, Exc.none)
  | _ => (a.neg, Exc.none)

/-- B's row and column under .brow and .bcol. -/
def brow (x : XF) (r : Nat) : Nat := if x.m.getLsbD 0 then 0 else r
def bcol (x : XF) (j : Nat) : Nat := if x.m.getLsbD 1 then 0 else j

def vecArith (i : Instr) (x : XF) (v : VecIn) : VecOut :=
  v.exact x.ef x (grid v.dD fun r j =>
    arith i x.rnd (v.A.val x.ef r j) (v.B.val x.ef (brow x r) (bcol x j)) (v.C.val x.ef r j))

/-- A bitwise function on w-bit codes (R191). -/
def logCode (fn : VlogFn) (w a b : Nat) : Nat :=
  match fn with
  | .and => a &&& b
  | .or => a ||| b
  | .xor => a ^^^ b
  | .andn => a &&& (2 ^ w - 1 - b)
  | .not => 2 ^ w - 1 - a

/-- A shift of a w-bit code by n (R191). -/
def shiftCode (fn : ShFn) (w a n : Nat) : Nat :=
  let sign := a / 2 ^ (w - 1) % 2 == 1
  match fn with
  | .shl => if w ≤ n then 0 else a * 2 ^ n % 2 ^ w
  | .shr => if w ≤ n then 0 else a / 2 ^ n
  | .sra => if w ≤ n then (if sign then 2 ^ w - 1 else 0) else (sext a w / (2 ^ n : Nat) % (2 ^ w : Nat)).toNat
  | .rotl => let k := n % w; a * 2 ^ k % 2 ^ w + a / 2 ^ (w - k)

/-- The low `n` bits of `a` in reverse order. -/
def revCode (n a : Nat) : Nat :=
  match n with
  | 0 => 0
  | n + 1 => a % 2 * 2 ^ n + revCode n (a / 2)

def popCode (n a : Nat) : Nat :=
  match n with
  | 0 => 0
  | n + 1 => a % 2 + popCode n (a / 2)

def ctzCode (n a : Nat) : Nat :=
  match n with
  | 0 => 0
  | n + 1 => if a % 2 = 1 then 0 else 1 + ctzCode n (a / 2)

def bitCode (fn : VbitFn) (w a : Nat) : Nat :=
  match fn with
  | .clz => ctzCode w (revCode w a)
  | .ctz => ctzCode w a
  | .brev => revCode w a
  | .bswap => ofBytes (toBytes a (w / 8)).reverse

/-- The six bits of a 4-bit signed element are those of its value (R191). -/
def amountOf (e : EF) (c : Nat) : Nat := ((codeInt e c) % 64).toNat

def vecCmp (c : FCond) (x : XF) (v : VecIn) : VecOut :=
  v.plain (grid v.dD fun r j =>
    let a := v.A.code r j
    let b := v.B.code (brow x r) (bcol x j)
    if x.ef.isInt then (b2n (icompare c (codeInt x.ef a) (codeInt x.ef b)), Exc.none)
    else
      let q := fcompare c (codeVal x.ef a) (codeVal x.ef b)
      (b2n q.1, q.2))

/-! ### Masks (R194, R195) -/

def maskTrue (fn : MaskFn) (k : Word) (r j : Nat) : Bool :=
  match fn with
  | .pfx => decide (j < k.toNat)
  | .rows => k.getLsbD r
  | .lower => decide ((j : Int) ≤ r + k.toInt)
  | .upper => decide ((r + k.toInt : Int) ≤ j)

/-- The bits that hold where `f` does. -/
def bitsOf (f : Nat → Bool) (n : Nat) : Nat := (List.range n).foldl (fun a i => a + b2n (f i) * 2 ^ i) 0

def vecPack (rm : Bool) (v : VecIn) : VecOut :=
  let on (r j : Nat) : Bool := v.A.code r j != 0
  if rm then v.codes [[bitsOf (fun r => (List.range v.dA.cols).any (on r)) v.dA.rows]]
  else v.codes (grid v.dD fun r k => bitsOf (fun i => decide (64 * k + i < v.dA.cols) && on r (64 * k + i)) 64)

def vecUnpk (rm : Bool) (v : VecIn) : VecOut :=
  v.codes (grid v.dD fun r j => if rm then v.A.code 0 0 / 2 ^ r % 2 else v.A.code r (j / 64) / 2 ^ (j % 64) % 2)

/-! ### Conversion and quantisation (R196 to R199) -/

/-- `vcvt`: a float or binary8 value goes to an integer by round_int; all else as R168 (R196). -/
def vecCvt (x : XF) (v : VecIn) : VecOut :=
  v.into x.ef x (grid v.dD fun r j => (v.A.val v.dA.ef r j, Exc.none))

/-- `vrnd`: to an integral value of the same format; ±∞ and NaN pass, a zero keeps its sign, nothing is raised (R197). -/
def vecRnd (x : XF) (v : VecIn) : VecOut :=
  let put (dr : Nat) (y : Val × Exc) : Nat × Exc :=
    match y.1 with
    | .fin neg m => (valCode x.ef (.fin neg (roundQ x.rnd (!neg) dr m : Rat)), Exc.none)
    | _ => (0, Exc.none)
  let r := putRows put (x.rnd == .sr) v.g (grid v.dD fun r j => (v.A.val x.ef r j, Exc.none))
  let m := Img.ofRows r.1
  { img := Img.ofRows (grid v.dD fun r j => if (v.A.val x.ef r j).isFin then m.code r j else v.A.code r j)
    exc := r.2.1, g := r.2.2 }

/-- The rank of an outlier candidate: NaN, then ±∞, then finite by descending magnitude (R198). -/
def outBefore (a b : Val) : Bool :=
  match a, b with
  | .nan, .nan => false
  | .nan, _ => true
  | .inf _, .fin .. => true
  | .fin _ m, .fin _ n => decide (n < m)
  | _, _ => false

/-- Insert after every candidate that does not come after it, so that ties stay in ascending position. -/
def outInsert (x : Nat × Val) (l : List (Nat × Val)) : List (Nat × Val) :=
  match l with
  | [] => [x]
  | y :: r => if outBefore x.2 y.2 then x :: y :: r else y :: outInsert x r

def outSort (l : List (Nat × Val)) : List (Nat × Val) := l.foldl (fun acc x => outInsert x acc) []

/-- maxf of R198. -/
def quantMax (e : EF) : Rat := match EF.fmt e with | some f => f.maxfin | none => (e.maxInt : Rat)

/-- One draw for each element, in order (R169, R198). -/
def takeDraws (sr : Bool) (g : Word) (n : Nat) : List Nat × Word :=
  match n with
  | 0 => ([], g)
  | n + 1 =>
    if sr then
      let g := genStep g
      let r := takeDraws sr g n
      (drawOf g :: r.1, r.2)
    else
      let r := takeDraws sr g n
      (0 :: r.1, r.2)

/-- A quantised block: codes, scale, outlier entries, exceptions. -/
structure Quant where
  codes : List Nat
  scale : Nat
  entries : List Nat
  exc : Exc
  deriving DecidableEq, Repr

/-- quantise_block of R198; `outl` says whether D has an outlier plane, `ds` are the draws of the elements. Both outlier entries of an
all-zero block are unused ones (log entry 103). -/
def quantBlock (e : EF) (k : Nat) (rnd : Rnd) (outl : Bool) (ds : List Nat) (xs : List Val) : Quant :=
  let ix := (List.range xs.length).zip xs
  let fins := xs.filter Val.isFin
  let mean : Rat := if fins.isEmpty then 0 else (fins.foldl (fun a v => a + v.abs.rat) 0) / (fins.length : Rat)
  let isOut (v : Val) : Bool := e == .f4x && (!v.isFin || (decide (1 ≤ k) && decide (((2 ^ k : Nat) : Rat) * mean < v.abs.rat)))
  let out := outSort (ix.filter fun p => isOut p.2)
  let amax := (xs.filter fun v => v.isFin && !isOut v).foldl (fun a v => if a < v.abs.rat then v.abs.rat else a) 0
  let noEntry := [0xF8000000, 0xF8000000]
  if xs.all Val.isZero then { codes := xs.map fun _ => 0, scale := 0, entries := noEntry, exc := Exc.none }
  else
    let sc := if amax = 0 then (0x7F00, false) else bs16Up (amax / quantMax e)
    let sv := scaleRat sc.1
    let quot (v : Val) : Val := match v with | .fin n m => .fin n (m / sv) | v => v
    let first := (out.take (if outl then 2 else 0)).map (·.1)
    let one (p : Nat × Val) : Nat × Exc :=
      let dr := ds.getD p.1 0
      if isOut p.2 then
        if first.contains p.1 then (8, (roundCode .f16 rnd false dr p.2).2)
        else (if p.2.isNan then 8 else if p.2.sign then 15 else 7, { outOvf := true })
      else
        let v := quot p.2
        let q := encodeVal e rnd true dr v
        let above := sc.2 && (match v with | .fin _ m => decide (quantMax e < m) | .inf _ => true | .nan => false)
        (q.1, q.2.or { ovf := above })
    let cs := ix.map one
    let ents := (ix.filter fun p => first.contains p.1).map fun p =>
      p.1 * 2 ^ 27 + (roundCode .f16 rnd false (ds.getD p.1 0) p.2).1
    { codes := cs.map (·.1), scale := sc.1, entries := (ents ++ noEntry).take 2,
      exc := cs.foldl (fun a c => a.or c.2) Exc.none }

/-- The blocks of a row (R166). -/
def blocksOf {α : Type} (l : List α) (fuel : Nat) : List (List α) :=
  match fuel, l with
  | 0, _ => []
  | _, [] => []
  | fuel + 1, l => l.take 24 :: blocksOf (l.drop 24) fuel

/-- A row quantised block by block. -/
def quantRow (x : XF) (d : Desc) (g : Word) (bs : List (List Val)) : List Quant × Word :=
  match bs with
  | [] => ([], g)
  | b :: r =>
    let ds := takeDraws (x.rnd == .sr) g b.length
    let q := quantBlock x.ef x.m.toNat x.rnd d.outl ds.1 b
    let rest := quantRow x d ds.2 r
    (q :: rest.1, rest.2)

def quantRows (x : XF) (d : Desc) (g : Word) (m : List (List Val)) : List (List Quant) × Word :=
  match m with
  | [] => ([], g)
  | l :: r =>
    let q := quantRow x d g (blocksOf l d.blocks)
    let rest := quantRows x d q.2 r
    (q.1 :: rest.1, rest.2)

def vecQnt (x : XF) (v : VecIn) : VecOut :=
  let q := quantRows x v.dD v.g (grid v.dD fun r j => v.A.val v.dA.ef r j)
  { img := { rows := q.1.map fun l => l.flatMap (·.codes), scales := q.1.map fun l => l.map (·.scale),
             outl := q.1.map fun l => l.map (·.entries) }
    exc := q.1.map fun l => l.foldl (fun a b => a.or b.exc) Exc.none
    g := q.2 }

/-! ### Reductions and scans (R201, R202) -/

/-- The elements of each line that a reduction or scan runs along. -/
def linesOf (col : Bool) (v : VecIn) : List (List Val) :=
  if col then (List.range v.dA.cols).map fun j => (List.range v.dA.rows).map fun r => v.A.val v.dA.ef r j
  else (List.range v.dA.rows).map fun r => (List.range v.dA.cols).map fun j => v.A.val v.dA.ef r j

/-- The addition of a sum over elements of format `e`: in binary64 for f64, in binary32 for the other floats, exact for
integers (R201). -/
def sumAdd (e : EF) (a b : Val × Exc) : Val × Exc :=
  match e with
  | .f64 => addIn (ieee 11 52 0x7FF8000000000000) a b
  | e => if e.isFloat then f32add a b else (Val.ofInt (a.1.rat.floor + b.1.rat.floor), Exc.none)

/-- The lowest index of an extreme element, NaNs skipped; none on an all-NaN line (R201). -/
def argBest (big : Bool) (l : List Val) (i : Nat) (best : Option (Nat × Val)) : Option Nat :=
  match l with
  | [] => best.map (·.1)
  | v :: r =>
    let better := match best with
      | none => !v.isNan
      | some (_, w) => !v.isNan && (if big then w.ltIeee v else v.ltIeee w)
    argBest big r (i + 1) (if better then some (i, v) else best)

/-- The result of a reduction before it is put in D's format. -/
def reduce (fn : RedFn) (e : EF) (l : List Val) : Val × Exc :=
  match fn with
  | .sum => rowSum (sumAdd e) (Val.ofInt 0, Exc.none) (l.map fun v => (v, Exc.none))
  | .max => ((l.drop 1).foldl Val.maxNum (l.headD .nan), Exc.none)
  | .min => ((l.drop 1).foldl Val.minNum (l.headD .nan), Exc.none)
  | .amax => (((l.map Val.abs).drop 1).foldl Val.maxNum ((l.map Val.abs).headD .nan), Exc.none)
  | .argmax => match argBest true l 0 none with | some i => (Val.ofInt i, Exc.none) | none => (Val.ofInt 0, { inv := true })
  | .argmin => match argBest false l 0 none with | some i => (Val.ofInt i, Exc.none) | none => (Val.ofInt 0, { inv := true })

def vecRed (fn : RedFn) (x : XF) (v : VecIn) : VecOut :=
  let ys := (linesOf (x.m.getLsbD 0) v).map (reduce fn v.dA.ef)
  v.exact v.dD.ef x (if x.m.getLsbD 0 then [ys] else ys.map fun y => [y])

/-- The identity that the first output of an exclusive scan covers (R202). -/
def scanIdentity (fn : ScanFn) (e : EF) : Val :=
  match fn with
  | .sum => .fin false 0
  | .max => if e.isInt then Val.ofInt e.minInt else .inf true
  | .min => if e.isInt then Val.ofInt e.maxInt else .inf false

def scanStep (fn : ScanFn) (e : EF) (acc : Val × Exc) (x : Val) : Val × Exc :=
  match fn with
  | .sum => sumAdd e (acc.1, Exc.none) (x, Exc.none)
  | .max => (acc.1.maxNum x, Exc.none)
  | .min => (acc.1.minNum x, Exc.none)

/-- Running results from `acc` on. -/
def scanFrom (fn : ScanFn) (e : EF) (acc : Val × Exc) (l : List Val) : List (Val × Exc) :=
  match l with
  | [] => []
  | x :: r => let y := scanStep fn e acc x; y :: scanFrom fn e y r

def scanLine (fn : ScanFn) (e : EF) (excl : Bool) (l : List Val) : List (Val × Exc) :=
  match l with
  | [] => []
  | x :: r =>
    let ys := (x, Exc.none) :: scanFrom fn e (x, Exc.none) r
    if excl then (scanIdentity fn e, Exc.none) :: ys.dropLast else ys

/-- Rows from columns, for lines of length `n`. -/
def transposed {α : Type} (m : List (List α)) (n : Nat) (d : α) : List (List α) :=
  (List.range n).map fun i => m.map fun l => l.getD i d

def vecScan (fn : ScanFn) (x : XF) (v : VecIn) : VecOut :=
  let col := x.m.getLsbD 0
  let ys := (linesOf col v).map (scanLine fn v.dA.ef (x.m.getLsbD 1))
  v.into v.dD.ef x (if col then transposed ys v.dA.rows (.nan, Exc.none) else ys)

/-! ### Data movement (R203 to R207) -/

/-- `n` steps of G_vec, each an element (R204). -/
def randRow (w : Nat) (g : Word) (n : Nat) : List Nat × Word :=
  match n with
  | 0 => ([], g)
  | n + 1 =>
    let g := genStep g
    let r := randRow w g n
    (g.toNat % 2 ^ w :: r.1, r.2)

def randRows (w cols : Nat) (g : Word) (n : Nat) : List (List Nat) × Word :=
  match n with
  | 0 => ([], g)
  | n + 1 =>
    let l := randRow w g cols
    let r := randRows w cols l.2 n
    (l.1 :: r.1, r.2)

def vecFill (fn : FillFn) (x : XF) (v : VecIn) : VecOut :=
  let w := x.ef.width
  match fn with
  | .const => v.codes (grid v.dD fun _ _ => v.a.toNat % 2 ^ w)
  | .iota => v.codes (grid v.dD fun r j => (r * v.dD.cols + j) % 2 ^ w)
  | .cix => v.codes (grid v.dD fun _ j => j % 2 ^ w)
  | .rix => v.codes (grid v.dD fun r _ => r % 2 ^ w)
  | .rand =>
    let r := randRows w v.dD.cols v.g v.dD.rows
    { img := Img.ofRows r.1, exc := r.1.map fun _ => Exc.none, g := r.2 }

/-- A list with `new` written over it from `i`. -/
def listOver {α : Type} (l : List α) (i : Nat) (new : List α) : List α := l.take i ++ new ++ l.drop (i + new.length)

/-- A window of rows and columns of a matrix, and a matrix with a window written over. -/
def window {α : Type} (m : List (List α)) (r0 c0 h w : Nat) : List (List α) := ((m.drop r0).take h).map fun l => (l.drop c0).take w

def windowSet {α : Type} (m : List (List α)) (r0 c0 : Nat) (new : List (List α)) : List (List α) :=
  m.take r0 ++ ((m.drop r0).zip new).map (fun p => listOver p.1 c0 p.2) ++ m.drop (r0 + new.length)

/-- `vmov` (R207): scale and outlier planes move with the elements. -/
def vecMov (x : XF) (v : VecIn) : VecOut :=
  let r0 := windowRow v.b
  let c0 := windowCol v.b
  let img : Img :=
    if x.m.getLsbD 0 then
      { rows := window v.A.rows r0 c0 v.dD.rows v.dD.cols
        scales := if v.dD.scaled then window v.A.scales r0 (c0 / 24) v.dD.rows v.dD.blocks else []
        outl := if v.dD.outl then window v.A.outl r0 (c0 / 24) v.dD.rows v.dD.blocks else [] }
    else if x.m.getLsbD 1 then
      { rows := windowSet v.D.rows r0 c0 v.A.rows
        scales := if v.dD.scaled then windowSet v.D.scales r0 (c0 / 24) v.A.scales else []
        outl := if v.dD.outl then windowSet v.D.outl r0 (c0 / 24) v.A.outl else [] }
    else v.A
  { img := img, exc := (List.range v.dD.rows).map fun _ => Exc.none, g := v.g }

/-- `vperm` (R206). -/
def vecPerm (x : XF) (v : VecIn) : VecOut :=
  v.plain (grid v.dD fun r j =>
    let k := v.B.code (if x.m.getLsbD 0 then r else 0) j
    if k < v.dA.cols then (v.A.code r k, Exc.none) else (0, { inv := true }))

/-- `vhist` (R209). -/
def vecHist (x : XF) (v : VecIn) : VecOut :=
  let xs := v.A.rows.flatMap fun l => l.map (codeInt x.ef)
  let counts := (List.range v.dD.cols).map fun b =>
    ((if x.m.getLsbD 0 then 0 else v.D.code 0 b) + (xs.filter (· == (b : Int))).length) % 2 ^ 32
  { img := Img.ofRows [counts], exc := [{ inv := xs.any fun n => decide (n < 0 ∨ (v.dD.cols : Int) ≤ n) }], g := v.g }

/-! ### The operation -/

/-- What a vector operation computes from its operands. -/
def vecRun (i : Instr) (v : VecIn) : VecOut :=
  match i with
  | .vadd x | .vsub x | .vmul x | .vfma x | .vmin x | .vmax x | .vabs x | .vneg x => vecArith i x v
  | .vlog fn x => v.codes (grid v.dD fun r j => logCode fn x.ef.width (v.A.code r j) (v.B.code r j))
  | .vsh fn x => v.codes (grid v.dD fun r j =>
      shiftCode fn x.ef.width (v.A.code r j)
        (if x.m.getLsbD 0 then v.b.toNat % 64 else amountOf x.ef (v.B.code r j)))
  | .vbit fn x => v.codes (grid v.dD fun r j => bitCode fn x.ef.width (v.A.code r j))
  | .vpopc rows x =>
    if rows then v.codes (grid v.dD fun r _ => ((List.range v.dA.cols).filter fun j => v.A.code r j != 0).length)
    else v.codes (grid v.dD fun r j => popCode x.ef.width (v.A.code r j))
  | .vcmp c x => vecCmp c x v
  | .vsel _ => v.codes (grid v.dD fun r j => if v.C.code r j ≠ 0 then v.A.code r j else v.B.code r j)
  | .vcvt x => vecCvt x v
  | .vqnt x => vecQnt x v
  | .vdqn x => v.exact x.ef { x with sat := false } (grid v.dD fun r j => v.A.elem v.dA r j)
  | .vfn fn x => v.exact x.ef x (grid v.dD fun r j => fnVal fn (v.A.val x.ef r j))
  | .vred fn x => vecRed fn x v
  | .vscan fn x => vecScan fn x v
  | .vbc x => v.codes (grid v.dD fun r j => if x.m.getLsbD 0 then v.A.code r v.b.toNat else v.A.code v.b.toNat j)
  | .vfill fn x => vecFill fn x v
  | .vtrn _ => v.codes (grid v.dD fun r j => v.A.code j r)
  | .vperm x => vecPerm x v
  | .vhash n _ => v.codes (grid v.dD fun r j => hashBits (v.A.code r j) v.b.toNat n.toNat)
  | .vhist x => vecHist x v
  | .vpack rm _ => vecPack rm v
  | .vunpk rm _ => vecUnpk rm v
  | .vmov x => vecMov x v
  | .vrnd x => vecRnd x v
  | .vmask fn _ => v.codes (grid v.dD fun r j => b2n (maskTrue fn v.a r j))
  | _ => { img := v.D, exc := [], g := v.g }

/-- The bytes of D after the operation; the plain `vmov` copies A's bytes as they are (R207). -/
def vecBytes (i : Instr) (v : VecIn) (a : List Byte) : List Byte :=
  match i with
  | .vmov x => if x.m = 0 then a else (vecMov x v).img.bytes v.dD
  | i => (vecRun i v).img.bytes v.dD

/-! ### Poison (R171) -/

/-- The rows of D that the poison of the source rows feeds. -/
def vecFeed (i : Instr) (dD dA : Desc) (b : Word) (pd pa pb pc : Word) : Word :=
  let any (p : Word) : Bool := p != 0
  let n := dD.rows
  match i with
  | .vadd x | .vsub x | .vmul x | .vfma x | .vmin x | .vmax x | .vcmp _ x =>
    rowMask (fun r => pa.getLsbD r || pb.getLsbD (brow x r) || pc.getLsbD r) n
  | .vsel _ => pa ||| pb ||| pc
  | .vlog .. => pa ||| pb
  | .vsh _ x => if x.m.getLsbD 0 then pa else pa ||| pb
  | .vred _ x => if x.m.getLsbD 0 then BitVec.ofNat 64 (b2n (any pa)) else pa
  | .vscan _ x =>
    if x.m.getLsbD 0 then
      rowMask (fun r => (List.range (if x.m.getLsbD 1 then r else r + 1)).any fun i => pa.getLsbD i) n
    else pa
  | .vbc x => if x.m.getLsbD 0 then pa else (if pa.getLsbD b.toNat then allRows n else 0)
  | .vtrn _ => if any pa then allRows n else 0
  | .vperm x => rowMask (fun r => pa.getLsbD r || pb.getLsbD (if x.m.getLsbD 0 then r else 0)) n
  | .vhist x => BitVec.ofNat 64 (b2n (any pa || (!x.m.getLsbD 0 && pd.getLsbD 0)))
  | .vpack rm _ => if rm then BitVec.ofNat 64 (b2n (any pa)) else pa
  | .vunpk rm _ => if rm then (if pa.getLsbD 0 then allRows n else 0) else pa
  | .vmov x =>
    if x.m.getLsbD 0 then (pa >>> windowRow b) &&& allRows n
    else if x.m.getLsbD 1 then (pa <<< windowRow b) &&& allRows n
    else pa
  | .vfill .. | .vmask .. => 0
  | _ => let _ := dA; pa

/-- The rows of D that the operation writes, and those among them that it writes completely (R171, R207). -/
def vecWritten (i : Instr) (dD dA : Desc) (b : Word) : Word × Word :=
  match i with
  | .vmov x =>
    if x.m.getLsbD 1 then
      let m := allRows dA.rows <<< windowRow b
      (m, if dA.cols = dD.cols then m else 0)
    else (allRows dD.rows, allRows dD.rows)
  | _ => (allRows dD.rows, allRows dD.rows)

end Sys2Proof.Machine
end

