-- ==== Sys2Proof/Machine/MxOps.lean ====
section
/-! DEFINITION. What each matrix operation computes (R250 to R265) and the state image (R268): functions over `MxCore`. -/
namespace Sys2Proof.Machine

/-! ### Planes (R248, R251, R252) -/

/-- The shape of a plane's image. -/
def Plane.desc (p : Plane) : Desc := Desc.of (BitVec.ofNat 64 p.shape.toNat)

def noEntries : List Nat := [0xF8000000, 0xF8000000]

/-- A plane loaded from a weight image; an f4x image without an outlier plane holds no outlier entry. -/
def Plane.load (d : Desc) (l : List Byte) (sparsity : Nat) (old : List (List Nat)) (pc : BitVec 32) : Plane :=
  let flags := d.flags % 4 + (if d.ef = .f4x then 4 else 0)
  let e : Desc := { d with flags := flags }
  let m := Img.of d l
  let m := if d.ef = .f4x ∧ !d.outl then { m with outl := (List.range d.rows).map fun _ => List.replicate d.blocks noEntries } else m
  { valid := true, shape := BitVec.ofNat 32 (d.efc * 2 ^ 24 + d.rows * 2 ^ 16 + d.cols * 2 ^ 8 + flags), img := m.bytes e,
    sparsity := sparsity, metaOk := false, idx := old, pc := pc }

/-- The run length N of an N:16 plane. -/
def Plane.run (p : Plane) : Nat := if p.sparsity = 1 then 8 else 4

def Plane.index (p : Plane) (n j : Nat) : Nat := (p.idx.getD n []).getD j 0

/-- k(j) of R252. -/
def Plane.logical (p : Plane) (n j : Nat) : Nat := if p.sparsity = 0 then j else 16 * (j / p.run) + p.index n j

/-- The logical K of R252. -/
def Plane.logicalK (p : Plane) : Nat := if p.sparsity = 0 then 96 else 16 * ceilDiv p.desc.cols p.run

/-- The stationary elements by column, with the exceptions of reading them. -/
def Plane.weights (p : Plane) : List (List (Val × Exc)) :=
  let d := p.desc
  let m := Img.of d p.img
  (List.range d.rows).map fun n => m.rowElems d n

/-- Within each group of a column the indices rise strictly (R252). -/
def indicesRise (N : Nat) (l : List Nat) : Bool :=
  (List.range l.length).all fun j => j % N == 0 || decide (l.getD (j - 1) 0 < l.getD j 0)

/-! ### Accumulation (R255, R256) -/

def excAll (l : List (Val × Exc)) : Exc := l.foldl (fun e x => e.or x.2) Exc.none

def f32Val (c : BitVec 32) : Val := codeVal .f32 c.toNat

def f32Code (v : Val) : BitVec 32 := BitVec.ofNat 32 (valCode .f32 v)

/-- round_to(v, f32, RNE, 0), the exceptions joined. -/
def toF32 (y : Val × Exc) : Val × Exc :=
  let r := roundTo f32Fmt .rne false 0 y.1
  (r.1, y.2.or r.2)

/-- The products of column `n` over positions `lo` to `lo + len - 1`: the set P of R255. -/
def products (p : Plane) (w : List Val) (n : Nat) (xs : Nat → Option Val) (lo len : Nat) : List (Val × Exc) :=
  (List.range len).filterMap fun i =>
    match w[lo + i]?, xs (p.logical n (lo + i)) with
    | some a, some x => some (Val.mul a x)
    | _, _ => none

/-- One column of stream_row_fp of R255. -/
def streamFp (p : Plane) (w : List Val) (n : Nat) (xs : Nat → Option Val) (e : AccEl) : AccEl × Exc :=
  let part (b : Nat) : Val × Exc := toF32 (exactSum (products p w n xs (24 * b) 24))
  let t := f32add (f32add (f32add (part 0) (part 1)) (part 2)) (part 3)
  let r := f32add (f32Val e.v, Exc.none) t
  ({ e with v := f32Code r.1 }, r.2)

/-- anchor_add of R256; the last component is MX_STICKY.ANCOVF. -/
def anchorAdd (a : Int) (e : AccEl) (t : Val) : AccEl × Exc × Bool :=
  match t with
  | .nan => ({ e with nan := true }, Exc.none, false)
  | t =>
    let above (neg : Bool) : Bool :=
      match t with
      | .inf n => n == neg
      | _ => if neg then decide (t.rat ≤ -(pow2 (a + 12))) else decide (pow2 (a + 12) ≤ t.rat)
    if above false then ({ e with pos := true }, { ovf := true }, true)
    else if above true then ({ e with neg := true }, { ovf := true }, true)
    else ({ e with s := e.s + (t.rat / pow2 (a - 51)).floor }, Exc.none, false)

/-- One column of a live row in anchored mode. -/
def streamAnc (a : Int) (l : List (Val × Exc)) (e : AccEl) : AccEl × Exc × Bool :=
  l.foldl (fun acc t =>
    let r := anchorAdd a acc.1 t.1
    (r.1, (acc.2.1.or t.2).or r.2.1, acc.2.2 || r.2.2)) (e, Exc.none, false)

/-- A live row into its accumulator row: the row, its exceptions, and the sticky bits ANCOVF and RCNT. -/
def streamRow (c : MxCore) (w : List (List Val)) (xs : Nat → Option Val) (row : AccRow) : AccRow × Exc × BitVec 3 :=
  let p := c.active
  let n1 := w.length
  if c.anchored then
    let rs := (List.range n1).map fun n =>
      streamAnc c.anchor (products p (w.getD n []) n xs 0 96) (row.els.getD n AccEl.zero)
    let count := row.count + 1
    let full := decide (2 ^ 23 ≤ count)
    let els := (rs.map (·.1)) ++ row.els.drop n1
    let els := if full then els.map fun e => { e with nan := true } else els
    ({ row with els := els, count := count, clear := false }, rs.foldl (fun e r => e.or r.2.1) { inv := full },
     BitVec.ofNat 3 (b2n (rs.any (·.2.2)) + 2 * b2n full))
  else
    let rs := (List.range n1).map fun n => streamFp p (w.getD n []) n xs (row.els.getD n AccEl.zero)
    ({ row with els := (rs.map (·.1)) ++ row.els.drop n1, clear := false }, rs.foldl (fun e r => e.or r.2) Exc.none, 0)

/-- Do the exceptions set the poison bit of their row under policy 2 (R170, R260)? -/
def excPoison (exc : BitVec 8) (e : Exc) : Bool :=
  (e.inv && policy exc 0 == 2) || (e.ovf && policy exc 1 == 2) || (e.dz && policy exc 2 == 2) ||
  ((e.missing || e.outOvf) && policy exc 3 == 2)

/-- The bits that they set for the context in VE_STICKY under policy 1 (R170, R182). -/
def excSticky (exc : BitVec 8) (e : Exc) : Nat :=
  b2n (e.inv && policy exc 0 == 1) + 2 * b2n (e.ovf && policy exc 1 == 1) + 4 * b2n (e.dz && policy exc 2 == 1) +
  8 * b2n ((e.missing || e.outOvf) && policy exc 3 == 1)

/-- The bits that they set in VE_OUTFLG whatever the policy (R170, R182). -/
def excOutflg (e : Exc) : Nat := b2n e.missing + 2 * b2n e.outOvf

/-- What a stream offers: its live rows with their elements and whether each is poisoned. -/
structure LiveRow where
  r : Nat
  elems : List (Val × Exc)
  second : List (Val × Exc)
  poisoned : Bool
  deriving DecidableEq, Repr

def LiveRow.at (l : LiveRow) (k : Nat) : Option Val :=
  if k < 192 then (l.elems[k]?).map (·.1) else (l.second[k - 192]?).map (·.1)

/-- A stream (R253, R255, R256, R259, R260): the engine, the exceptions of all rows, MX_STICKY bits. -/
def streamRows (exc : BitVec 8) (w : List (List Val)) (we : Exc) (c : MxCore) (l : List LiveRow) : MxCore × Exc × BitVec 3 :=
  match l with
  | [] => (c, Exc.none, 0)
  | x :: rest =>
    let row := c.acc.getD x.r AccRow.cleared
    let y := streamRow c w x.at row
    let e := ((y.2.1.or we).or (excAll x.elems)).or (excAll x.second)
    let new := { y.1 with poison := y.1.poison || x.poisoned || excPoison exc e }
    let q := streamRows exc w we { c with acc := listUpd c.acc x.r fun _ => new } rest
    (q.1, e.or q.2.1, y.2.2 ||| q.2.2)

def MxCore.stream (c : MxCore) (exc : BitVec 8) (l : List LiveRow) : MxCore × Exc × BitVec 3 :=
  let w := c.active.weights
  streamRows exc (w.map fun col => col.map (·.1)) (excAll w.flatten) c l

/-- Every accumulator row clear: MX_STATUS.ACCZ (R258). -/
def MxCore.accz (c : MxCore) : Bool := c.acc.all (·.clear)

def MxCore.clearRows (c : MxCore) (m : Word) : MxCore :=
  { c with acc := c.acc.zipIdx.map fun p => if m.getLsbD p.2 then AccRow.cleared else p.1 }

/-! ### The epilogue chain (R262 to R264) -/

/-- The fields of a node's word 0. -/
def nodeType (n : List Word) : Nat := wbits (n.getD 0 0) 0 8
def nodeP1 (n : List Word) : Nat := wbits (n.getD 0 0) 8 8
def nodeP2 (n : List Word) : Nat := wbits (n.getD 0 0) 16 8
def nodeFl (n : List Word) : Nat := wbits (n.getD 0 0) 24 8

def nodeTable (n : List Word) : Bool := nodeType n == 1 || (nodeType n == 2 && nodeFl n == 1)

/-- The value that a column table gives column `j` (R262). -/
def tableVal (n : List Word) (j : Nat) : Val := codeVal .f32 (wbits (n.getD (16 + j / 2) 0) (32 * (j % 2)) 32)

/-- Every unused field of a node is zero, and its parameters are legal (R262, R263). -/
def nodeOk (n : List Word) : Bool :=
  let w (i : Nat) : Nat := (n.getD i 0).toNat
  let zero (l : List Nat) : Bool := l.all fun i => w i == 0
  let words (from_ : Nat) : List Nat := (List.range (16 - from_)).map (from_ + ·)
  let table := (List.range 16).map (16 + ·)
  let p1 := nodeP1 n
  let p2 := nodeP2 n
  let fl := nodeFl n
  decide (w 0 < 2 ^ 32) &&
  match nodeType n with
  | 1 => p1 == 0 && p2 == 0 && fl == 0 && zero (words 1)
  | 2 => p1 == 0 && p2 == 0 && decide (fl ≤ 1) && zero (words 2) &&
         (if fl = 1 then w 1 == 0 else decide (w 1 < 2 ^ 32) && zero table)
  | 3 => decide (p1 ≤ 7) && p2 == 0 && fl == 0 && zero (words 1) && zero table
  | 4 => p1 == 0 && p2 == 0 && fl == 0 && decide (w 1 < 2 ^ 32) && decide (w 2 < 2 ^ 32) && zero (words 3) && zero table
  | 5 =>
    match EF.ofCode p1 with
    | none => false
    | some e =>
      e.mxOut && decide (fl ≤ 3) && (fl % 2 == 0 || e.scalable) && (e != .f4x || fl % 2 == 1) &&
      (fl / 2 == 0 || e == .f4x) && decide (p2 ≤ 15) && (p2 == 0 || fl / 2 == 1) && zero (words 1) && zero table
  | 6 => decide (1 ≤ p1 ∧ p1 ≤ 8) && p2 == 0 && fl == 0 && zero (words 1) && zero table
  | _ => false

/-- The nodes before the end node, or the first row that fails (R263). `done` are the nodes already taken. -/
def parseChain (rows : List (List Word)) (done : List (List Word)) : Except Nat (List (List Word)) :=
  match rows with
  | [] => .ok done
  | n :: r =>
    let t := nodeType n
    let seen (k : Nat) : Bool := done.any fun m => nodeType m == k
    if t = 0 then .ok done
    else if !nodeOk n || (seen 5 && t != 6) || (seen 6 && t == 6) ||
            (nodeTable n && decide (4 ≤ (done.filter nodeTable).length)) then .error done.length
    else parseChain r (done ++ [n])

/-- anchored_value of R256: the value, its exceptions, ANCOVF. -/
def anchoredValue (a : Int) (e : AccEl) : Val × Exc × Bool :=
  if e.nan || (e.pos && e.neg) then (.nan, { inv := true }, false)
  else if e.pos then (.inf false, Exc.none, false)
  else if e.neg then (.inf true, Exc.none, false)
  else if 2 ^ 63 - 1 ≤ e.s.natAbs then (.inf (decide (e.s < 0)), { ovf := true }, true)
  else (Val.ofRat (e.s * pow2 (a - 51)), Exc.none, false)

/-- raw_code of R264. -/
def rawCode (e : AccEl) : Nat × Exc :=
  let top := 0x7FFFFFFFFFFFFFFF
  let bot := 0x8000000000000001
  if e.nan || (e.pos && e.neg) then (0x8000000000000000, Exc.none)
  else if e.pos then (top, Exc.none)
  else if e.neg then (bot, Exc.none)
  else if 2 ^ 63 - 1 ≤ e.s.natAbs then (if e.s < 0 then bot else top, { ovf := true })
  else ((e.s % 2 ^ 64).toNat, Exc.none)

/-- The functions of R200 by FN. -/
def fnOf (k : Nat) : FnFn :=
  match k with
  | 0 => .exp2 | 1 => .log2 | 2 => .rcp | 3 => .rsqrt | 4 => .tanh | 5 => .sigmoid | 6 => .silu | _ => .gelu

/-- An arithmetic node on the value of column `j` (R262). -/
def nodeVal (n : List Word) (j : Nat) (y : Val × Exc) : Val × Exc :=
  let code (i : Nat) : Val := codeVal .f32 (wbits (n.getD i 0) 0 32)
  match nodeType n with
  | 1 => f32add y (tableVal n j, Exc.none)
  | 2 =>
    let m := Val.mul y.1 (if nodeFl n = 1 then tableVal n j else code 1)
    toF32 (m.1, y.2.or m.2)
  | 3 =>
    let f := fnVal (fnOf (nodeP1 n)) y.1
    toF32 (f.1, y.2.or f.2)
  | 4 => (clampVal y.1 (code 1) (code 2), y.2)
  | _ => y

/-- Does the pair `a` rank before `b` (R265)? Values are binary32 codes that are no NaN. -/
def ranks (a b : BitVec 32 × BitVec 32) : Bool :=
  let x := f32Val a.1
  let y := f32Val b.1
  y.ltIeee x || (x.eqIeee y && decide (a.2.toNat < b.2.toNat))

def topInsert (p : BitVec 32 × BitVec 32) (l : List (BitVec 32 × BitVec 32)) : List (BitVec 32 × BitVec 32) :=
  match l with
  | [] => [p]
  | q :: r => if ranks p q then p :: q :: r else q :: topInsert p r

/-- Offer a value to a row's list (R265): a NaN is never entered. -/
def TopRow.offer (t : TopRow) (k : Nat) (v : Val) (idx : Nat) : TopRow :=
  if v.isNan then t else { t with pairs := (topInsert (f32Code v, BitVec.ofNat 32 idx) t.pairs).take k }

/-- A column's value through the chain: the value, its exceptions, and what it offers to the top-k (R264). -/
def chainVal (chain : List (List Word)) (j : Nat) (y : Val × Exc) : (Val × Exc) × List Val :=
  match chain with
  | [] => (y, [])
  | n :: r =>
    if nodeType n = 6 then
      let o := toF32 y
      let q := chainVal r j (y.1, o.2)
      (q.1, o.1 :: q.2)
    else chainVal r j (nodeVal n j y)

/-- A row of `mout` before it is put in D's format: the values, the offers, ANCOVF. -/
def moutRow (c : MxCore) (row : AccRow) (cols : Nat) : List (Val × Exc) × List (List Val) × Bool :=
  let arith := c.chain.any fun n => decide (1 ≤ nodeType n ∧ nodeType n ≤ 4)
  let rs := (List.range cols).map fun j =>
    let e := row.els.getD j AccEl.zero
    let v : Val × Exc × Bool := if c.anchored then anchoredValue c.anchor e else (f32Val e.v, Exc.none, false)
    let y := if c.anchored && arith then toF32 (v.1, v.2.1) else (v.1, v.2.1)
    (chainVal c.chain j y, v.2.2)
  (rs.map (·.1.1), rs.map (·.1.2), rs.any (·.2))

/-- The convert node, if there is one. -/
def MxCore.convert (c : MxCore) : Option (List Word) := c.chain.find? fun n => nodeType n == 5

def MxCore.topNode (c : MxCore) : Option (List Word) := c.chain.find? fun n => nodeType n == 6

/-- DETAIL of 0x040C when the output does not fit the chain, or `.raw` meets FP mode (R272, R281). -/
def MxCore.outputBad (c : MxCore) (d : Desc) (raw : Bool) : Option Nat :=
  if raw then (if c.anchored then none else some 2)
  else
    let ok : Bool :=
      match c.convert with
      | some n => d.efc == nodeP1 n && b2n d.scaled == nodeFl n % 2 && b2n d.outl == nodeFl n / 2 % 2
      | none => d.ef == .f32 && !d.scaled
    if ok then none else some 1

/-- Put rows of values in D's format (R264). -/
def moutPut (c : MxCore) (d : Desc) (x : XF) (g : Word) (m : List (List (Val × Exc))) : Img × List Exc × Word :=
  if d.scaled then
    let k := match c.convert with | some n => BitVec.ofNat 4 (nodeP2 n) | none => 0
    let q := quantRows { x with m := k } d g (m.map fun l => l.map (·.1))
    ({ rows := q.1.map fun l => l.flatMap (·.codes), scales := q.1.map fun l => l.map (·.scale),
       outl := q.1.map fun l => l.map (·.entries) },
     (m.zip q.1).map (fun p => (p.2.foldl (fun a b => a.or b.exc) (excAll p.1))), q.2)
  else
    let put (dr : Nat) (y : Val × Exc) : Nat × Exc :=
      let r := encodeVal d.ef x.rnd x.sat dr y.1
      (r.1, y.2.or r.2)
    let r := putRows put (x.rnd == .sr) g m
    (Img.ofRows r.1, r.2.1, r.2.2)

/-- The result of `mout` (R264): the image of D, the exceptions of its rows, the generator, the engine, ANCOVF. -/
structure MoutOut where
  img : Img
  exc : List Exc
  g : Word
  core : MxCore
  ancOvf : Bool
  deriving DecidableEq, Repr

def MxCore.emptyTop (c : MxCore) : MxCore := { c with topk := List.replicate 64 TopRow.cleared }

/-- The top-k lists after the offers of each row, its poison bit included (R264, R265). -/
def offerRows (k base : Nat) (poison : Word) (top : List TopRow) (offers : List (List (List Val))) : List TopRow :=
  top.zipIdx.map fun p =>
    match offers[p.2]? with
    | none => p.1
    | some cols =>
      let t := cols.zipIdx.foldl (fun t o => o.1.foldl (fun t v => t.offer k v ((base + o.2) % 2 ^ 32)) t) p.1
      { t with poison := t.poison || poison.getLsbD p.2 }

/-- `mout` (R264, R281). `exc` is the policy, `pz` the poison at commit. -/
def MxCore.mout (c : MxCore) (d : Desc) (x : XF) (base : Nat) (exc : BitVec 8) (pz : Bool) (g : Word) : MoutOut :=
  let clr := x.m.getLsbD 0
  let rows := allRows d.rows
  if x.m.getLsbD 1 then
    let m := (List.range d.rows).map fun r =>
      (List.range d.cols).map fun j => rawCode (((c.acc.getD r AccRow.cleared).els).getD j AccEl.zero)
    let above := m.any fun l => l.any fun p => p.2.ovf
    { img := Img.ofRows (m.map fun l => l.map (·.1)), exc := m.map fun l => l.foldl (fun e p => e.or p.2) Exc.none, g := g,
      core := if clr then c.clearRows rows else c, ancOvf := above }
  else
    let rs := (List.range d.rows).map fun r => moutRow c (c.acc.getD r AccRow.cleared) d.cols
    let out := moutPut c d x g (rs.map (·.1))
    let poison := rowMask (fun r => (c.acc.getD r AccRow.cleared).poison || pz || excPoison exc (out.2.1.getD r Exc.none)) d.rows
    let c1 :=
      match c.topNode with
      | none => c
      | some n =>
        let k := nodeP1 n
        let c := if c.k = k then c else { c.emptyTop with k := k }
        { c with topk := offerRows k base poison c.topk (rs.map (·.2.1)) }
    { img := out.1, exc := out.2.1, g := out.2.2, core := if clr then c1.clearRows rows else c1, ancOvf := rs.any (·.2.2) }

/-- What `mtkr` writes (R283). -/
def MxCore.topImage (c : MxCore) (idx : Bool) (d : Desc) : Img :=
  Img.ofRows ((List.range d.rows).map fun r => (List.range d.cols).map fun i =>
    match ((c.topk.getD r TopRow.cleared).pairs)[i]? with
    | some p => if idx then p.2.toNat else p.1.toNat
    | none => if idx then 0xFFFFFFFF else 0xFF800000)

/-! ### The state image (R268) -/

/-- A byte list cut or filled with zeros to `n` bytes. -/
def padTo (n : Nat) (l : List Byte) : List Byte := l.take n ++ List.replicate (n - l.length) 0

def padRow (n : Nat) (l : List Nat) : List Nat := l.take n ++ List.replicate (n - l.length) 0

/-- The record of a plane. -/
def Plane.record (p : Plane) : List Byte :=
  let d := p.desc
  let m := Img.of d p.img
  let w := d.ef.width
  let elems := m.rows.flatMap fun r => packRow w (padRow 96 r)
  let outl := m.outl.flatMap fun r => padTo 32 (r.flatMap fun b => b.flatMap fun e => toBytes e 4)
  let head :=
    if d.ef = .f4x then padTo 0x600 elems ++ padTo 0x1200 outl else padTo 0x1800 elems
  let idx := p.idx.flatMap fun r => packRow 4 (padRow 96 r)
  let scales := m.scales.flatMap fun r => padTo 8 (r.flatMap fun s => toBytes s 2)
  let ctl := b2n p.valid + b2n d.scaled * 2 + p.sparsity * 4 + b2n p.metaOk * 16 + d.efc * 2 ^ 8 + d.rows * 2 ^ 16 + d.cols * 2 ^ 24 +
             p.pc.toNat * 2 ^ 32
  head ++ padTo 0x600 idx ++ padTo 0x1F8 scales ++ toBytes ctl 8

/-- Indices as 32 rows of 96; none when all are zero. -/
def idxRows (l : List (List Nat)) : List (List Nat) :=
  if l.all (fun r => r.all (· == 0)) then []
  else ((l.map (padRow 96)) ++ List.replicate (32 - l.length) (List.replicate 96 0)).take 32

/-- The plane that a record holds; none when R248 to R252 cannot produce its control word. -/
def Plane.ofRecord (active : Bool) (l : List Byte) : Option Plane :=
  let c := field l 0x1FF8 8
  let bit (i : Nat) : Bool := c / 2 ^ i % 2 == 1
  let sp := c / 4 % 4
  let ef := c / 2 ^ 8 % 2 ^ 8
  let n := c / 2 ^ 16 % 2 ^ 6
  let k := c / 2 ^ 24 % 2 ^ 7
  let pc := BitVec.ofNat 32 (c / 2 ^ 32)
  let rsv := decide (c / 2 ^ 5 % 8 ≠ 0 ∨ c / 2 ^ 22 % 4 ≠ 0 ∨ bit 31)
  let idx := idxRows ((List.range 32).map fun r => unpackRow 4 (slice l (0x1800 + 48 * r) 48) 96)
  let blank := c % 2 ^ 32 == 0
  match EF.ofCode ef with
  | none => none
  | some e =>
    if blank then some { Plane.invalid with idx := idx, pc := pc }
    else
      let scaled := bit 1
      let run := if sp = 1 then 8 else 4
      let metaBad := bit 4 && (sp == 0 || !((List.range n).all fun r => indicesRise run ((idx.getD r []).take k)))
      if rsv || e.mxClass == 0 || decide (n = 0 ∨ 32 < n ∨ k = 0 ∨ 96 < k ∨ sp = 3) || (scaled && e.mxClass == 16) ||
         (e == .f4x && !scaled) || metaBad || (active && bit 0 && sp != 0 && !bit 4) then none
      else
        let flags := b2n scaled + (if sp = 0 then 0 else 2) + (if e = .f4x then 4 else 0)
        let d : Desc := { site := 0, gran := 0, gen := 0, kind := 0, efc := ef, rows := n, cols := k, flags := flags }
        let rb := 96 * e.width / 8
        let m : Img :=
          { rows := (List.range n).map fun r => unpackRow e.width (slice l (rb * r) rb) k
            scales := if scaled then (List.range n).map fun r => (List.range d.blocks).map fun b => field l (0x1E00 + 8 * r + 2 * b) 2
                      else []
            outl := if e = .f4x then
                (List.range n).map fun r => (List.range d.blocks).map fun b =>
                  [field l (0x600 + 32 * r + 8 * b) 4, field l (0x604 + 32 * r + 8 * b) 4]
              else [] }
        some { valid := bit 0, shape := BitVec.ofNat 32 (ef * 2 ^ 24 + n * 2 ^ 16 + k * 2 ^ 8 + flags), img := m.bytes d,
               sparsity := sp, metaOk := bit 4, idx := idx, pc := pc }

def AccEl.flagNibble (e : AccEl) : Nat := b2n e.nan + 2 * b2n e.pos + 4 * b2n e.neg

/-- The four tiles of the state image, D, A, B, C (R268). -/
def MxCore.image (c : MxCore) (gmat : Word) : List (List Byte) :=
  let els := c.acc.flatMap (·.els)
  let lo (e : AccEl) : List Byte := toBytes (if c.anchored then (e.s % 2 ^ 64).toNat else e.v.toNat) 8
  let hi (e : AccEl) : List Byte := toBytes (if c.anchored then (e.s / 2 ^ 64 % 2 ^ 32).toNat else 0) 4
  let ctl := b2n c.anchored + (c.anchor % 2 ^ 16).toNat * 2 ^ 16 + b2n c.accz * 2 ^ 32
  let B := padTo 0x2000 (els.flatMap hi) ++ padTo 0x400 (packNibbles (els.map AccEl.flagNibble)) ++
           padTo 0x100 (c.acc.flatMap fun r => toBytes r.count 4) ++
           toBytes (rowMask (fun r => (c.acc.getD r AccRow.cleared).poison) 64).toNat 8 ++ toBytes ctl 8 ++ toBytes gmat.toNat 8
  let C := padTo 0x1000 (c.topk.flatMap fun t => padTo 64 (t.pairs.flatMap fun p => toBytes p.1.toNat 4 ++ toBytes p.2.toNat 4)) ++
           padTo 0x40 (c.topk.flatMap fun t => toBytes t.pairs.length 1) ++
           toBytes (rowMask (fun r => (c.topk.getD r TopRow.cleared).poison) 64).toNat 8 ++ padTo 0xB8 (toBytes c.k 8) ++
           padTo 0x800 (c.chain.flatMap fun n => n.flatMap fun w => toBytes w.toNat 8) ++ toBytes c.chain.length 8
  [c.active.record ++ c.shadow.record, els.flatMap lo, padTo 16384 B, padTo 16384 C]

/-- The accumulator elements of row `r` in an image. -/
def accRowOf (anc : Bool) (A B : List Byte) (r : Nat) : List AccEl :=
  (List.range 32).map fun n =>
    let k := 32 * r + n
    let f := field B (0x2000 + k / 2) 1 / 16 ^ (k % 2) % 16
    let lo := field A (8 * k) 8
    if anc then
      { v := 0, s := sext (field B (4 * k) 4 * 2 ^ 64 + lo) 96, nan := f % 2 == 1, pos := f / 2 % 2 == 1, neg := f / 4 % 2 == 1 }
    else { v := BitVec.ofNat 32 lo, s := 0, nan := false, pos := false, neg := false }

/-- The engine and G_mat that an image holds, or the operand with a field that R248 to R265 cannot produce: 0 D, 2 B, 3 C
(R268). Which rows are clear while ACCZ is 0 is not in the image (log entry 28). -/
def MxCore.ofImage (D A B C : List Byte) : Except Nat (MxCore × Word) :=
  match Plane.ofRecord true (slice D 0 0x2000), Plane.ofRecord false (slice D 0x2000 0x2000) with
  | some act, some shd =>
    let ctl := field B 0x2508 8
    let anc := ctl % 2 == 1
    let accz := ctl / 2 ^ 32 % 2 == 1
    let poison := BitVec.ofNat 64 (field B 0x2500 8)
    let nibbles := unpackRow 4 (slice B 0x2000 0x400) 2048
    let rows := (List.range 64).map fun r =>
      ({ els := accRowOf anc A B r, poison := poison.getLsbD r, count := field B (0x2400 + 4 * r) 4, clear := false } : AccRow)
    let blank (x : AccRow) : Bool := decide ({ x with clear := true } = AccRow.cleared)
    let badB := decide (ctl / 2 % 2 ^ 15 ≠ 0 ∨ 2 ^ 33 ≤ ctl) || (nibbles.any fun f => decide (8 ≤ f)) ||
                (!anc && (nibbles.any (· != 0) || rows.any fun x => x.count != 0)) || (accz && !rows.all blank)
    if badB then .error 2
    else
      let rows := rows.map fun x => { x with clear := accz || (blank x && !rows.all blank) }
      let k := field C 0x1048 8
      let cnt := field C 0x1900 8
      let chain := (List.range cnt).map fun i => (List.range 32).map fun j => BitVec.ofNat 64 (field C (0x1100 + 256 * i + 8 * j) 8)
      let held (r : Nat) : Nat := field C (0x1000 + r) 1
      let chainOk := match parseChain chain [] with | .ok l => l.length == cnt | .error _ => false
      if 8 < k ∨ 8 < cnt then .error 3
      else if !chainOk || (List.range 64).any (fun r => decide (k < held r)) then .error 3
      else
        let tp := BitVec.ofNat 64 (field C 0x1040 8)
        let topk := (List.range 64).map fun r =>
          ({ pairs := (List.range (held r)).map fun i =>
               (BitVec.ofNat 32 (field C (64 * r + 8 * i) 4), BitVec.ofNat 32 (field C (64 * r + 8 * i + 4) 4))
             poison := tp.getLsbD r } : TopRow)
        .ok ({ active := act, shadow := shd, acc := rows, anchored := anc, anchor := sext (ctl / 2 ^ 16 % 2 ^ 16) 16, chain := chain,
               topk := topk, k := k }, BitVec.ofNat 64 (field B 0x2510 8))
  | _, _ => .error 0

/-! ### Status (R271) -/

/-- The operations of a queue that have not started: a started one has left it (R179, R261). -/
def queuedOps (q : List TileOp) : Nat := (q.filter fun o => !o.started).length

/-- MX_STATUS. QD counts the queued operations. -/
def MatrixUnit.status (m : MatrixUnit) : Word :=
  let c := m.core
  fieldsWord [(8, c.chain.length), (16, (c.anchor % 2 ^ 16).toNat), (36, b2n c.accz), (37, b2n c.anchored),
    (38, c.active.sparsity), (40, b2n c.shadow.valid), (41, b2n c.active.valid), (42, b2n m.claim),
    (43, Nat.min 16 (queuedOps m.queue))]

end Sys2Proof.Machine
end

