-- ==== Sys2Proof/Machine/Tables.lean ====
section
/-! DEFINITION. Page tables (R214), the pager's walks of them, and the frames that a context maps. -/
namespace Sys2Proof.Machine

/-- The site of a pager: that of its die, or the coordinator for the I/O dies (R12, R290). -/
def pagerSite (n : Nat) : Nat := if n < 2048 then dieOf n * 256 + 128 else coordSite

/-- The context descriptor's key for the tables of a context at a site (R287, R288). -/
def State.tableKey (s : State) (n c : Nat) : Nat := s.descKey n c

/-- What a walk finds (R217). -/
inductive WalkRes where
  | leaf (x : Xlat)
  /-- the entry as read, all ones when its read was uncorrectable -/
  | bad (entry : Word) (unc : Bool)
  /-- the level of the invalid entry -/
  | invalid (level : Nat)
  deriving DecidableEq, Repr

/-- A leaf entry that breaks R214. -/
def badLeaf (e : Word) : Bool :=
  let typ := wbits e 0 3
  let pa := wbits e 21 27 * 2 ^ 21
  let inRange : Bool :=
    match typ with
    | 0 => paTarget pa == .hbm
    | 1 => paTarget pa == .weight
    | 2 => paTarget pa == .tile
    | 3 => paTarget pa == .host
    | 4 => true
    | 5 => paTarget pa == .cellar
    | _ => false
  wbit e 60 || wbits e 3 18 != 0 || decide (6 ≤ typ) || !inRange || (typ == 1 && wbit e 62) || (typ != 4 && wbits e 48 12 != 0)

/-- The index of a table at a level (R214). -/
def tableIndex (va level : Nat) : Nat :=
  match level with
  | 0 => va / 2 ^ 47 % 512
  | 1 => va / 2 ^ 38 % 512
  | 2 => va / 2 ^ 29 % 512
  | _ => va / 2 ^ 21 % 256

/-- Walk the tables from `table` at `level`, reading through the pager's port (R12); `fuel` is the number of levels left. -/
def State.walkFrom (s : State) (port va level table fuel : Nat) : WalkRes × State :=
  match fuel with
  | 0 => (.invalid level, s)
  | fuel + 1 =>
    let a := table + 8 * tableIndex va level
    if paTarget a ≠ .hbm ∨ inCellarRange s.rcv a then (.bad (BitVec.ofNat 64 a) false, s)
    else
      let unc := s.mem.bad a 8
      let (v, s) := s.sysField port a 8
      let e : Word := BitVec.ofNat 64 v
      if unc then (.bad (BitVec.allOnes 64) true, s)
      else if !wbit e 63 then (.invalid level, s)
      else if level = 3 then
        if badLeaf e then (.bad e false, s)
        else (.leaf { vpn := va / 2 ^ 21, typ := wbits e 0 3, dev := wbits e 48 12, frame := wbits e 21 27, r := wbit e 61,
                      w := wbit e 62 }, s)
      else
        let next := wbits e 12 36 * 2 ^ 12
        if wbits e 0 12 ≠ 0 ∨ wbits e 48 15 ≠ 0 ∨ paTarget next ≠ .hbm then (.bad e false, s)
        else s.walkFrom port va (level + 1) next fuel

/-- Walk the tables of a context descriptor's key for the page that holds `va`. -/
def State.walk (s : State) (n key va : Nat) : WalkRes × State :=
  s.walkFrom (pagerSite n) va 0 (s.cdField key 8 8) 4

/-- The valid leaves under the table at `level`. `fuel` is the number of levels left. -/
def State.leafWords (s : State) (level table fuel : Nat) : List Word :=
  match fuel with
  | 0 => []
  | fuel + 1 =>
    (List.range (if level = 3 then 256 else 512)).flatMap fun i =>
      let e := s.mem.unit (table / 8 + i)
      if !wbit e 63 then []
      else if level = 3 then [e]
      else s.leafWords (level + 1) (wbits e 12 36 * 2 ^ 12) fuel

/-- The valid leaves of a context descriptor's key. -/
def State.leavesOf (s : State) (key : Nat) : List Word := s.leafWords 0 (s.cdField key 8 8) 4

/-- The types and frames that a context at a site maps (R81). -/
def State.framesOf (s : State) (n c : Nat) : List (Nat × Nat) := (s.leavesOf (s.tableKey n c)).map fun e => (wbits e 0 3, wbits e 21 27)

/-- The weight-store bank that a leaf maps for reading: die·16 + bank (R212). -/
def leafBank? (e : Word) : Option Nat :=
  if wbits e 0 3 = 1 ∧ wbit e 61 then some ((wbits e 21 27 * 2 ^ 21 - 0x8000000000) / 2 ^ 27) else none

/-- The type and frame number by which a storage address is mapped. -/
def frameOf (pa : Nat) : Nat × Nat :=
  (match paTarget pa with | .weight => 1 | .tile => 2 | .host => 3 | .cellar => 5 | _ => 0, pa / 2 ^ 21)

/-- Does one of the mapped frames hold the byte at a storage address (R81)? The cellar's mirrors are mapped as cellar frames. -/
def State.framesHold (s : State) (fs : List (Nat × Nat)) (pa : Nat) : Bool :=
  let f := frameOf pa
  fs.contains f ||
  (f.1 == 0 && inCellarRange s.rcv pa &&
   (List.range s.rcv.nreg).any fun k =>
     let base := 0x20000000000 + k * 2 ^ 21
     (cellarPrimary s.rcv base / 2 ^ 21 == pa / 2 ^ 21 || cellarSecondary s.rcv base / 2 ^ 21 == pa / 2 ^ 21) &&
     fs.contains (5, base / 2 ^ 21))

/-- Does a tile-store address of site `n` lie in a tile that context `c` owns (R81)? -/
def State.ownsByte (s : State) (n c pa : Nat) : Bool :=
  paTarget pa == .tile && pa / 2 ^ 21 == tileBase n / 2 ^ 21 &&
  (s.site n).tile.tiles.any fun t =>
    t.2.owner == c &&
    (let d := Desc.of (BitVec.ofNat 64 t.2.shape.toNat)
     decide (tileBase n + t.1 * 1024 ≤ pa ∧ pa < tileBase n + (t.1 + d.granules) * 1024))

end Sys2Proof.Machine
end

