-- ==== Sys2Proof/Machine/Order.lean ====
section
/-! DEFINITION. Ordering between engines: which accesses are still to perform, what a fence holds and covers (R81), the order of
MEM requests and stream items (R71, R72, R228, R408), release sets and synchronisation (R76 to R78). -/
namespace Sys2Proof.Machine

/-! ### Stream descriptors (R227, R228) -/

/-- The fields of a stream descriptor, four words (R227). -/
structure StreamDesc where
  base : Nat
  shape : BitVec 32
  tile : Bool
  z : Nat
  replay : Bool
  grain : Nat
  emask : Nat
  ctix : Nat
  n : List Nat
  st : List Int
  deriving DecidableEq, Repr

def StreamDesc.of (l : List Word) : StreamDesc :=
  let a := l.getD 0 0
  let b := l.getD 1 0
  let c := l.getD 2 0
  let d := l.getD 3 0
  { base := wbits a 0 56, shape := BitVec.ofNat 32 (wbits b 0 32), tile := wbit b 32, z := wbits b 33 2, replay := wbit b 35,
    grain := wbits b 40 4, emask := wbits b 44 4, ctix := wbits b 48 9, n := (List.range 4).map fun k => wbits c (16 * k) 16,
    st := (List.range 4).map fun k => sext (wbits d (16 * k) 16) 16 }

/-- The descriptor of a page's stream. -/
def State.streamWords (s : State) (n c sdx : Nat) : List Word :=
  match s.page? n c with
  | some p => p.streams.getD sdx []
  | none => []

/-- The item count, and the indexes of item `p`. -/
def StreamDesc.count (d : StreamDesc) : Nat := d.n.foldl (· * ·) 1

def StreamDesc.index (d : StreamDesc) (p : Nat) : List Nat :=
  let n0 := d.n.getD 0 1
  let n1 := d.n.getD 1 1
  let n2 := d.n.getD 2 1
  [p % n0, p / n0 % n1, p / (n0 * n1) % n2, p / (n0 * n1 * n2)]

/-- The bytes of an item. -/
def StreamDesc.itemBytes (d : StreamDesc) : Nat :=
  if d.tile then (Desc.of (BitVec.ofNat 64 d.shape.toNat)).size else 2 ^ d.z

/-- The address of item `p`, exact. -/
def StreamDesc.itemVa (d : StreamDesc) (off : Word) (p : Nat) : Int :=
  let step : Int := ((d.index p).zip d.st).foldl (fun a x => a + x.1 * x.2) 0
  (d.base : Int) + off.toNat + step * (2 ^ d.grain : Nat)

/-- The levels that wrap after item `p`: 0 up to the first that does not. -/
def StreamDesc.wraps (d : StreamDesc) (p : Nat) : List Nat :=
  let ix := d.index p
  let w (k : Nat) : Bool := ix.getD k 0 + 1 == d.n.getD k 1
  (List.range 4).filter fun k => (List.range (k + 1)).all w

def StreamRun.d (g : StreamRun) : StreamDesc := StreamDesc.of g.desc

/-! ### Accesses that have not performed -/

/-- An access that has not performed: its commit number, path, site, context, ASID, and whether it writes. `stream`: the items that a
stream has still to read, under the number of their `sopen`. -/
structure Pend where
  id : Nat
  path : Nat
  site : Nat
  ctx : Nat
  asid : Nat
  writes : Bool
  stream : Bool := false
  deriving DecidableEq, Repr

def Who.pend (w : Who) (id path : Nat) (writes : Bool) : Pend :=
  { id := id, path := path, site := w.site, ctx := w.ctx, asid := w.asid, writes := writes }

def SysReq.pend (r : SysReq) (p : Nat) : Pend := r.who.pend r.seq p true

/-- The requests that the system engines hold, as accesses of their paths. -/
def State.enginePend (s : State) : List Pend := s.engineReqs.filterMap fun r => r.ins.reqPath?.map r.pend

/-- The accesses among the effects that an activation has still to commit. -/
def Activation.pend (a : Activation) (n asid : Nat) : List Pend :=
  match a.committing with
  | none => []
  | some (base, next) =>
    (a.effects.zipIdx base).flatMap fun p =>
      let one (path : Nat) (w : Bool) : Pend := { id := p.2, path := path, site := n, ctx := a.ctx, asid := asid, writes := w }
      if p.2 < next then []
      else
        match p.1 with
        | .tile i .. => [one (if i.isVec then 1 else 2) i.writes]
        | .mem i .. => (memPaths i).map fun k => one k i.writes
        | .sys i .. => (i.reqPath?.map fun k => one k true).toList
        | _ => []

/-- A stream descriptor as the port holds it: that of an open stream, or of a `sopen` that waits. -/
def State.openDescs (s : State) (n : Nat) : List (Who × Nat × List Word) :=
  let p := (s.site n).port
  p.gens.map (fun g => (g.2.who, g.2.seq, g.2.desc)) ++
  p.sopens.map fun r => (r.who, r.id, s.streamWords n r.who.ctx (match r.ins with | .sopen m => m.md.toNat | _ => 0))

/-- Every access that has not performed. -/
def State.allPending (s : State) : List Pend :=
  ((s.reqs.filter fun r => !r.ins.isMldw && r.answer.isNone).flatMap fun r => (memPaths r.ins).map fun k => r.who.pend r.id k r.ins.writes) ++
  s.sites.flatMap (fun p =>
    p.2.tile.queue.map (fun o => o.who.pend o.seq 1 true) ++
    p.2.mx.queue.map (fun o => o.who.pend o.seq 2 o.ins.writes) ++
    (p.2.seq.acts.flatMap fun a => a.2.pend p.1 (s.asidOf p.1 a.2.ctx)) ++
    (s.openDescs p.1).map fun d => { d.1.pend d.2.1 3 (StreamDesc.of d.2.2).tile with stream := true }) ++
  s.enginePend

/-! ### Fences (R81, R82) -/

/-- Does a fence in force hold an access of this path, site, context and ASID with this commit number? -/
def State.fenced (s : State) (path n c asid id : Nat) : Bool :=
  s.fences.any fun f => f.aft.getLsbD path && f.site == n && f.ctx == c && f.asid == asid && decide (f.seq < id)

/-- Is an access one that the fence covers by cause or by its context's commit order? -/
def FenceRec.names (f : FenceRec) (site ctx asid seq : Nat) : Bool :=
  f.deps.contains seq || (site == f.site && ctx == f.ctx && asid == f.asid && decide (seq < f.seq))

/-- Does the fence cover this access, which has not performed? The items that a stream has still to read are covered by their context's
commit order only. -/
def FenceRec.covers (f : FenceRec) (p : Pend) : Bool :=
  f.bef.getLsbD p.path && p.id != f.seq &&
  (if p.stream then p.site == f.site && p.ctx == f.ctx && p.asid == f.asid && decide (p.id < f.seq) else f.names p.site p.ctx p.asid p.id)

/-- Does the fence cover an access that has performed: its own, or one that it must follow? -/
def FenceRec.has (f : FenceRec) (a : Agent) : Bool := f.bef.getLsbD a.path && f.names a.site a.ctx a.asid a.seq

/-- Does the fence cover this performed write (R81): by cause or commit order, by its location, or because an access that it covers is
ordered after the write (R82)? -/
def FenceRec.coversWrite (f : FenceRec) (w : WriteRec) : Bool :=
  f.has w.who || (f.bef.getLsbD w.who.path && (w.fences.contains f.seq || w.after.any f.has))

def FenceRec.coversPosted (f : FenceRec) (p : Posted) : Bool := f.has p.who || (f.bef.getLsbD p.who.path && p.fences.contains f.seq)

/-- Every access that the fence covers has performed. -/
def State.fenceReady (s : State) (f : FenceRec) : Bool := !(s.allPending.any f.covers)

/-- A fence is committed: the writes performed by now at locations that its context maps, or at its tiles, are covered (R81). -/
def State.addFence (s : State) (f : FenceRec) : State :=
  let frames := s.framesOf f.site f.ctx
  let near (a : Nat) : Bool := s.ownsByte f.site f.ctx a || s.framesHold frames a
  { s with
    fences := s.fences ++ [f]
    mem := { s.mem with
      recs := s.mem.recs.map fun w => if f.bef.getLsbD w.who.path && near (w.unit * 8) then { w with fences := f.seq :: w.fences } else w
      posted := s.mem.posted.map fun p =>
        if f.bef.getLsbD p.who.path && near p.pa then { p with fences := f.seq :: p.fences } else p } }

/-- What later accesses of a fence's after-set must see. -/
def FenceRec.follow (f : FenceRec) (paths : BitVec 8) (obs : Observers) : Follow :=
  { paths := paths, asid := f.asid, site := f.site, ctx := f.ctx, seq := f.seq, sync := false, obs := obs }

/-- A site as the only observer. -/
def siteOnly (n : Nat) : Observers := { scope := 1, site := n, bx := 0, by_ := 0, w := 0, h := 0 }

/-- The fence performs: the accesses of its after-set that follow it see every covered write, within its scope, and nothing older than
a covered read of the same path and site has returned (R81, R83, log entry 20). -/
def State.fencePerform (s : State) (f : FenceRec) : State :=
  let s := s.follow fun w => if f.coversWrite w then some (f.follow f.aft f.obs) else none
  let s := s.follow fun w =>
    match w.saw.find? fun a => f.has a && f.aft.getLsbD a.path && a.site == f.site with
    | some a => some (f.follow (f.aft &&& pathBit a.path) (siteOnly a.site))
    | none => none
  { s with fences := s.fences.filter (·.seq ≠ f.seq) }

/-- A fence that an engine makes for what is causally after its number (R88, R361, R391): every write of a path in its before-set that
has performed is seen by all later accesses that it is causally before. Answers its number. -/
def State.engineFence (s : State) (bef : BitVec 8) (obs : Observers) : Nat × State :=
  let (q, s) := s.takeSeq
  (q, s.follow fun w =>
    if bef.getLsbD w.who.path then some { paths := 0xFF, asid := 0, site := 0xFFF, ctx := 8, seq := q, sync := false, obs := obs } else none)

/-! ### The order of MEM requests (R71, R72, R76, R78) -/

/-- The address ranges that a request accesses: address and length (R239 to R243, R246, R247, R266). -/
def MemReq.ranges (r : MemReq) : List (Nat × Nat) :=
  let d := Desc.of r.vd
  match r.ins with
  | .ld _ | .st _ | .dst _ | .atom .. => [(r.ea, r.ins.unitBytes)]
  | .ldt _ | .stt _ =>
    if r.vb = 0 then [(r.ea, d.size)] else (List.range d.rows).map fun k => (r.ea + k * r.vb.toNat, d.rowBytes)
  | .put _ | .get _ => [(r.ea, d.size)]
  | .gth _ | .sct _ | .vatom .. => (r.elems.getD []).filterMap fun e => e.map fun a => (a, r.ins.unitBytes)
  | .pref _ => [(r.ea, 1)]
  | .wsld _ => [(r.va.toNat, r.vb.toNat)]
  | .mldw _ => [(r.va.toNat, (Desc.of (BitVec.ofNat 64 (r.vb.toNat % 2 ^ 32))).size)]
  | _ => []

/-- Is the address physical (R219)? -/
def MemReq.phys (r : MemReq) : Bool :=
  match r.ins with
  | .ld m | .st m => m.md.getLsbD 3
  | _ => false

/-- A range cut at multiples of `g`; `fuel` bounds the number of pieces. -/
def cutAt (g a n fuel : Nat) : List (Nat × Nat) :=
  match fuel with
  | 0 => []
  | fuel + 1 =>
    let k := Nat.min n (g - a % g)
    if n = 0 then [] else (a, k) :: cutAt g (a + k) (n - k) fuel

def cut (g a n : Nat) : List (Nat × Nat) := cutAt g a n (n / g + 2)

/-- A piece of an access within one 2 MiB page: where it starts in the request, its target and device, its address there. -/
structure Piece where
  va : Nat
  typ : Nat
  dev : Nat
  pa : Nat
  len : Nat
  deriving DecidableEq, Repr

/-- The TYPE of a physical address, for a `.phys` access: 8 a register block, 9 the headgate, 10 none (R210). -/
def typeOfPa (pa : Nat) : Nat :=
  match paTarget pa with
  | .hbm => 0 | .weight => 1 | .tile => 2 | .host => 3 | .cellar => 5 | .regs => 8 | .headgate => 9 | .nowhere => 10

/-- The pieces of a range under a translation. -/
def xlatPieces (x : List Xlat) (a n : Nat) : List Piece :=
  (cut (2 ^ 21) a n).filterMap fun p =>
    (x.find? fun y => y.vpn == p.1 / 2 ^ 21).map fun y =>
      { va := p.1, typ := y.typ, dev := y.dev, pa := y.frame * 2 ^ 21 + p.1 % 2 ^ 21, len := p.2 }

/-- The pieces of a range under a request's translation; a physical one is cut where its target may change (R210). -/
def MemReq.piecesOf (r : MemReq) (x : List Xlat) (a n : Nat) : List Piece :=
  if r.phys then (cut (2 ^ 12) a n).map fun p => { va := p.1, typ := typeOfPa p.1, dev := 0, pa := p.1, len := p.2 }
  else xlatPieces x a n

/-- Is a device number this device's own (R223, R297)? -/
def State.isSelf (s : State) (dev : Nat) : Bool := dev == s.link.devno

/-- Is the piece at another device? -/
def State.away (s : State) (p : Piece) : Bool := p.typ == 4 && !s.isSelf p.dev

/-- The ordering points of a piece (R67): a kind, the device plus 1 where it is a peer, and a number. -/
def State.points (s : State) (p : Piece) : List (Nat × Nat × Nat) :=
  ((cut 1024 p.pa p.len).map fun q =>
    if s.away p then let o := peerPoint q.1; (o.1, p.dev + 1, o.2) else let o := s.orderPoint q.1; (o.1, 0, o.2)).eraseDups

/-- An access as the order of the memory port sees it: who makes it, whether the points and devices that it reaches are known, and the
peers that it writes (R71, R408). -/
structure PortAcc where
  g : Agent
  known : Bool
  peers : List Nat
  writes : Bool
  deriving DecidableEq, Repr

/-- A memory request as an agent: its word's class, scope and order, and the points that its pieces reach. -/
def State.memAgent (s : State) (r : MemReq) (l : List Piece) : Agent :=
  { path := 3, site := r.who.site, ctx := r.who.ctx, asid := r.who.asid, seq := r.id, act := r.act, cls := r.ins.alc, deps := r.deps,
    pts := (l.flatMap s.points).eraseDups,
    obs := s.observers r.who.site r.who.ctx r.who.asid (match r.ins.mf? with | some m => m.scp.toNat | none => 0) r.act,
    acq := r.ins.ordOf.acquires }

/-- The pieces of a translated request; none while it is not translated. -/
def MemReq.pieces? (r : MemReq) : Option (List Piece) :=
  match r.phase with
  | .ready x | .remote x => some (r.ranges.flatMap fun g => r.piecesOf x g.1 g.2)
  | _ => none

/-- A memory request as an access of its port. -/
def State.portAcc (s : State) (r : MemReq) : PortAcc :=
  let l := r.pieces?
  { g := s.memAgent r (l.getD []), known := l.isSome, peers := ((l.getD []).filter s.away).map (·.dev), writes := r.ins.writes }

/-- The pieces of an item of a stream, as far as the extent table gives them. -/
def State.itemPieces (s : State) (n c : Nat) (va : Int) (len : Nat) : Option (List Piece) :=
  if va < 0 then some []
  else
    (cut (2 ^ 21) va.toNat len).mapM fun p =>
      ((s.site n).port.ext.find? fun e => e.2.ctx == c && decide (e.2.vpn ≤ p.1 / 2 ^ 21 ∧ p.1 / 2 ^ 21 ≤ e.2.vpn + e.2.npg)).map fun e =>
        { va := p.1, typ := e.2.typ, dev := e.2.dev, pa := (e.2.frame + (p.1 / 2 ^ 21 - e.2.vpn)) * 2 ^ 21 + p.1 % 2 ^ 21, len := p.2 }

/-- The reads of a stream from item `pos` up to `top` as an access of its port: the word's class, site scope (R228). -/
def State.itemAcc (s : State) (w : Who) (seq act alc : Nat) (deps : List Nat) (d : StreamDesc) (off : Word) (pos top : Nat) : PortAcc :=
  let l := (List.range (top - pos)).map fun i => s.itemPieces w.site w.ctx (d.itemVa off (pos + i)) d.itemBytes
  { g := { path := 3, site := w.site, ctx := w.ctx, asid := w.asid, seq := seq, act := act, cls := some alc, deps := deps,
           pts := (l.flatMap fun x => (x.getD []).flatMap s.points).eraseDups, obs := s.observers w.site w.ctx w.asid 1 act }
    known := l.all (·.isSome), peers := [], writes := false }

/-- The items that an open stream has still to read. -/
def State.streamAcc (s : State) (g : StreamRun) : PortAcc :=
  s.itemAcc g.who g.seq g.act g.alc g.deps g.d g.off g.pos g.d.count

/-- The items of a `sopen` that waits for an address generator. -/
def State.sopenAcc (s : State) (r : MemReq) : PortAcc :=
  match r.ins with
  | .sopen m =>
    let d := StreamDesc.of (s.streamWords r.who.site r.who.ctx m.md.toNat)
    s.itemAcc r.who r.id r.act m.alc.toNat r.deps d r.va 0 d.count
  | _ => s.portAcc r

/-- What a site's port has still to perform. -/
def State.portAccs (s : State) (n : Nat) : List PortAcc :=
  ((s.reqs.filter fun r => r.who.site == n && r.ins.isAccess && r.answer.isNone).map s.portAcc) ++
  ((s.site n).port.gens.map fun g => s.streamAcc g.2) ++ (s.site n).port.sopens.map s.sopenAcc

/-- Must `r` wait for the access `q` of its site? One of its context, by class 0 or an acquire (R72, R78), or by a shared class where they
share an ordering point or its points are not known (R71, log entry 21); a write for the same peer by class (R408). -/
def mustFollow (q r : PortAcc) : Bool :=
  let cls := q.g.cls == some 0 || r.g.cls == some 0 || (q.g.cls.isSome && q.g.cls == r.g.cls)
  decide (q.g.seq < r.g.seq) &&
  ((q.g.sameCtx r.g &&
    (q.g.cls == some 0 || r.g.cls == some 0 || q.g.acq ||
     (cls && (!q.known || !r.known || q.g.pts.any fun p => r.g.pts.contains p)))) ||
   (q.g.site == r.g.site && cls && q.writes && r.writes && !r.peers.isEmpty && (!q.known || q.peers.any fun d => r.peers.contains d)))

/-- Is an access a member of a release set: earlier in the release's context, or causally before it (R76)? -/
def Agent.member (g a : Agent) : Bool := (a.sameCtx g && decide (a.seq < g.seq)) || g.deps.contains a.seq

/-- Does the context of a release follow the write since an earlier synchronisation (R76, R78)? -/
def Follow.known (f : Follow) (g : Agent) : Bool :=
  f.sync && (g.deps.contains f.seq || (f.site == g.site && f.ctx == g.ctx && f.asid == g.asid && decide (f.seq < g.seq)))

/-- Is a performed write in the release set of `g`: a member, ordered before one, or before the context's synchronisation (R76)? -/
def State.inSet (s : State) (g : Agent) (w : WriteRec) : Bool :=
  g.member w.who || (w.after.any g.member) || (w.follows.any fun f => f.known g) ||
  s.reqs.any fun q => let a := s.memAgent q (q.pieces?.getD []); g.member a && w.mustSee a

/-- The release set of an access, by commit number: what has performed, what is causally before it, and its context's earlier reads. -/
def State.releaseSet (s : State) (g : Agent) : List Nat :=
  ((s.mem.recs.filter (s.inSet g)).map (·.who.seq) ++ g.deps ++
   (s.mem.recs.flatMap fun w => (w.saw.filter g.member).map (·.seq)) ++
   (s.reqs.filter fun q => g.member (s.memAgent q [])).map (·.id)).eraseDups

/-- No write of a release's set is still to perform. -/
def State.setPerformed (s : State) (g : Agent) : Bool :=
  !(s.allPending.any fun p =>
    p.writes &&
    ((p.path == 3 && p.site == g.site && p.ctx == g.ctx && p.asid == g.asid && decide (p.id < g.seq)) ||
     (!p.stream && p.id != g.seq && g.deps.contains p.id)))

/-- What must not go on at scope 8 or 9 while one of these posted host writes has no completed PCIe read behind it: such a read is issued,
under its number, unless one is under way (R75, log entry 113). None where nothing is waited for. -/
def State.flushGate (s : State) (id : Nat) (f : Posted → Bool) : Option State :=
  match s.mem.posted.find? f with
  | none => none
  | some p =>
    if s.mem.flushes.any fun x => x.1 == id then some s
    else
      some { s with
        mem := { s.mem with flushes := s.mem.flushes ++ [(id, s.mem.postNum, s.clk)] }
        out := s.out ++ [.hostRead id (s.link.hostBase + (p.pa - 0x10000000000)) 1] }

/-- The PCIe read of a number has completed: the writes that it was issued behind have performed at system scope. -/
def State.flushDone (s : State) (id : Nat) : State :=
  let n := (s.mem.flushes.filter fun x => x.1 == id).foldl (fun a x => Nat.max a x.2.1) 0
  { s with
    mem := { s.mem with
      posted := s.mem.posted.filter fun p => decide (n ≤ p.num)
      flushes := s.mem.flushes.filter fun x => x.1 != id } }

/-- The posted writes of a release's set, or of the earlier accesses of its context (R72, R76). -/
def Agent.postedBefore (g : Agent) (rs : List Nat) (p : Posted) : Bool :=
  rs.contains p.who.seq || (p.who.sameCtx g && decide (p.who.seq < g.seq))

/-- May an access perform now: no fence holds it, and the order of its port lets it? -/
def State.turnOf (s : State) (r : PortAcc) : Bool :=
  !s.fenced 3 r.g.site r.g.ctx r.g.asid r.g.seq && !((s.portAccs r.g.site).any fun q => mustFollow q r)

/-- May the request perform now: its turn has come, and a release's set has performed? -/
def State.mayPerform (s : State) (r : MemReq) : Bool :=
  let p := s.portAcc r
  s.turnOf p && (memPaths r.ins).all (fun k => !s.fenced k r.who.site r.who.ctx r.who.asid r.id) &&
  (!r.ins.ordOf.releases || s.setPerformed p.g)

/-- A release performs: the writes of its set are carried to its scope (R77). -/
def State.carry (s : State) (rs : List Nat) (o : Observers) : State :=
  s.mapRecs fun w => if rs.contains w.who.seq then { w with obs := o :: w.obs } else w

/-- Is it a MEM access of class 0 (R72)? -/
def Agent.zero (g : Agent) : Bool := g.cls == some 0

/-- An access of class 0 performs: the earlier accesses of its context have performed at its scope (R72). -/
def State.widenOwn (s : State) (g : Agent) : State :=
  s.mapRecs fun w => if w.who.sameCtx g && decide (w.who.seq < g.seq) then { w with obs := g.obs :: w.obs } else w

/-- An access has performed: it is ordered after these writes, and what it precedes follows them too (R76, R84). -/
def State.noteAfter (s : State) (g : Agent) : State :=
  s.mapRecs fun w => if w.who.seq ≠ g.seq ∧ w.mustSee g then { w with after := g.stamp :: w.after } else w

/-- The narrower of two scopes. -/
def narrower (a b : Observers) : Observers := if a.scope ≤ b.scope then a else b

/-- The releases that the acquire `g` has synchronised with in reading: one whose value it returned, or one before an atomic whose value
it returned, where each lies within the other's scope (R78). `rest` are the records of older writes. -/
def syncSets (recs : List WriteRec) (g : Agent) : List (List Nat × Observers) :=
  match recs with
  | [] => []
  | w :: rest =>
    let one (w : WriteRec) : Option (List Nat × Observers) :=
      w.who.rel.bind fun rs => if w.who.obs.sees g && g.obs.sees w.who then some (rs, narrower w.who.obs g.obs) else none
    (if w.saw.any (fun a => a.seq == g.seq) then
       (one w).toList ++
       (if w.who.rmw then (rest.filter fun x => x.unit == w.unit && (x.mask &&& w.mask) != 0).filterMap one else [])
     else []) ++ syncSets rest g

/-- An acquire has performed: what follows it also follows the sets that it has synchronised with, for readers of the writers' own paths
(R78, log entry 22). -/
def State.synchronise (s : State) (g : Agent) : State :=
  (syncSets s.mem.recs g).foldl
    (fun s (rs, o) =>
      let e (paths : BitVec 8) (o : Observers) : Follow :=
        { paths := paths, asid := g.asid, site := g.site, ctx := g.ctx, seq := g.seq, sync := true, obs := o }
      let s := s.follow fun w => if rs.contains w.who.seq then some (e (ownPaths w.who.path) o) else none
      s.follow fun w => if w.saw.any fun a => a.path == 3 && a.site == g.site && rs.contains a.seq then some (e 8 (siteOnly g.site)) else none)
    s

end Sys2Proof.Machine
end

