-- ==== Sys2Proof/Machine/VectorEng.lean ====
section
/-! DEFINITION. The vector engine's queue (R170, R171, R173, R178 to R180, R187), the tile store's banks, allocations and
references (R153, R154, R174 to R176, R181). -/
namespace Sys2Proof.Machine

/-! ### Tiles that an operation names -/

/-- The tiles of an operation, and whether it writes each (R189, R274). -/
def TileOp.tiles (o : TileOp) : List (Desc × Bool) :=
  let l := opnds (if o.ins.isVec then vecRoles o.ins else mxRoles o.ins) o.vd o.va o.vb o.vc
  l.map fun t =>
    (t.d,
     match o.ins with
     | .msave _ | .mclaim _ => true
     | i => t.pos == 0 && i.writes)

/-- The same granule and generation of one site. -/
def Desc.same (d e : Desc) : Bool := d.site == e.site && d.gran == e.gran && d.gen == e.gen

/-- Do two operations name one tile, with one of the two writing it (R179)? -/
def tileClash (o p : TileOp) : Bool := o.tiles.any fun x => p.tiles.any fun y => x.1.same y.1 && (x.2 || y.2)

/-- Every unfinished tile operation of a site. -/
def Site.tileOps (x : Site) : List TileOp := x.tile.queue ++ x.mx.queue

/-- The operation waits for an earlier-committed one that uses its tiles (R70, R179). -/
def State.tileBlocked (s : State) (n : Nat) (o : TileOp) : Bool :=
  (s.site n).tileOps.any fun p => decide (p.seq < o.seq) && tileClash p o

/-- The operation waits for an earlier-committed one, or behind a fence (R81). -/
def State.tileWaits (s : State) (n path : Nat) (o : TileOp) : Bool := s.fenced path n o.who.ctx o.who.asid o.seq || s.tileBlocked n o

/-- The first of an operation's tiles that no longer serves it (R178, R273). -/
def State.staleTile (s : State) (o : TileOp) : Option Desc := (o.tiles.map (·.1)).find? fun d => (s.tileFor? d o.seq).isNone

def Desc.toWord (d : Desc) : Word :=
  Desc.word d.site d.gran d.gen.toNat d.kind (d.efc * 2 ^ 24 + d.rows * 2 ^ 16 + d.cols * 2 ^ 8 + d.flags)

/-! ### Bank ownership (R174, R176, R181) -/

/-- A bank's settings as an allocation counts them: those that a pending reconfiguration gives it (R176). -/
def TileUnit.bankNext (u : TileUnit) (b : Nat) : Bank :=
  match u.bankOps.find? fun o => decide (o.bank ≤ b ∧ b < o.bank + 2 ^ o.grp) with
  | some o => { grp := o.grp, shared := o.shared, pend := true, owner := o.owner }
  | none => u.banks.getD b Bank.reset

/-- The interleave groups, as first bank and settings. -/
def TileUnit.groupsFrom (u : TileUnit) (b fuel : Nat) : List (Nat × Bank) :=
  match fuel with
  | 0 => []
  | fuel + 1 => if 8 ≤ b then [] else let k := u.bankNext b; (b, k) :: u.groupsFrom (b + 2 ^ k.grp) fuel

def TileUnit.groups (u : TileUnit) : List (Nat × Bank) := u.groupsFrom 0 8

/-- The granules that tiles hold: first granule and length. -/
def TileUnit.held (u : TileUnit) : List (Nat × Nat) :=
  u.tiles.map fun t => (t.1, (Desc.of (BitVec.ofNat 64 t.2.shape.toNat)).granules)

/-- The lowest free run of `k` granules from `g` below `hi`; `fuel` is one more than the number of tiles. -/
def freeRun (held : List (Nat × Nat)) (k g hi fuel : Nat) : Option Nat :=
  match fuel with
  | 0 => none
  | fuel + 1 =>
    if hi < g + k then none
    else
      match held.find? fun h => decide (h.1 < g + k ∧ g < h.1 + h.2) with
      | none => some g
      | some h => freeRun held k (h.1 + h.2) hi fuel

/-- The groups from which context `c` may take granules (R176 step 1). -/
def TileUnit.candidates (u : TileUnit) (c : Nat) : List (Nat × Bank) :=
  (u.groups.filter fun g => !g.2.shared && g.2.owner == c) ++ (u.groups.filter fun g => g.2.shared)

/-- The granule an allocation would get now (R176). -/
def TileUnit.findTile (u : TileUnit) (c k : Nat) : Option Nat :=
  (u.candidates c).findSome? fun g =>
    if g.2.pend then none else freeRun u.held k (256 * g.1) (256 * (g.1 + 2 ^ g.2.grp)) (u.held.length + 1)

/-- Could any candidate group hold the run (R176 step 3)? -/
def TileUnit.couldHold (u : TileUnit) (c k : Nat) : Bool := (u.candidates c).any fun g => decide (k ≤ 256 * 2 ^ g.2.grp)

/-- Allocate a tile at granule `g`: the descriptor, and the state with it live (R152, R175). -/
def State.newTile (s : State) (n g c kind : Nat) (shape : BitVec 32) : Word × State :=
  let u := (s.site n).tile
  let t : Tile := { owner := c, kind := kind, shape := shape, count := 1, poison := 0, dying := none }
  (Desc.word n g (u.gen g).toNat kind shape.toNat, s.modTile n fun u => { u with tiles := Tbl.set u.tiles g t })

/-- An allocation: none while it waits, else the descriptor, or refused (R176). -/
def State.allocTile (s : State) (n c kind : Nat) (shape : BitVec 32) : Option (Option Word × State) :=
  let u := (s.site n).tile
  let k := (Desc.of (BitVec.ofNat 64 shape.toNat)).granules
  if !u.couldHold c k then some (none, s)
  else
    match u.findTile c k with
    | some g => let r := s.newTile n g c kind shape; some (some r.1, r.2)
    | none => none

/-- HALLOC_GRANT: waiting allocation `k` of a site, unless an earlier one of its context waits (R176). -/
def execHallocGrant (n k : Nat) (s : State) : Out :=
  let l := (s.site n).tile.waiting
  match l[k]? with
  | none => .next s
  | some r =>
    if (l.take k).any fun q => q.who.ctx == r.who.ctx then .next s
    else
      match s.allocTile n r.who.ctx r.kind r.shape with
      | none => .next s
      | some (some d, s) =>
        let s := s.modTile n fun u => { u with waiting := listDrop1 u.waiting k }
        .next (s.replyFrom n n (some r.target) d r.psn r.deps r.who.asid r.gen)
      | some (none, s) =>
        let s := s.modTile n fun u => { u with waiting := listDrop1 u.waiting k }
        let s := s.logFault r.who 0x0205 (r.shape.toNat + r.kind * 2 ^ 32)
        .next (s.replyFrom n n (some r.target) 0 true r.deps r.who.asid r.gen)

/-! ### References (R153, R154) -/

/-- A writing operation on the tile has been committed and has not finished (R175). -/
def State.tileBusy (s : State) (d : Desc) : Bool :=
  (s.site d.site).tileOps.any fun o => o.tiles.any fun t => t.1.same d && t.2

/-- A handle request is applied at its home (R153, R154). `q` is its place in the home's commit order. -/
def State.applyHandle (s : State) (r : HandleReq) (q : Nat) : State :=
  let d := Desc.of r.desc
  let n := d.site
  let who : Who := { site := r.src, ctx := r.ctx, asid := r.asid, ip := 0, itn := 0, fp := 0, hdr := 0 }
  let stale (s : State) : State := s.logAt who 0x010D (handleOf r.desc) 0 (handleOf r.desc) 0
  match s.liveTile? n d, r.op with
  | none, .info _ => s.replyFrom n r.src r.target 0 true r.deps r.asid r.gen
  | none, _ => stale s
  | some t, .inc =>
    if t.count = BitVec.allOnes 16 then s.logAt who 0x010E (handleOf r.desc) 0 (handleOf r.desc) 0
    else s.modTile n fun u => { u with tiles := Tbl.set u.tiles d.gran { t with count := t.count + 1 } }
  | some t, .dec =>
    let t := { t with count := t.count - 1, dying := if t.count = 1 then some q else none }
    s.modTile n fun u => { u with tiles := Tbl.set u.tiles d.gran t }
  | some t, .info sel =>
    let v := if sel then
        fieldsWord [(0, t.count.toNat), (16, b2n (s.tileBusy d)), (17, ((s.site n).tile.gen d.gran).toNat)]
      else t.poison
    s.replyFrom n r.src r.target v r.psn r.deps r.asid r.gen

/-- HANDLE_REQUEST: a request from another site reaches its home; requests of one site for one home keep their order (R26). -/
def execHandleRequest (k : Nat) (s : State) : Out :=
  match s.handleReqs[k]? with
  | none => .next s
  | some r =>
    let home (x : HandleReq) : Nat := (Desc.of x.desc).site
    if (s.handleReqs.take k).any fun x => x.src == r.src && home x == home r then .next s
    else
      let s := { s with handleReqs := listDrop1 s.handleReqs k }
      let (q, s) := s.takeSeq
      .next (s.applyHandle r q)

/-- The tile operands of a memory request, D, then B, then a compare tile (R219, R242). -/
def MemReq.tiles (r : MemReq) : List Word :=
  match r.ins with
  | .ldt _ | .stt _ | .put _ | .get _ => [r.vd]
  | .gth _ | .sct _ => [r.vd, r.vb]
  | .vatom fn _ => [r.vd, r.vb] ++ (if fn = .cas then [r.vc] else [])
  | _ => []

/-- Does a memory request that the port has begun to serve hold the tile (R447)? -/
def MemReq.holds (r : MemReq) (d : Desc) : Bool :=
  let begun := r.elems.isSome || (match r.phase with | .remote _ => true | _ => false)
  begun && r.tiles.any fun w => (Desc.of w).same d

/-- The tiles' granules advance their generations, and the tile is gone (R153, R175). -/
def TileUnit.free (u : TileUnit) (g : Nat) : TileUnit :=
  match Tbl.get? u.tiles g with
  | none => u
  | some t =>
    let k := (Desc.of (BitVec.ofNat 64 t.shape.toNat)).granules
    { u with
      tiles := Tbl.erase u.tiles g
      gens := (List.range k).foldl (fun m i => Tbl.put m (g + i) (u.gen (g + i) + 1) 0) u.gens }

/-- TILE_FREE: a dying tile is freed once no operation committed before it began to die uses it (R153). -/
def execTileFree (n g : Nat) (s : State) : Out :=
  let u := (s.site n).tile
  match Tbl.get? u.tiles g with
  | none => .next s
  | some t =>
    match t.dying with
    | none => .next s
    | some q =>
      let d : Desc := { Desc.of (Desc.word n g (u.gen g).toNat t.kind t.shape.toNat) with gen := u.gen g }
      if ((s.site n).tileOps.any fun o => decide (o.seq < q) && o.tiles.any fun x => x.1.same d) ||
         (s.reqs.any fun r => decide (r.id < q) && r.holds d) then .next s
      else .next (s.modTile n fun u => u.free g)

/-! ### Bank reconfiguration (R181) -/

/-- The banks of a VE_BANKCTL command: first bank, size code, shared, owner (R182). -/
def bankCommand (v : Word) : BankOp :=
  { seq := 0, bank := wbits v 0 3, grp := wbits v 10 2, shared := wbit v 9, owner := wbits v 6 3, wiping := false }

def BankOp.has (o : BankOp) (b : Nat) : Bool := decide (o.bank ≤ b ∧ b < o.bank + 2 ^ o.grp)

/-- The checks of step 1. -/
def TileUnit.bankOk (u : TileUnit) (o : BankOp) : Bool :=
  o.bank % 2 ^ o.grp == 0 && decide (o.bank + 2 ^ o.grp ≤ 8) &&
  (List.range 8).all fun b =>
    !o.has b ||
    (let k := u.banks.getD b Bank.reset
     let b0 := b / 2 ^ k.grp * 2 ^ k.grp
     !k.pend && decide (o.bank ≤ b0 ∧ b0 + 2 ^ k.grp ≤ o.bank + 2 ^ o.grp))

/-- Does a tile with these granules lie in the banks? -/
def BankOp.hits (o : BankOp) (g k : Nat) : Bool := decide (g < 256 * (o.bank + 2 ^ o.grp) ∧ 256 * o.bank < g + k)

/-- Step 3: no operation or landing write committed before the command still touches the banks; a write whose pages are not known
yet may. -/
def State.bankDrained (s : State) (n : Nat) (o : BankOp) : Bool :=
  let lo := tileBase n + o.bank * 2 ^ 18
  let hi := lo + 2 ^ o.grp * 2 ^ 18
  !((s.site n).tileOps.any fun p => p.tiles.any fun t => o.hits t.1.gran t.1.granules) &&
  !(s.reqs.any fun r => decide (r.id < o.seq) &&
    match r.phase with
    | .ready x => r.ranges.any fun g => (r.piecesOf x g.1 g.2).any fun p => p.typ == 2 && decide (p.pa < hi ∧ lo < p.pa + p.len)
    | .committed | .parked .. => r.ins.writes
    | _ => false)

/-- Step 4, when the banks have drained: their tiles are freed and the wipe begins. -/
def State.bankFree (s : State) (n : Nat) (o : BankOp) : State :=
  s.modTile n fun u =>
    let dead := (u.tiles.filter fun t => o.hits t.1 (Desc.of (BitVec.ofNat 64 t.2.shape.toNat)).granules).map (·.1)
    let u := dead.foldl TileUnit.free u
    { u with bankOps := u.bankOps.map fun p => if p = o then { p with wiping := true } else p }

/-- A command written to VE_BANKCTL: checked, then PEND set in its banks (R181 steps 1 and 2). -/
def State.bankBegin (s : State) (n : Nat) (v : Word) : State :=
  let o := bankCommand v
  if !(s.site n).tile.bankOk o then
    s.logFault { Who.zero with site := n, ctx := 7, asid := s.asidOf n 7 } 0x0208 v.toNat
  else
    let (q, s) := s.takeSeq
    let o := { o with seq := q }
    let s := s.modTile n fun u =>
      { u with bankOps := u.bankOps ++ [o], banks := u.banks.zipIdx.map fun b => if o.has b.2 then { b.1 with pend := true } else b.1 }
    if s.bankDrained n o then s.bankFree n o else s

/-- BANK_RECONFIGURE: a command begins; one that has begun goes on, when its banks have drained, with their tiles freed and the
wipe started (R181). -/
def execBankReconfigure (n : Nat) (v : Word) (s : State) : Out :=
  let o := bankCommand v
  match (s.site n).tile.bankOps.find? fun p => !p.wiping && p.bank == o.bank && p.grp == o.grp with
  | some p => .next (if s.bankDrained n p then s.bankFree n p else s)
  | none => .next (s.bankBegin n v)

/-- BANK_WIPE_DONE: the banks are wiped to zero; the new ownership applies and PEND clears (R181 steps 5 and 6). -/
def execBankWipeDone (n k : Nat) (s : State) : Out :=
  match (s.site n).tile.bankOps[k]? with
  | none => .next s
  | some o =>
    if !o.wiping then .next s
    else
      let lo := tileBase n + o.bank * 2 ^ 18
      let hi := lo + 2 ^ o.grp * 2 ^ 18
      let b : Bank := { grp := o.grp, shared := o.shared, pend := false, owner := o.owner }
      let s := { s with mem := { s.mem with
          cells := s.mem.cells.filter fun c => !decide (lo ≤ c.1 ∧ c.1 < hi)
          units := s.mem.units.filter fun c => !decide (lo ≤ c.1 * 8 ∧ c.1 * 8 < hi)
          recs := s.mem.recs.filter fun w => !decide (lo ≤ w.unit * 8 ∧ w.unit * 8 < hi) } }
      .next (s.modTile n fun u =>
        { u with bankOps := listDrop1 u.bankOps k, banks := u.banks.zipIdx.map fun c => if o.has c.2 then b else c.1 })

/-! ### The vector queue (R178 to R180, R187) -/

def emptyImg : Img := { rows := [], scales := [], outl := [] }

/-- The operands of an operation, given its images. -/
def TileOp.vecIn (o : TileOp) (D A B C : Img) : VecIn :=
  { dD := Desc.of o.vd, dA := Desc.of o.va, dB := Desc.of o.vb, dC := Desc.of o.vc, D := D, A := A, B := B, C := C, a := o.va, b := o.vb,
    g := o.g }

/-- VECTOR_OP_START: the first operation that has not started, when its waits are over; one whose tile is gone is dropped
(R178, R179). Its draws follow from its shape alone (R169). -/
def execVectorOpStart (n : Nat) (s : State) : Out :=
  let q := (s.site n).tile.queue
  match q.findIdx? fun o => !o.started with
  | none => .next s
  | some i =>
    match q[i]? with
    | none => .next s
    | some o =>
      if s.tileWaits n 1 o then .next s
      else
        let put (s : State) (o : TileOp) : State := s.modTile n fun u => { u with queue := listUpd u.queue i fun _ => o }
        match s.staleTile o with
        | some d =>
          let s := s.logAt o.who 0x0204 d.toWord.toNat 0 (handleOf d.toWord) 0
          .next (put s { o with started := true, result := some (o.vd, true) })
        | none =>
          let o := { o with started := true, g := (s.cregs n o.who.ctx).gvec }
          let g := (vecRun o.ins (o.vecIn emptyImg emptyImg emptyImg emptyImg)).g
          .next ((put s o).modCregs n o.who.ctx fun r => { r with gvec := g })

/-- GAP_BOOKING_DROP: an operation at the head whose booking was made, and whose wait under R179 has not ended (R180). -/
def execGapBookingDrop (n : Nat) (s : State) : Out :=
  let book (q : List TileOp) : Option Nat :=
    match q.findIdx? fun o => !o.started with
    | none => none
    | some i => match q[i]? with | some o => if o.booked && s.tileBlocked n o then some i else none | none => none
  let clear (q : List TileOp) (i : Nat) : List TileOp := listUpd q i fun o => { o with booked := false }
  match book (s.site n).tile.queue, book (s.site n).mx.queue with
  | some i, _ => .next ((s.modTile n fun u => { u with queue := clear u.queue i }).count n 2)
  | none, some i => .next ((s.modMx n fun u => { u with queue := clear u.queue i }).count n 2)
  | none, none => .next s

/-- The bits of VE_STICKY and VE_OUTFLG that a tile operation's exceptions set for a context (R170, R182). -/
def State.tileFlags (s : State) (n c : Nat) (exc : BitVec 8) (e : Exc) : State :=
  s.modTile n fun u =>
    { u with sticky := u.sticky ||| BitVec.ofNat 32 (excSticky exc e * 2 ^ (4 * c))
             outflg := u.outflg ||| BitVec.ofNat 16 (excOutflg e * 2 ^ (2 * c)) }

/-- The bytes of D that an operation writes: offset and length (R207). -/
def vecParts (i : Instr) (dD dA : Desc) (b : Word) : List (Nat × Nat) :=
  match i with
  | .vmov x =>
    if x.m.getLsbD 1 then (dD.windowParts (windowRow b) (windowCol b) dA.rows dA.cols).map fun p => (p.off, p.len)
    else [(0, dD.size)]
  | _ => [(0, dD.size)]

/-- Tile accesses of an operation at its site: their bytes reach the bank (R75). -/
def tileAgent (path n : Nat) (o : TileOp) : Agent :=
  { path := path, site := n, ctx := o.who.ctx, asid := o.who.asid, seq := o.seq, act := o.act, deps := o.deps, obs := deviceWide n }

/-- Write parts of a tile's image. -/
def State.writeParts (s : State) (g : Agent) (base : Nat) (l : List Byte) (parts : List (Nat × Nat)) : State :=
  match parts with
  | [] => s
  | (o, k) :: r => (s.writeMem g (base + o) (slice l o k)).writeParts g base l r

/-! ### What an operation reads (R173) -/

/-- The tiles of an operation as it reads them: D, B, A and C. -/
inductive Source where
  | d | b | a | c
  deriving DecidableEq, Repr

/-- The tile of an operation at a source. -/
def TileOp.source (o : TileOp) (k : Source) : Desc :=
  Desc.of (match k with | .d => o.vd | .b => o.vb | .a => o.va | .c => o.vc)

/-- Is the source a tile that the operation reads? D is read by `vhist` without `.clr` (R209). -/
def TileOp.reads (o : TileOp) (k : Source) : Bool :=
  let r := vecRoles o.ins
  match k with
  | .d => (match o.ins with | .vhist x => !x.m.getLsbD 0 | _ => false)
  | .b => r.b.isSome
  | .a => r.a.isSome
  | .c => r.c.isSome

/-- What the operation reads of a source; `B` is B's image, whose codes name the columns that `vperm` gathers. Where the entry reads a
whole tile, every stretch of its rows. For `vtrn` a stretch stands under the row of D that it feeds. -/
def TileOp.readParts (o : TileOp) (k : Source) (B : Img) : List RowPart :=
  let t := o.source k
  let dD := Desc.of o.vd
  match o.ins, k with
  | .vbc x, .a =>
    if x.m.getLsbD 0 then (List.range t.rows).map fun r => t.elemPart r o.vb.toNat
    else t.windowParts o.vb.toNat 0 1 t.cols
  | .vmov x, .a =>
    if x.m.getLsbD 0 then t.windowParts (windowRow o.vb) (windowCol o.vb) dD.rows dD.cols else t.allParts
  | .vperm x, .a =>
    (List.range dD.rows).flatMap fun r => (List.range dD.cols).filterMap fun j =>
      let c := B.code (if x.m.getLsbD 0 then r else 0) j
      if c < t.cols then some (t.elemPart r c) else none
  | .vtrn _, .a =>
    (List.range t.rows).flatMap fun r => (List.range t.cols).map fun j => { t.elemPart r j with row := j }
  | _, _ => t.allParts

/-- The rows of D that a row mask of one source feeds. -/
def TileOp.feeds (o : TileOp) (k : Source) (m : Word) : Word :=
  match o.ins with
  | .vtrn _ => m
  | i =>
    let f := vecFeed i (Desc.of o.vd) (Desc.of o.va) o.vb
    match k with
    | .d => f m 0 0 0
    | .a => f 0 m 0 0
    | .b => f 0 0 m 0
    | .c => f 0 0 0 m

/-- A source as it has been read: image, poison mask, and each uncorrectable unit with the rows of D that it feeds. -/
structure SourceRead where
  img : Img
  bytes : List Byte
  poison : Word
  bad : List (Nat × Word)
  deriving DecidableEq, Repr

/-- Read one source of an operation. -/
def State.readSource (s : State) (o : TileOp) (k : Source) (B : Img) : SourceRead × State :=
  if !o.reads k then ({ img := emptyImg, bytes := [], poison := 0, bad := [] }, s)
  else
    let t := o.source k
    let l := o.readParts k B
    let wr := (vecWritten o.ins (Desc.of o.vd) (Desc.of o.va) o.vb).1
    let bad := (s.badUnits t l).map fun u => (u, o.feeds k (unitRows t l u) &&& wr)
    let p := s.tilePoison t
    let (b, s) := s.readParts (tileAgent 1 t.site o) t l
    ({ img := Img.of t b, bytes := b, poison := p, bad := bad }, s)

/-- Each uncorrectable unit of a source: 0x0207 with the rows of D that it feeds (R173). -/
def State.logBadUnits (s : State) (o : TileOp) (k : Source) (r : SourceRead) : State :=
  let d := o.source k
  r.bad.foldl
    (fun s p =>
      let off := p.1 * 8 - d.base
      s.logAt o.who 0x0207 (d.gran + off / 1024 + off % 1024 / 8 * 2 ^ 11) 0 (handleOf d.toWord) p.2)
    s

/-- Run a vector operation that has started: the state after it, and the poison bits of the rows that it wrote. -/
def State.runVec (s : State) (n : Nat) (o : TileOp) : Word × State :=
  let dD := Desc.of o.vd
  let dA := Desc.of o.va
  let (D, s) := s.readSource o .d emptyImg
  let (B, s) := s.readSource o .b emptyImg
  let (A, s) := s.readSource o .a B.img
  let (C, s) := s.readSource o .c emptyImg
  let keep : Img := match o.ins with
    | .vmov x => if x.m.getLsbD 1 then Img.of dD (s.mem.bytes dD.base dD.size) else D.img
    | _ => D.img
  let v := o.vecIn keep A.img B.img C.img
  let out := vecRun o.ins v
  let l := vecBytes o.ins v A.bytes
  let s := s.writeParts (tileAgent 1 n o) dD.base l (vecParts o.ins dD dA o.vb)
  let wr := vecWritten o.ins dD dA o.vb
  let pol := rowMask (fun k => excPoison o.exc (out.exc.getD k Exc.none)) 64
  let hit := (D.bad ++ B.bad ++ A.bad ++ C.bad).foldl (fun m p => m ||| p.2) 0
  let fed := vecFeed o.ins dD dA o.vb D.poison A.poison B.poison C.poison ||| hit
  let new := (fed ||| pol ||| (if o.psn then BitVec.allOnes 64 else 0)) &&& wr.1
  let old := s.tilePoison dD
  let s := s.setPoison dD ((old &&& ~~~wr.2) ||| new)
  let s := s.tileFlags n o.who.ctx o.exc (out.exc.foldl Exc.or Exc.none)
  let s := (((s.logBadUnits o .d D).logBadUnits o .b B).logBadUnits o .a A).logBadUnits o .c C
  (((old &&& ~~~wr.2) ||| new) &&& wr.1, s)

/-- The governor sees a class of activity of a context at a site; the first that exceeds its page's class is kept (R299). -/
def State.activity (s : State) (n cls : Nat) (w : Who) : State :=
  let declared := match s.page? n w.ctx with | some p => p.pcls | none => 0
  let r := Tbl.getD (s.site n).obs.power w.ctx { cls := 0, who := none }
  let who := if r.who.isNone && decide (declared < cls) then some w else r.who
  s.modSite n fun x => { x with obs := { x.obs with power := Tbl.set x.obs.power w.ctx { cls := Nat.max r.cls cls, who := who } } }

/-- VECTOR_OP_COMPLETE: the operation at the head of the queue finishes; completion tokens leave in commit order (R187). -/
def execVectorOpComplete (n : Nat) (s : State) : Out :=
  match (s.site n).tile.queue with
  | [] => .next s
  | o :: rest =>
    if !o.started then .next s
    else
      let pop (s : State) : State := s.modTile n fun u => { u with queue := rest }
      match o.result with
      | some (v, psn) => .next ((pop s).replyFrom n n o.target v psn (o.seq :: o.deps) o.who.asid o.gen)
      | none =>
        let r := (s.activity n 1 o.who).runVec n o
        .next ((pop r.2).replyFrom n n o.target o.vd (o.psn || r.1 != 0) (o.seq :: o.deps) o.who.asid o.gen)

end Sys2Proof.Machine
end

