-- ==== Sys2Proof/Machine/MatrixEng.lean ====
section
/-! DEFINITION. The matrix engine's queue: what each operation does when it starts, and its completion (R249, R258 to R261, R266
to R285). -/
namespace Sys2Proof.Machine

/-- Does operation `i` wait for an earlier one `j` (R261)? -/
def mxWaits (i j : Instr) : Bool :=
  let clr (x : XF) : Bool := x.m.getLsbD 0
  match i with
  | .mlds _ | .mldw _ | .mspm .. => match j with | .mswp _ => true | _ => false
  | .mswp _ => match j with | .mlds _ | .mldw _ | .mspm .. | .mstr _ | .mstt _ => true | _ => false
  | .mstr _ | .mstt _ => match j with | .mswp _ | .macc .. | .manc _ | .mclr _ => true | .mout x => clr x | _ => false
  | .mout _ => match j with | .mstr _ | .mstt _ | .mepc _ | .mclr _ | .mtkc _ | .macc .. | .manc _ => true | _ => false
  | .mclr _ => match j with | .mstr _ | .mstt _ | .mout _ => true | _ => false
  | .macc .. | .manc _ => match j with | .mstr _ | .mstt _ | .mclr _ | .mout _ => true | _ => false
  | .mepc _ => match j with | .mout _ => true | _ => false
  | .mtkr .. | .mtkc _ => match j with | .mout _ | .mtkc _ => true | _ => false
  | _ => true

/-- The context whose %exc, sticky bits and generator an operation uses: the owner's (R248, R260), or its own where none is set. -/
def MatrixUnit.acting (m : MatrixUnit) (o : TileOp) : Nat := m.owner.getD o.who.ctx

/-- What an operation's start gives: the completion's payload and PSN, and the state. -/
abbrev MxDone := (Word × Bool) × State

def State.modCore (s : State) (n : Nat) (f : MxCore → MxCore) : State := s.modMx n fun m => { m with core := f m.core }

def State.mxSticky (s : State) (n : Nat) (b : BitVec 3) : State := s.modMx n fun m => { m with sticky := m.sticky ||| b }

/-- An operation dropped or refused: a logged fault and PSN 1 (R272). -/
def mxDrop (s : State) (o : TileOp) (code detail handle : Nat) (payload : Word) : MxDone :=
  ((payload, true), s.logAt o.who code detail 0 handle 0)

/-- The completion payload of an operation that is dropped: the descriptor that its entry names, else 0 (R275 to R285). -/
def TileOp.dropPayload (o : TileOp) : Word :=
  match o.ins with
  | .mlds _ | .mspm .. | .mldw _ => o.va
  | .mout _ | .mtkr .. | .mclaim _ | .mrel _ | .msave _ | .mrest _ => o.vd
  | _ => 0

/-- An uncorrectable read (R259). -/
def State.mxUncorrectable (s : State) (n : Nat) (o : TileOp) (detail va handle : Nat) (rows : Word) : State :=
  let s := (s.mxSticky n 4).logAt o.who 0x0409 detail va handle rows
  if detail = 0 then s.hurt n o.who.ctx else s

/-- A tile's image on the MAT path, its poison, its bad rows. -/
def State.mxRead (s : State) (o : TileOp) (w : Word) : (List Byte × Word × Word) × State :=
  let d := Desc.of w
  let bad := (s.badRows d).1
  let p := s.tilePoison d
  let r := s.readTile (tileAgent 2 d.site o) d
  ((r.1, p, bad), r.2)

/-- Write a whole tile on the MAT path: its image, and the poison of its rows (R171). -/
def State.mxWrite (s : State) (n : Nat) (o : TileOp) (w : Word) (l : List Byte) (p : Word) : State :=
  let d := Desc.of w
  (s.writeMem (tileAgent 2 n o) d.base (slice l 0 d.size)).setPoison d p

/-- The poison columns of a load (R259). -/
def loadPc (o : TileOp) (p : Word) : BitVec 32 := if o.psn then BitVec.allOnes 32 else BitVec.ofNat 32 p.toNat

/-- Load an image into the shadow plane (R251): a sparse one takes a sparsity that nothing fixes before `mspm` (log entry 27). -/
def State.loadShadow (s : State) (n : Nat) (d : Desc) (l : List Byte) (pc : BitVec 32) : State :=
  let sp := if !d.sparse then 0 else if Config.sparsityBefore s.free then 2 else 1
  let s := if d.sparse then s.bumpFree else s
  s.modCore n fun c => { c with shadow := Plane.load d l sp c.shadow.idx pc }

/-- `mlds` (R275). -/
def mxMlds (n : Nat) (o : TileOp) (s : State) : MxDone :=
  let (r, s) := s.mxRead o o.va
  let d := Desc.of o.va
  let s := if r.2.2 ≠ 0 then s.mxUncorrectable n o 0 0 (handleOf o.va) r.2.2 else s
  ((o.va, o.psn), s.loadShadow n d r.1 (loadPc o (r.2.1 ||| r.2.2)))

/-- Read pieces of the weight store on the MAT path. -/
def State.mxWeights (s : State) (g : Agent) (l : List Piece) : List Byte × State :=
  match l with
  | [] => ([], s)
  | p :: r =>
    let (b, s) := s.readBytes g p.pa p.len
    let (c, s) := s.mxWeights g r
    (b ++ c, s)

/-- `mldw`, once translated; none when its page could not be, and then `told` says that its record is already written (R216, R266,
R275). -/
def mxMldw (n : Nat) (o : TileOp) (x : Option (List Piece)) (told : Bool) (s : State) : MxDone :=
  let fail (why : Nat) : MxDone := ((o.va, true), s.logAt o.who 0x0407 why o.va.toNat 0 0)
  match x with
  | none => if told then ((o.va, true), s) else fail 0
  | some l =>
    if l.any fun p => p.typ != 1 then fail 1
    else if l.any fun p => (p.pa - 0x8000000000) / 2 ^ 31 != dieOf n then fail 2
    else
      let d := Desc.of (BitVec.ofNat 64 (o.vb.toNat % 2 ^ 32))
      let hit (q : Nat × Nat) : Bool := l.any fun p =>
        let lo := Nat.max (p.va - o.va.toNat) q.1
        let hi := Nat.min (p.va - o.va.toNat + p.len) (q.1 + q.2)
        decide (lo < hi) && s.mem.bad (p.pa + (lo - (p.va - o.va.toNat))) (hi - lo)
      let bad := rowMask (fun r => (d.rowParts r).any hit) d.rows
      let (b, s) := s.mxWeights (tileAgent 2 n o) l
      let s := if bad ≠ 0 then s.mxUncorrectable n o 0 o.va.toNat 0 bad else s
      ((o.va, o.psn), s.loadShadow n d b (loadPc o bad))

/-- `mswp` (R277). -/
def mxMswp (n : Nat) (o : TileOp) (s : State) : MxDone :=
  let c := (s.site n).mx.core
  let p := c.shadow
  let bad := p.valid && p.sparsity != 0 && !p.metaOk
  let s := s.modCore n fun c => { c with active := { c.shadow with valid := c.shadow.valid && !bad }, shadow := c.active }
  ((0, o.psn), if bad then s.logAt o.who 0x0403 1 0 0 0 else s)

/-- The live rows of `mstr` and `mstt` below the count, under the mask (R253, R278). -/
def streamLive (o : TileOp) (x : XF) : List Nat :=
  (List.range o.vd.toNat).filter fun r => !x.m.getLsbD 0 || o.vb.getLsbD r

/-- `mstr` and `mstt` (R253 to R260, R278). -/
def mxStream (n : Nat) (o : TileOp) (x : XF) (turned : Bool) (s : State) : MxDone :=
  let m := (s.site n).mx
  let c := m.core
  let p := c.active
  let dA := Desc.of o.va
  let dC := Desc.of o.vc
  let two := !turned && x.c != 0 && p.sparsity == 2
  let cols := if turned then dA.rows else if two then 192 + dC.cols else dA.cols
  if !p.valid then mxDrop s o 0x0403 0 0 0
  else
    let why := b2n (p.desc.ef.mxClass != dA.ef.mxClass) + 2 * b2n (decide (p.logicalK < cols))
    if why ≠ 0 then mxDrop s o 0x0408 why 0 0
    else
      let live := streamLive o x
      let (rA, s) := s.mxRead o o.va
      let (rC, s) := if two then s.mxRead o o.vc else (([], 0, 0), s)
      let mask := if turned then (if live.isEmpty then 0 else allRows dA.rows) else rowMask (fun r => live.contains r) 64
      let badA := rA.2.2 &&& mask
      let badC := rC.2.2 &&& mask
      let s := if badA ≠ 0 then s.mxUncorrectable n o 1 0 (handleOf o.va) badA else s
      let s := if badC ≠ 0 then s.mxUncorrectable n o 1 0 (handleOf o.vc) badC else s
      let A := Img.of dA rA.1
      let C := Img.of dC rC.1
      let rows := live.map fun r =>
        ({ r := r
           elems := if turned then (List.range dA.rows).map fun k => A.elem dA k r else A.rowElems dA r
           second := if two then C.rowElems dC r else []
           poisoned := p.pc != 0 || o.psn ||
             (if turned then rA.2.1 != 0 || badA != 0 else (rA.2.1 ||| badA ||| rC.2.1 ||| badC).getLsbD r) } : LiveRow)
      let out := c.stream o.exc rows
      let s := (s.modCore n fun _ => out.1).mxSticky n out.2.2
      ((BitVec.ofNat 64 live.length, o.psn), s.tileFlags n (m.acting o) o.exc out.2.1)

/-- `macc` and `manc`, refused while a row is not clear (R258, R279). -/
def mxMode (n : Nat) (o : TileOp) (opc : Nat) (f : MxCore → MxCore) (s : State) : MxDone :=
  if (s.site n).mx.core.accz then ((1, o.psn), s.modCore n f) else mxDrop s o 0x0405 opc 0 0

/-- The rows of a descriptor tile as words. -/
def tileWords (l : List Byte) (rows cols : Nat) : List (List Word) :=
  (List.range rows).map fun r => (List.range cols).map fun j => BitVec.ofNat 64 (field l (8 * (r * cols + j)) 8)

/-- `mepc` (R263, R280). -/
def mxMepc (n : Nat) (o : TileOp) (s : State) : MxDone :=
  let (r, s) := s.mxRead o o.va
  let s := if r.2.2 ≠ 0 then s.mxSticky n 4 else s
  match parseChain (tileWords r.1 (Desc.of o.va).rows 32) [] with
  | .error k => mxDrop s o 0x0404 k 0 0
  | .ok l => ((BitVec.ofNat 64 l.length, o.psn), s.modCore n fun c => { c with chain := l })

/-- `mout` (R264, R281). -/
def mxMout (n : Nat) (o : TileOp) (x : XF) (s : State) : MxDone :=
  let m := (s.site n).mx
  let d := Desc.of o.vd
  match m.core.outputBad d (x.m.getLsbD 1) with
  | some why => mxDrop s o 0x040C why 0 o.vd
  | none =>
    let k := m.acting o
    let out := m.core.mout d x o.va.toNat o.exc o.psn (s.cregs n k).gmat
    let p := rowMask (fun r =>
      (m.core.acc.getD r AccRow.cleared).poison || o.psn || excPoison o.exc (out.exc.getD r Exc.none)) d.rows
    let s := (s.modCore n fun _ => out.core).modCregs n k fun r => { r with gmat := out.g }
    let s := if out.ancOvf then s.mxSticky n 1 else s
    let s := s.tileFlags n k o.exc (out.exc.foldl Exc.or Exc.none)
    ((o.vd, o.psn || p != 0), s.mxWrite n o o.vd (out.img.bytes d) p)

/-- `mtkr` (R283). -/
def mxMtkr (n : Nat) (o : TileOp) (idx : Bool) (s : State) : MxDone :=
  let c := (s.site n).mx.core
  let d := Desc.of o.vd
  let p := rowMask (fun r => (c.topk.getD r TopRow.cleared).poison || o.psn) d.rows
  ((o.vd, o.psn || p != 0), s.mxWrite n o o.vd ((c.topImage idx d).bytes d) p)

/-- `mspm` (R252, R276). -/
def mxMspm (n : Nat) (o : TileOp) (s4 : Bool) (s : State) : MxDone :=
  let p := (s.site n).mx.core.shadow
  let dA := Desc.of o.va
  let pd := p.desc
  let (r, s) := s.mxRead o o.va
  let s := if r.2.2 ≠ 0 then s.mxUncorrectable n o 0 0 (handleOf o.va) r.2.2 else s
  let idx := (Img.of dA r.1).rows
  let dense := !p.valid || p.sparsity == 0
  let shape := p.valid && (dA.rows != pd.rows || dA.cols != pd.cols)
  let order := !(idx.all (indicesRise (if s4 then 4 else 8)))
  let why := b2n shape + 2 * b2n order + 4 * b2n dense
  if why ≠ 0 then
    mxDrop (s.modCore n fun c => { c with shadow := { c.shadow with metaOk := false } }) o 0x040B why 0 o.va
  else
    ((o.va, o.psn),
     s.modCore n fun c => { c with shadow := { c.shadow with metaOk := true, idx := idxRows idx, sparsity := if s4 then 2 else 1 } })

/-- Write the state image into the four tiles D, A, B, C (R268). -/
def State.saveMx (s : State) (n : Nat) (o : TileOp) : State :=
  let m := (s.site n).mx
  let l := m.core.image (s.cregs n (m.acting o)).gmat
  let p := if o.psn then BitVec.allOnes 64 else 0
  let s := s.mxWrite n o o.vd (l.getD 0 []) p
  let s := s.mxWrite n o o.va (l.getD 1 []) p
  let s := s.mxWrite n o o.vb (l.getD 2 []) p
  s.mxWrite n o o.vc (l.getD 3 []) p

/-- Load the state image from the four tiles; one that cannot be a state leaves the reset state and 0x040D (R268). -/
def State.restoreMx (s : State) (n : Nat) (o : TileOp) : MxDone :=
  let (D, s) := s.mxRead o o.vd
  let (A, s) := s.mxRead o o.va
  let (B, s) := s.mxRead o o.vb
  let (C, s) := s.mxRead o o.vc
  let s := if D.2.2 ||| A.2.2 ||| B.2.2 ||| C.2.2 ≠ 0 then s.mxSticky n 4 else s
  match MxCore.ofImage D.1 A.1 B.1 C.1 with
  | .error k => mxDrop (s.modCore n fun _ => MxCore.reset) o 0x040D k 0 o.vd
  | .ok (c, g) =>
    let k := (s.site n).mx.acting o
    ((o.vd, o.psn), (s.modCore n fun _ => c).modCregs n k fun r => { r with gmat := g })

/-- `mclaim` (R267). -/
def mxMclaim (n : Nat) (o : TileOp) (s : State) : MxDone :=
  let m := (s.site n).mx
  if m.claim || m.owner == some 7 then mxDrop s o 0x040A 0 0 o.vd
  else ((o.vd, o.psn), (s.saveMx n o).modMx n fun m => { m with claim := true, void := false, core := MxCore.reset })

/-- `mrel` (R267). -/
def mxMrel (n : Nat) (o : TileOp) (s : State) : MxDone :=
  let m := (s.site n).mx
  if !m.claim then mxDrop s o 0x040A 1 0 o.vd
  else
    let s := s.modMx n fun m => { m with claim := false, void := false }
    if m.void then ((o.vd, o.psn), s.modCore n fun _ => MxCore.reset) else s.restoreMx n o

/-- `mstat` (R285). -/
def mxMstat (n : Nat) (o : TileOp) (take : Bool) (s : State) : MxDone :=
  let m := (s.site n).mx
  let v := ({ m with queue := m.queue.filter fun p => p.seq != o.seq } : MatrixUnit).status
  ((v ||| BitVec.ofNat 64 m.sticky.toNat, o.psn), if take then s.modMx n fun m => { m with sticky := 0 } else s)

/-- The effect of an operation that passes the checks at its start. -/
def mxRun (n : Nat) (o : TileOp) (x : Option (List Piece)) (told : Bool) (s : State) : MxDone :=
  match o.ins with
  | .mlds _ => mxMlds n o s
  | .mldw _ => mxMldw n o x told s
  | .mswp _ => mxMswp n o s
  | .mstr y => mxStream n o y false s
  | .mstt y => mxStream n o y true s
  | .macc anc _ => mxMode n o 0x85 (fun c => { c with anchored := anc }) s
  | .manc _ => mxMode n o 0x86 (fun c => { c with anchor := o.va.toInt }) s
  | .mepc _ => mxMepc n o s
  | .mout y => mxMout n o y s
  | .mclr y => ((0, o.psn), s.modCore n fun c => c.clearRows (if y.m.getLsbD 0 then o.va else BitVec.allOnes 64))
  | .mtkr idx _ => mxMtkr n o idx s
  | .mtkc _ => ((0, o.psn), s.modCore n MxCore.emptyTop)
  | .mspm s4 _ => mxMspm n o s4 s
  | .mclaim _ => mxMclaim n o s
  | .mrel _ => mxMrel n o s
  | .msave _ => ((o.vd, o.psn), s.saveMx n o)
  | .mrest _ => s.restoreMx n o
  | .mstat take _ => mxMstat n o take s
  | _ => ((0, o.psn), s)

/-- A context 7 operation acts without a claim only where no user context owns the engine (R249). -/
def ownerStops (m : MatrixUnit) (o : TileOp) : Bool :=
  o.who.ctx == 7 && !m.claim && (match m.owner with | some k => decide (k < 7) | none => false) &&
  (match o.ins with | .mclaim _ | .msave _ | .mrest _ | .mstat .. => false | _ => true)

/-- The first operation that has not started and is not held behind a claim (R267): its place in the queue. -/
def MatrixUnit.next? (m : MatrixUnit) : Option Nat := m.queue.findIdx? fun o => !o.started && (!m.claim || o.who.ctx == 7)

/-- The translation of an `mldw` at the memory port: asked for, awaited, found, or failed (R266). -/
def State.mldwReq (s : State) (o : TileOp) : Option ReqPhase := (s.reqs.find? fun r => r.id == o.seq && r.ins.isMldw).map (·.phase)

def TileOp.mldwAsk (o : TileOp) (clk : Nat) : MemReq :=
  { id := o.seq, ins := o.ins, who := o.who, vd := o.vd, va := o.va, vb := o.vb, vc := o.vc, ea := o.va.toNat, gen := o.gen,
    psn := o.psn, target := none, deps := o.deps, org := o.org, phase := .committed, elems := none, rows := 0, since := clk,
    act := o.act }

/-- The bank of a weight-store address is in its refresh window (R213). -/
def MemState.refreshing (m : MemState) (pa : Nat) : Bool :=
  paTarget pa == .weight && m.refresh.contains ((pa - 0x8000000000) / 2 ^ 27)

/-- The power class of an operation: 2 for loads, `mout` and `mtkr`; for a stream that of its width class; 0 for others (R253, R299). -/
def MatrixUnit.powerClass (m : MatrixUnit) (i : Instr) : Nat :=
  match i with
  | .mlds _ | .mldw _ | .mout _ | .mtkr .. => 2
  | .mstr .. | .mstt _ =>
    match (Desc.of (BitVec.ofNat 64 m.core.active.shape.toNat)).ef.width with
    | 16 => 2
    | 8 => 3
    | _ => 4
  | _ => 0

/-- An operation has run: the governor sees its class, unless it was dropped (R299). -/
def State.mxActivity (s : State) (n : Nat) (o : TileOp) (m : MatrixUnit) (r : Word × Bool) : State :=
  let k := m.powerClass o.ins
  if k = 0 ∨ (r.2 ∧ !o.psn ∧ r.1 = o.dropPayload) then s else s.activity n k o.who

/-- MATRIX_OP_START: the next operation, when its waits are over; one whose tile is gone, or that R249 stops, is dropped (R261,
R273). Its effect on the engine takes place here, in commit order. -/
def execMatrixOpStart (n : Nat) (s : State) : Out :=
  let m := (s.site n).mx
  match m.next? with
  | none => .next s
  | some i =>
    match m.queue[i]? with
    | none => .next s
    | some o =>
      if s.tileWaits n 2 o || (m.queue.take i).any fun p => p.started && mxWaits o.ins p.ins then .next s
      else
        let done (r : MxDone) : Out :=
          .next ((r.2.mxActivity n o m r.1).modMx n fun m => { m with queue := listUpd m.queue i fun o => { o with started := true, result := some r.1 } })
        match s.staleTile o with
        | some d => done (mxDrop s o 0x0406 d.toWord.toNat (handleOf d.toWord) o.dropPayload)
        | none =>
          if ownerStops m o then done (mxDrop s o 0x0401 m.ownerWord.toNat 0 o.dropPayload)
          else if o.ins.isMldw then
            let rest (s : State) : State := { s with reqs := s.reqs.filter fun r => !(r.id == o.seq && r.ins.isMldw) }
            match s.mldwReq o with
            | none => .next { s with reqs := s.reqs ++ [o.mldwAsk s.clk] }
            | some (.failed told) => done (mxRun n o none told (rest s))
            | some (.ready x) =>
              let l := xlatPieces x o.va.toNat (Desc.of (BitVec.ofNat 64 (o.vb.toNat % 2 ^ 32))).size
              if l.any fun p => s.mem.refreshing p.pa then .next s else done (mxRun n o (some l) false (rest s))
            | some _ => .next s
          else done (mxRun n o none false s)

/-- MATRIX_OP_COMPLETE: the first operation that has started finishes; completion tokens leave in commit order (R261, R270). -/
def execMatrixOpComplete (n : Nat) (s : State) : Out :=
  let q := (s.site n).mx.queue
  match q.findIdx? fun o => o.started with
  | none => .next s
  | some i =>
    match q[i]? with
    | none => .next s
    | some o =>
      match o.result with
      | none => .next s
      | some (v, psn) =>
        .next ((s.modMx n fun m => { m with queue := listDrop1 m.queue i }).replyFrom n n o.target v psn (o.seq :: o.deps) o.who.asid
          o.gen)

end Sys2Proof.Machine
end

