-- ==== Sys2Proof/Machine/Commit.lean ====
section
/-! DEFINITION. The commit stage of a site (R15, R16, R123): each buffered effect in turn, and what it starts; frame grants
(R100) and group requests at their home (R116 to R119). -/
namespace Sys2Proof.Machine

/-! ### Region links, as far as a send needs them (R297) -/

/-- A region-link entry: its device and launch handle; none when it is not valid. -/
def linkTo (e : Word) : Option (Nat × Nat) :=
  if wbit e 63 && wbits e 60 3 == 0 && wbits e 32 16 == 0 then some (wbits e 48 12, wbits e 0 32) else none

/-- The queue of a linked launch on this device is full (R297). -/
def State.linkFull (s : State) (e : Word) : Bool :=
  match linkTo e with
  | some (dev, handle) =>
    s.isSelf dev &&
    (match Tbl.get? s.pager.launches handle with | some l => decide (256 ≤ l.links.length) | none => false)
  | none => false

/-! ### Membership groups at their home (R117, R118) -/

def Group.fresh (asid ctx : Nat) : Group :=
  { asid := asid, ctx := ctx, members := 0, arrived := 0, phase := 0, poison := false, waiters := [], deps := [] }

/-- The reply of a group request. -/
def State.groupReply (s : State) (home : Nat) (r : GroupReq) (v : Word) (psn : Bool) (deps : List Nat) : State :=
  s.replyFrom home r.src r.target v psn deps r.asid (s.gen r.asid).toNat

/-- refuse of R118: the record, and a poisoned reply where there is a target. -/
def State.groupRefuse (s : State) (home : Nat) (r : GroupReq) (reason : Nat) : State :=
  let w : Who := { Who.zero with site := home, ctx := r.ctx, asid := r.asid }
  (s.logFault w 0x010C (r.id.toNat + reason * 2 ^ 24)).groupReply home r 0 true r.deps

/-- A phase token to each waiter, in registration order. -/
def State.phaseTokens (s : State) (home : Nat) (g : Group) (all : Bool) : State :=
  g.waiters.foldl
    (fun s w => s.replyFrom home w.site (some w.reply) (BitVec.ofNat 64 g.phase.toNat) (all || w.psn || g.poison) g.deps w.asid w.gen) s

/-- complete of R118. -/
def Group.next (g : Group) : Group := { g with phase := g.phase + 1, arrived := 0, waiters := [], poison := false, deps := [] }

/-- The group entry at a home. -/
def State.group? (s : State) (home k : Nat) : Option Group := Tbl.get? (s.site home).seq.groups k

def State.setGroup (s : State) (home k : Nat) (g : Group) : State :=
  s.modSeq home fun q => { q with groups := Tbl.set q.groups k g }

/-- complete of R118, where the count of arrivals has reached the members: the phase ends. -/
def State.groupComplete (s : State) (home k : Nat) (g : Group) (when_ : Bool) : State :=
  if when_ then (s.phaseTokens home g false).setGroup home k g.next else s.setGroup home k g

/-- on_group of R118 at the home. -/
def State.onGroup (s : State) (r : GroupReq) : State :=
  let home := wbits r.id 12 12
  let k := wbits r.id 0 6
  match r.op, s.group? home k with
  | .join, g? =>
    let g := g?.getD (Group.fresh r.asid r.ctx)
    if g.asid ≠ r.asid ∨ g.ctx ≠ r.ctx then s.groupRefuse home r 0
    else if g.members = 64 then s.groupRefuse home r 1
    else
      let g := { g with members := g.members + 1 }
      (s.setGroup home k g).groupReply home r (BitVec.ofNat 64 (g.phase.toNat + g.members * 2 ^ 16)) r.psn r.deps
  | _, none => s.groupRefuse home r 3
  | op, some g =>
    if g.asid ≠ r.asid ∨ g.ctx ≠ r.ctx then s.groupRefuse home r 0
    else
      match op, r.target with
      | .wait, some t =>
        if 64 ≤ g.waiters.length then s.groupRefuse home r 2
        else
          let w : Waiter := { site := r.src, ctx := r.ctx, asid := r.asid, gen := (s.gen r.asid).toNat, reply := t, psn := r.psn }
          s.setGroup home k { g with waiters := g.waiters ++ [w] }
      | .arrive, _ =>
        let g := { g with poison := g.poison || r.psn, arrived := g.arrived + 1, deps := s.prune (g.deps ++ r.deps) }
        s.groupComplete home k g (decide (g.members ≤ g.arrived))
      | .leave, _ =>
        let g := { g with poison := g.poison || r.psn, members := g.members - 1, deps := s.prune (g.deps ++ r.deps) }
        if g.members = 0 then
          (s.phaseTokens home g true).modSeq home fun q => { q with groups := Tbl.erase q.groups k }
        else s.groupComplete home k g (decide (g.members ≤ g.arrived ∧ 0 < g.arrived))
      | _, _ => s

/-- An `arrive` as the release that it is (R119). -/
def State.groupAgent (s : State) (r : GroupReq) : Agent :=
  { path := 3, site := r.src, ctx := r.ctx, asid := r.asid, seq := r.seq, act := r.act, deps := r.deps,
    obs := s.observers r.src r.ctx r.asid r.scope r.act }

/-- GROUP_REQUEST: request `k` reaches its home, in order with the others of its site for that home (R26, R117). An `arrive`
leaves its site only when its release set has performed at its scope (R119); the set goes with it. -/
def execGroupRequest (k : Nat) (s : State) : Out :=
  match s.groupReqs[k]? with
  | none => .next s
  | some r =>
    if (s.groupReqs.take k).any fun x => x.src == r.src && wbits x.id 12 12 == wbits r.id 12 12 then .next s
    else
      let taken := { s with groupReqs := listDrop1 s.groupReqs k }
      match r.op with
      | .arrive =>
        let g := s.groupAgent r
        let rs := s.releaseSet g
        if !s.setPerformed g then .next s
        else
          match (if 8 ≤ r.scope then s.flushGate r.seq fun p => rs.contains p.who.seq else none) with
          | some s => .next s
          | none => .next ((taken.carry rs g.obs).onGroup { r with deps := rs })
      | _ => .next (taken.onGroup r)

/-! ### Frame grants (R100) -/

/-- A queued request takes a frame of the reserve that it names (R100 step 1). -/
def SeqUnit.reserveServes (q : SeqUnit) (r : FrameReq) : Bool := r.useRes && (q.reserveFrame r.ctx r.level r.cls).isSome

/-- A queued request takes a frame of the pool (R100 step 2). -/
def SeqUnit.poolServes (q : SeqUnit) (r : FrameReq) : Bool := !q.reserveServes r && (q.poolFrame r.cls).isSome

/-- The request at `i` can be served now: a reserve serves its requests in their order, and the pool serves the queue in order, skipping
a class that it cannot supply (R100). `frozen`: the contexts whose requests are frozen (R126). -/
def SeqUnit.canGrant (q : SeqUnit) (frozen : Nat → Bool) (i : Nat) : Bool :=
  match q.allocQ[i]? with
  | none => false
  | some r =>
    let before := (q.allocQ.take i).filter fun x => !frozen x.ctx
    !frozen r.ctx &&
    ((q.reserveServes r && !(before.any fun x => x.useRes && x.ctx == r.ctx && x.level == r.level && x.cls == r.cls)) ||
     (q.poolServes r && !(before.any fun x => q.poolServes x)))

/-- Is a context frozen at a site (R126, R307)? -/
def State.frozenAt (s : State) (n c : Nat) : Bool := match s.slot? n c with | some k => k.frozen | none => false

/-- FRAME_GRANT: request `i` of the site's queue takes its frame; a seed goes on to its page with it. -/
def execFrameGrant (n i : Nat) (s : State) : Out :=
  let q := (s.site n).seq
  if !q.canGrant (s.frozenAt n) i then .next s
  else
    match q.allocQ[i]? with
    | none => .next s
    | some r =>
      match s.grantFrame n r.ctx r.cls r.level r.useRes with
      | none => .next s
      | some (fp, s) =>
        let s := s.modSeq n fun q => { q with allocQ := listDrop1 q.allocQ i }
        match r.what with
        | .reply t psn deps _ =>
          let asid := s.asidOf n r.ctx
          .next (s.replyFrom n n (some t) (BitVec.ofNat 64 fp) psn deps asid (s.gen asid).toNat)
        | .seed f => .next (s.sendOff { f with tok := { f.tok with fp := BitVec.ofNat 17 fp } })

/-! ### Effects (R15, R16) -/

/-- What an effect's commit needs to know of its activation: site, responsible token, ASID and generation. -/
structure Issuer where
  site : Nat
  who : Who
  gen : Nat
  psn : Bool
  org : Origin
  /-- act.itn -/
  itn : BitVec 16
  /-- what is causally before the activation's own accesses (R68) -/
  deps : List Nat
  /-- what is causally before the tokens of this commit -/
  all : List Nat
  /-- the commit number of the activation's first effect -/
  act : Nat
  deriving DecidableEq, Repr

/-- Frame writes and clears (R99, R145): a write keeps PRES, PORT and STAMP; a claimed slot is cleared when its claim ends,
for the own claim after every effect of the commit (log entry 101). -/
def State.commitClear (s : State) (n slot cnt : Nat) : State :=
  let held := ((List.range cnt).map (slot + ·)).filter fun k => s.claimed n k
  let free := ((List.range cnt).map (slot + ·)).filter fun k => !s.claimed n k
  let s := free.foldl (fun s k => s.clearSlots n k 1) s
  s.modSeq n fun q =>
    { q with clearing := q.clearing ++ held, parkedDeps := q.parkedDeps.filter fun p => !free.contains p.1 }

/-- A committed `ffree` (R102). -/
def State.commitFree (s : State) (i : Issuer) (fp : Nat) : State :=
  let n := i.site
  let k := match s.frame? n fp with | some f => s.parked n fp f.cls | none => 0
  let s := s.returnFrame n fp
  if k = 0 then s else s.logFault i.who 0x010A k

/-- The requests of a site that are outstanding at its port, and those parked, the items of streams among them (R216, R229). -/
def State.outstanding (s : State) (n : Nat) : Nat := (s.reqs.filter fun r => r.who.site == n).length

def State.parkedReqs (s : State) (n : Nat) : Nat :=
  (s.reqs.filter fun r => r.who.site == n && (match r.phase with | .parked .. => true | _ => false)).length +
  ((s.site n).port.gens.filter fun g => g.2.parked).length

/-- The port can take no further request (R216). -/
def State.portFull (s : State) (n : Nat) : Bool := decide (512 ≤ s.outstanding n) || decide (256 ≤ s.parkedReqs n)

/-- A committed memory request (R216, R221). -/
def memRequest (i : Issuer) (clk id : Nat) (ins : Instr) (vd va vb vc : Word) (ea : Nat) (r : Option Reply) : MemReq :=
  { id := id, ins := ins, who := i.who, vd := vd, va := va, vb := vb, vc := vc, ea := ea, gen := i.gen, psn := i.psn, target := r,
    deps := i.deps, org := i.org, phase := .committed, elems := none, rows := 0, since := clk, act := i.act, born := clk }

/-- A fence's before-set and after-set (R245). -/
def fenceMasks (m : MF) : BitVec 8 × BitVec 8 := (BitVec.ofNat 8 (m.d.toNat * 16 + m.a.toNat), BitVec.ofNat 8 m.off.toNat)

/-- Commit a memory effect (R216): a `fence` is in force from now on, and a `sopen` waits for an address generator (R229). -/
def State.commitMem (s : State) (i : Issuer) (id : Nat) (ins : Instr) (vd va vb vc : Word) (ea : Nat) (r : Option Reply) : State :=
  let n := i.site
  let q := memRequest i s.clk id ins vd va vb vc ea r
  match ins with
  | .sopen m =>
    let p := (s.site n).port
    let same (w : Who) (sdx : Nat) : Bool := w.ctx == i.who.ctx && w.asid == i.who.asid && sdx == m.md.toNat
    if (p.gens.any fun g => same g.2.who g.2.sdx) ||
       (p.sopens.any fun g => same g.who (match g.ins with | .sopen m => m.md.toNat | _ => 0)) then
      (s.count n 10).logPort i.who 0x0309 m.md.toNat 0 0 0
    else (s.count n 10).modPort n fun p => { p with sopens := p.sopens ++ [q] }
  | .fence m =>
    let masks := fenceMasks m
    let f : FenceRec :=
      { seq := id, site := n, ctx := i.who.ctx, asid := i.who.asid, bef := masks.1, aft := masks.2,
        obs := s.observers n i.who.ctx i.who.asid m.scp.toNat i.act, deps := i.deps, req := some id }
    { s.count n 10 with reqs := s.reqs ++ [{ q with phase := .ready [] }] }.addFence f
  | _ => { s.count n 10 with reqs := s.reqs ++ [q] }

/-- A tile operation enters its engine's queue (R179, R261): its policy is that of the context whose state it uses (R170, R248). -/
def State.commitTile (s : State) (i : Issuer) (id : Nat) (ins : Instr) (vd va vb vc : Word) (r : Option Reply) : Option State :=
  let n := i.site
  let x := s.site n
  let c := if ins.isVec then i.who.ctx else x.mx.owner.getD i.who.ctx
  let gap : Nat := match ins.xf? with | some x => x.gap.toNat | none => 0
  let o : TileOp :=
    { seq := id, ins := ins, who := i.who, vd := vd, va := va, vb := vb, vc := vc, exc := (s.cregs n c).exc, psn := i.psn, gen := i.gen,
      target := r, deps := i.deps, org := i.org, started := false, result := none, g := 0, booked := decide (1 ≤ gap), act := i.act }
  if ins.isVec then
    if 16 ≤ queuedOps x.tile.queue then none else some (s.modTile n fun u => { u with queue := u.queue ++ [o] })
  else if 16 ≤ queuedOps x.mx.queue then none
  else some (s.modMx n fun m => { m with queue := m.queue ++ [o] })

/-- The record of an `otrc` is written at its commit, which is its event (R427, R433). -/
def State.traceMark (s : State) (r : SysReq) : State × SysReq :=
  match r.ins with
  | .otrc x =>
    if r.psn then (s, r)
    else
      let t := s.traceRec 1 r.who.ctx r.who.site r.who.ip.toNat r.who.itn.toNat r.who.fp.toNat (x.hi.toNat % 2 ^ 16) r.vd
      (t, { r with traced := if t.obs.prod = s.obs.prod then none else some s.obs.prod })
  | _ => (s, r)

/-- A request goes to its system engine's queue (R321, R352, R375, R398, R433). -/
def State.enqueueSys (s : State) (r : SysReq) : State :=
  match r.ins.engine with
  | 1 => { s with coll := { s.coll with queue := s.coll.queue ++ [r] } }
  | 2 =>
    match r.ins with
    | .xdspOne _ | .xdspArr _ | .xdspFlush _ => { s with xp := { s.xp with disp := s.xp.disp ++ [r] } }
    | _ => { s with xp := { s.xp with other := s.xp.other ++ [r] } }
  | 3 => { s with rcv := { s.rcv with queue := s.rcv.queue ++ [r] } }
  | 4 => { s with obs := { s.obs with queue := s.obs.queue ++ [r] } }
  | _ => { s with pager := { s.pager with queue := s.pager.queue ++ [r] } }

/-- The fence that a group 6 word behaves as though it had been committed just before it: before-set and after-set, at device scope
(R347, R369). -/
def impliedFence (i : Instr) : Option (BitVec 8 × BitVec 8) :=
  match i with
  | .cgrpMake _ | .cgrpDrop _ | .cred .. => some (8, 16)
  | .xcntAdd _ | .xcntArr _ | .xcntHist _ | .xcntTake _ | .xdspOne _ | .xdspArr _ | .xdspFlush _ | .xverResize _ | .xmrg _ =>
    some (0xFF, 0xFF)
  | _ => none

/-- The device holds as many waiting `cred` requests as it can (R330). -/
def State.credFull (s : State) : Bool :=
  let creds (l : List SysReq) : Nat := (l.filter fun r => match r.ins with | .cred .. => true | _ => false).length
  decide (16 ≤ creds s.coll.queue + (s.coll.groups.map fun g => g.waiting.length).foldl (· + ·) 0)

/-- A `cred` commits: its launch can no longer be replayed from its base alone (R349). -/
def State.noteCred (s : State) (n c : Nat) (i : Instr) : State :=
  match i, s.slot? n c with
  | .cred .., some k =>
    { s with pager := { s.pager with
        launches := s.pager.launches.map fun p => if p.1 = k.handle then (p.1, { p.2 with credSince := true }) else p } }
  | _, _ => s

/-- The exits of a twin copy that a site's port holds (R316). -/
def State.exitsHeld (s : State) (n : Nat) : Nat :=
  (s.pager.twins.filter fun e =>
    match e.what with
    | .req id => s.reqs.any fun r => r.id == id && r.who.site == n
    | .token f => f.src == n).length

/-- Commit one effect under number `id`; none while the commit stage must hold it. -/
def State.commitEffect (s : State) (i : Issuer) (tag : Bool) (id : Nat) (hist : Nat) (e : Effect) : Option State :=
  let n := i.site
  let c := i.who.ctx
  match e with
  | .send t remote link =>
    let t := { t with psn := i.psn, smp := tag }
    if remote then
      let (e, s) := s.linkLookup n (s.linkKey c i.who.asid) link
      if s.linkFull e then none
      else
        some (s.sendLink { tok := t, link := link, src := n, sctx := c, asid := i.who.asid, org := i.org, deps := i.all })
    else some (s.launchToken n t false link i.org i.all i.who.asid i.gen)
  | .frameWrite fp off v =>
    let k := s.fslot n (fp + off)
    some (s.setFslot n (fp + off) { k with value := v, psn := i.psn })
  | .frameClear fp off cnt => some (s.commitClear n (fp + off) cnt)
  | .frameFree fp => some (s.commitFree i fp)
  | .frameAlloc cls level useRes r =>
    some (s.modSeq n fun q =>
      { q with allocQ := q.allocQ ++ [{ ctx := c, cls := cls, level := level, useRes := useRes, what := .reply r i.psn i.all i.org }] })
  | .group op gid scope r =>
    some { s with groupReqs := s.groupReqs ++
      [{ op := op, id := gid, src := n, asid := i.who.asid, ctx := c, scope := scope, target := r, psn := i.psn, deps := i.all, seq := id,
         org := i.org, act := i.act }] }
  | .halloc shape kind r =>
    some (s.modTile n fun u =>
      { u with waiting := u.waiting ++
        [{ shape := shape, kind := kind, who := i.who, gen := i.gen, psn := i.psn, target := r, deps := i.all, org := i.org }] })
  | .handle op desc r =>
    let h : HandleReq :=
      { op := op, desc := desc, src := n, ctx := c, asid := i.who.asid, gen := i.gen, target := r, psn := i.psn, deps := i.all }
    if (Desc.of desc).site = n then some (s.applyHandle h id) else some { s with handleReqs := s.handleReqs ++ [h] }
  | .service num arg r =>
    some (s.modSeq n fun q =>
      { q with service := some { who := i.who, itn := i.itn, gen := i.gen, num := num, arg := arg, reply := r, psn := i.psn, deps := i.all } })
  | .resume mode fp =>
    let (s, f) := s.resume n mode fp i.org i.all
    match f with
    | some f => some { s.countSent n f.tok.ctx.toNat with mesh := { f with here := true } :: s.mesh }
    | none => some s
  | .writeSpecial no c v => some (writeSpecial s n no c v)
  | .tile ins vd va vb vc r => s.commitTile i id ins vd va vb vc r
  | .mem ins vd va vb vc ea r => if s.portFull n || decide (64 ≤ s.exitsHeld n) then none else some (s.commitMem i id ins vd va vb vc ea r)
  | .sys ins word vd va vb r =>
    if s.credFull then none
    else
      let s := match impliedFence ins with
        | some (bef, aft) =>
          let f : FenceRec :=
            { seq := id, site := n, ctx := c, asid := i.who.asid, bef := bef, aft := aft, obs := s.observers n c i.who.asid 5 i.act,
              deps := i.deps, req := none }
          s.addFence f
        | none => s
      let (s, r) := (s.noteCred n c ins).traceMark
        { seq := id, ins := ins, word := word, who := i.who, vd := vd, va := va, vb := vb, exc := (s.cregs n c).exc, gen := i.gen,
          psn := i.psn, target := r, deps := i.deps, org := i.org, hist := hist, act := i.act,
          launch := (s.slot? n c).map (·.handle) }
      some (s.enqueueSys r)

/-- Drain effects from number `next` on until one is held: the state, and the next number. A held service request holds what
follows it (R123). -/
def State.drain (s : State) (i : Issuer) (tag : Bool) (hist : Nat) (es : List Effect) (next : Nat) : State × Nat :=
  match es with
  | [] => (s, next)
  | e :: r =>
    if (s.site i.site).seq.service.isSome then (s, next)
    else
      match s.commitEffect i tag next hist e with
      | none => (s, next)
      | some s => s.drain i tag hist r (next + 1)

/-- The commit begins: numbers for all effects, and the claimed slot's PRES cleared (R15, R107). -/
def State.commitBegin (s : State) (n k : Nat) (a : Activation) : State :=
  let base := s.seq
  let s := { s with seq := s.seq + a.effects.length }
  let s := match a.claim with
    | some slot =>
      let p := s.fslot n slot
      (s.setFslot n slot { p with pres := false }).modSeq n fun q =>
        { q with parkedDeps := Tbl.erase q.parkedDeps slot }
    | none => s
  s.setAct n k { a with committing := some (base, base) }

/-- The commit ends: sticky flags, the count of ends of rank 4, the claim, the slot (R16, R107, R124, R302). -/
def State.commitEnd (s : State) (n k : Nat) (a : Activation) : State :=
  let s := s.modSeq n fun q =>
    { q with
      sticky := q.sticky ||| BitVec.ofNat 32 (a.flagBits * 2 ^ (4 * a.ctx))
      ready := q.ready.drop 1
      acts := Tbl.erase q.acts k }
  let s := if isEos4 a.tok then
      s.modSite n fun x =>
        let c := Tbl.getD x.counts a.ctx { sent := 0, recv := 0, eos4 := 0 }
        { x with counts := Tbl.set x.counts a.ctx { c with eos4 := c.eos4 + 1 } }
    else s
  match a.claim with
  | some slot => s.endClaim n slot
  | none => s

/-- COMMIT: the commit stage handles the first activation that has reached `end` (R16): it drains effects until one is held or
none is left, and then the slot is free. -/
def execCommit (n : Nat) (s : State) : Out :=
  match (s.site n).seq.ready with
  | [] => .next s
  | k :: _ =>
    if (s.site n).seq.service.isSome then .next s
    else
      match s.act? n k with
      | none => .next (s.modSeq n fun q => { q with ready := q.ready.drop 1 })
      | some a =>
        if s.clk ≤ a.endAt ∧ a.committing.isNone then .next s
        else
        let s := if a.committing.isSome then s else s.commitBegin n k a
        let (base, next) := match a.committing with | some p => p | none => (s.seq - a.effects.length, s.seq - a.effects.length)
        let asid := s.asidOf n a.ctx
        let own := (a.effects.zipIdx base).filterMap fun p => if p.1.path?.isSome then some p.2 else none
        let i : Issuer :=
          { site := n, who := a.who n asid, gen := (s.gen asid).toNat, psn := a.pz,
            org := { site := n, idx := a.hist / 256, gen := a.hist % 256 }, itn := a.itn, deps := s.prune a.deps, all := s.prune a.deps ++ own, act := base }
        let (s, next) := s.drain i a.tag a.hist (a.effects.drop (next - base)) next
        if next = base + a.effects.length ∧ (s.site n).seq.service.isNone then .next (s.commitEnd n k a)
        else .next (s.setAct n k { a with committing := some (base, next) })

end Sys2Proof.Machine
end

