-- ==== Sys2Proof/Machine/MemIssue.lean ====
section
/-! DEFINITION. Group 5 at issue: the checks of R220 in their order, and the request that commit sends to the memory port (R219 to
R222, R239 to R247). -/
namespace Sys2Proof.Machine

def mpOperand (field : Nat) (v : Word) : Trap :=
  { code := 0x0310, detail := BitVec.ofNat 64 (field + v.toNat % 2 ^ 56 * 2 ^ 8) }

/-- The tile operands of an M word, in the order D, B, and the compare tile of a `vatom` (R220 step 1, R242). -/
def memTiles (i : Instr) (vd vb vc : Word) : List TileOpnd :=
  let d : TileOpnd := { pos := 0, w := vd, role := .data }
  let b : TileOpnd := { pos := 2, w := vb, role := .data }
  match i with
  | .ldt _ | .stt _ | .put _ | .get _ => [d]
  | .gth _ | .sct _ => [d, b]
  | .vatom fn _ => [d, b] ++ (if fn = .cas then [{ pos := 3, w := vc, role := .data }] else [])
  | _ => []

/-- What an entry asks of a tile operand (R240 to R242): reasons 1 EF, 2 FLAGS, 3 shape. No entry limits KIND. -/
def memNeed (i : Instr) (vd vb : Word) (feat : BitVec 5) (o : TileOpnd) : Option Nat :=
  let dD := Desc.of vd
  let width := 8 * i.unitBytes
  let indexed : Bool := match i with | .gth _ | .sct _ | .vatom .. => true | _ => false
  if o.d.ef.is4bit && !feat.getLsbD 2 then some 1
  else
    match o.pos with
    | 0 =>
      if indexed then if dD.ef.width ≠ width then some 1 else if dD.scaled then some 2 else none
      else
        match i with
        | .ldt _ | .stt _ => if vb ≠ 0 ∧ dD.scaled then some 2 else none
        | _ => none
    | 2 =>
      if o.d.efc < 6 ∨ 9 < o.d.efc then some 1
      else if o.d.rows ≠ dD.rows ∨ o.d.cols ≠ dD.cols then some 3 else none
    | _ => if o.d.rows ≠ dD.rows ∨ o.d.cols ≠ dD.cols ∨ o.d.flags ≠ dD.flags ∨ o.d.efc ≠ dD.efc then some 3 else none

/-- Step 2 of R220: the reply FP of `ld`, the pitch of `ldt` and `stt`. -/
def memRange (i : Instr) (m : MF) (vd vb : Word) : Option Trap :=
  match i with
  | .ld _ => if m.d ≠ 0 ∧ 2 ^ 17 ≤ vd.toNat then some (mpOperand 0 vd) else none
  | .ldt _ | .stt _ => if vb.toNat % 8 ≠ 0 ∨ 2 ^ 24 < vb.toNat then some (mpOperand 2 vb) else none
  | _ => none

/-- The unit of OFF (R219). -/
def memUnit (i : Instr) : Nat :=
  match i with
  | .ld _ | .st _ | .dst _ | .atom .. => i.unitBytes
  | .vatom .. => 0
  | _ => 64

/-- The access range that an entry gives: its length from ea; none where the entry gives each element its own address, or no
address at all (R240 to R247). -/
def memLength (i : Instr) (vd vb : Word) : Option Nat :=
  let dD := Desc.of vd
  match i with
  | .ld _ | .st _ | .dst _ | .atom .. => some i.unitBytes
  | .ldt _ | .stt _ => some (if vb = 0 then dD.size else (dD.rows - 1) * vb.toNat + dD.rowBytes)
  | .put _ | .get _ => some dD.size
  | .pref _ => some 1
  | .wsld _ => some vb.toNat
  | _ => none

/-- The alignment of ea (R240, R242). -/
def memAlign (i : Instr) : Nat :=
  match i with
  | .ldt _ | .stt _ => 8
  | .atom .. | .vatom .. => i.unitBytes
  | _ => 1

/-- Steps 3 and 4 of R220. -/
def memAddress (i : Instr) (phys : Bool) (ea : Int) (vd vb : Word) : Option Trap :=
  let a : Word := BitVec.ofInt 64 ea
  let top : Int := if phys then 2 ^ 48 else 2 ^ 56
  let out : Bool := match memLength i vd vb with | some k => decide (ea < 0 ∨ top < ea + Nat.max k 1) | none => false
  if out then some { code := 0x0305, detail := a, va := a.toNat % 2 ^ 56 }
  else if a.toNat % memAlign i ≠ 0 then some { code := 0x0304, detail := a, va := a.toNat % 2 ^ 56 }
  else none

/-- Steps 1 to 4 of R220. -/
def memCheck (s : State) (n : Nat) (t : Activation) (i : Instr) (m : MF) (ea : Int) (vd vb vc : Word) : Option Trap :=
  let l := memTiles i vd vb vc
  match tileNames s n t.ctx l with
  | some x => some x
  | none =>
    match tileSuits s n l (memNeed i vd vb t.feat) with
    | some x => some x
    | none =>
      match memRange i m vd vb with
      | some x => some x
      | none => memAddress i (match i with | .ld m | .st m => m.md.getLsbD 3 | _ => false) ea vd vb

/-- An M word at issue: the checks, the completion or reply target, then the request as an effect. The reply FP of `ld` is
reg(D)[16:0] when D names a register (R239). -/
def memBody (i : Instr) (m : MF) : Body := fun s n t =>
  let vd := t.reg m.d
  let va := t.reg m.a
  let vb := t.reg m.b
  let vc : Word := match i with | .vatom .. => t.reg (BitVec.ofNat 4 m.off.toNat) | _ => 0
  let ea := effAddr t m (memUnit i)
  match memCheck s n t i m ea vd vb vc with
  | some x => .error x
  | none =>
    match replyOf s n t (encode i) m.tix with
    | .error x => .error x
    | .ok r =>
      let r := match i with
        | .ld _ => r.map fun r => if m.d = 0 then r else { r with fp := BitVec.ofNat 17 vd.toNat }
        | _ => r
      .ok (s, t.push (.mem i vd va vb vc (BitVec.ofInt 64 ea).toNat r))

/-- `ld` (R239). -/
def execLd (m : MF) (s : State) : Out := run (.ld m) (memBody (.ld m) m) s
/-- `st` (R239). -/
def execSt (m : MF) (s : State) : Out := run (.st m) (memBody (.st m) m) s
/-- `dst` (R239). -/
def execDst (m : MF) (s : State) : Out := run (.dst m) (memBody (.dst m) m) s
/-- `ldt` (R240). -/
def execLdt (m : MF) (s : State) : Out := run (.ldt m) (memBody (.ldt m) m) s
/-- `stt` (R240). -/
def execStt (m : MF) (s : State) : Out := run (.stt m) (memBody (.stt m) m) s
/-- `gth` (R241). -/
def execGth (m : MF) (s : State) : Out := run (.gth m) (memBody (.gth m) m) s
/-- `sct` (R241). -/
def execSct (m : MF) (s : State) : Out := run (.sct m) (memBody (.sct m) m) s
/-- `atom` (R242). -/
def execAtom (fn : AtomFn) (m : MF) (s : State) : Out := run (.atom fn m) (memBody (.atom fn m) m) s
/-- `vatom` (R242). -/
def execVatom (fn : AtomFn) (m : MF) (s : State) : Out := run (.vatom fn m) (memBody (.vatom fn m) m) s
/-- `put` (R243). -/
def execPut (m : MF) (s : State) : Out := run (.put m) (memBody (.put m) m) s
/-- `get` (R243). -/
def execGet (m : MF) (s : State) : Out := run (.get m) (memBody (.get m) m) s
/-- `sclose` (R244). -/
def execSclose (m : MF) (s : State) : Out := run (.sclose m) (memBody (.sclose m) m) s
/-- `fence` (R81, R245). -/
def execFence (m : MF) (s : State) : Out := run (.fence m) (memBody (.fence m) m) s
/-- `pref` (R246). -/
def execPref (m : MF) (s : State) : Out := run (.pref m) (memBody (.pref m) m) s
/-- `migr` (R232, R247). -/
def execMigr (m : MF) (s : State) : Out := run (.migr m) (memBody (.migr m) m) s
/-- `wsld` (R212, R247). -/
def execWsld (m : MF) (s : State) : Out := run (.wsld m) (memBody (.wsld m) m) s
/-- `inv` (R90, R218, R247). -/
def execInv (m : MF) (s : State) : Out := run (.inv m) (memBody (.inv m) m) s
/-- `gbump` (R91, R247). -/
def execGbump (m : MF) (s : State) : Out := run (.gbump m) (memBody (.gbump m) m) s

/-! ### Streams at issue (R227, R244) -/

/-- The site that an entry names (R10), seen from site `n`. -/
def entrySite (s : State) (n : Nat) (e : Entry) : Option Nat :=
  (s.slot? n e.ctx.toNat).map fun k => k.siteOf n e.dx.toNat e.dy.toNat

/-- Step 5 of R220: with end markers, the item target must not be remote and must lie on the site of the control target. -/
def streamTargetBad (s : State) (n c : Nat) (m : MF) : Bool :=
  let d := StreamDesc.of (s.streamWords n c m.md.toNat)
  let e := Entry.of (entryWord s n c m.tix.toNat)
  let k := Entry.of (entryWord s n c d.ctix)
  d.emask != 0 && (e.remote || entrySite s n e != entrySite s n k)

/-- `sopen` (R228, R244): the item FP is reg(D)[16:0], or act.fp when D names s0. -/
def execSopen (m : MF) (s : State) : Out :=
  let w := encode (.sopen m)
  run (.sopen m)
    (fun s n t =>
      if streamTargetBad s n t.ctx m then
        .error { code := 0x030A, detail := BitVec.ofNat 64 (m.md.toNat + m.tix.toNat * 2 ^ 8) }
      else
        match target s n t w m.tix.toNat with
        | .error x => .error x
        | .ok e =>
          let r : Reply := { entry := e, fp := fpOf t m.d, itn := t.itn }
          .ok (s, t.push (.mem (.sopen m) 0 (t.reg m.a) 0 0 0 (some r)))) s

end Sys2Proof.Machine
end

