-- ==== Sys2Proof/Machine/Access.lean ====
section
/-! DEFINITION. Accesses to physical memory by target: the target rules (R223), migrating frames (R232), landing granules (R233), the
cellar and its log (R382 to R388), the host window (R413), peers (R405) and inbound windows (R409). -/
namespace Sys2Proof.Machine

/-! ### Target rules (R212, R223, R382) -/

inductive AccKind where
  | read | write | atomic | copyRead | copyWrite | dst
  deriving DecidableEq, Repr

/-- The kind of a request (R223). -/
def accKind (i : Instr) : AccKind :=
  match i with
  | .st _ | .stt _ | .sct _ => .write
  | .atom .. | .vatom .. => .atomic
  | .get _ => .copyRead
  | .put _ => .copyWrite
  | .dst _ => .dst
  | _ => .read

inductive Allow where
  | yes | wrong | permission
  deriving DecidableEq, Repr

/-- The table of R223; TYPE 8 is a register block, reached by `.phys` scalars only. -/
def allowed (k : AccKind) (typ : Nat) : Allow :=
  match k, typ with
  | .read, 0 | .read, 1 | .read, 2 | .read, 3 | .read, 5 | .read, 8 => .yes
  | .write, 0 | .write, 2 | .write, 3 | .write, 8 => .yes
  | .write, 1 | .atomic, 1 => .permission
  | .atomic, 0 | .atomic, 2 => .yes
  | .copyRead, 2 | .copyWrite, 2 => .yes
  | .dst, 5 => .yes
  | _, _ => .wrong

/-- The OPC of a word. -/
def opcOf (i : Instr) : Nat := wbits (encode i) 56 8

/-- DETAIL of 0x0307: TYPE and OPC; an address without a TYPE gives a free value (log entry 31). -/
def wrongDetail (s : State) (typ opc : Nat) : Nat := (if typ < 8 then typ else Config.pick s.free % 8) + opc * 2 ^ 8

/-- The region of a cellar address, and whether it lies in the log (R382, R385). -/
def cellarRegion (pa : Nat) : Nat := (pa - 0x20000000000) / 2 ^ 21

def inLog (r : RecState) (k : Nat) : Bool := decide (r.logFirst ≤ k ∧ k < r.logFirst + r.logLen)

/-- Why a piece of an access fails at its target: code and DETAIL (R223, R382). -/
def pieceFail (s : State) (k : AccKind) (opc : Nat) (p : Piece) : Option (Nat × Nat) :=
  let wrong : Option (Nat × Nat) := some (0x0307, wrongDetail s p.typ opc)
  match allowed k p.typ with
  | .wrong => wrong
  | .permission => some (0x0302, if k = .atomic then 2 else 1)
  | .yes =>
    if p.typ = 0 ∧ inCellarRange s.rcv p.pa then wrong
    else if p.typ = 5 ∧ (s.rcv.nreg ≤ cellarRegion p.pa ∨ (k = .dst ∧ inLog s.rcv (cellarRegion p.pa))) then wrong
    else none

/-! ### Reads of storage (R211, R226) -/

/-- Bytes read, and the uncorrectable stretches among them: offset and length. -/
structure ReadRes where
  bytes : List Byte
  bad : List (Nat × Nat)
  deriving DecidableEq, Repr

/-- Read `n` bytes of storage at `a`, whose newest contents stand from `b` on; errors are met by lines or units of `k` bytes. -/
def State.readRun (s : State) (g : Agent) (a n k : Nat) (b : Nat := a) : ReadRes × State :=
  let bad := ((cut k b n).filter fun p => s.mem.bad p.1 p.2).map fun p => (p.1 - b, p.2)
  let (l, s) := s.readBytes g a n b
  ({ bytes := l, bad := bad }, s)

def ReadRes.append (r q : ReadRes) : ReadRes :=
  { bytes := r.bytes ++ q.bytes, bad := r.bad ++ q.bad.map fun p => (p.1 + r.bytes.length, p.2) }

/-! ### Migrating frames (R232) -/

/-- The migration whose old frame holds an HBM address. -/
def State.migAt (s : State) (pa : Nat) : Option Nat := s.pager.migs.findIdx? fun m => m.old == pa / 2 ^ 21

/-- Where the controllers serve a byte of HBM: behind the copy pointer, at the new frame. -/
def State.routed (s : State) (pa : Nat) : Nat :=
  match s.migAt pa with
  | none => pa
  | some i =>
    match s.pager.migs[i]? with
    | some m => if pa % 2 ^ 21 / 1024 < m.p then m.new * 2 ^ 21 + pa % 2 ^ 21 else pa
    | none => pa

/-- The parts of a run of HBM that are served at one place. -/
def State.routes (s : State) (pa n : Nat) : List (Nat × Nat) :=
  if (s.migAt pa).isSome then (cut 1024 pa n).map fun p => (s.routed p.1, p.2) else [(pa, n)]

/-- Copy granule P of migration `i` to the new frame: contents, writes still to be seen, poison markers; P advances. -/
def State.copyGranule (s : State) (i : Nat) : State :=
  match s.pager.migs[i]? with
  | none => s
  | some m =>
    if 2048 ≤ m.p then s
    else
      let a := m.old * 2 ^ 21 + m.p * 1024
      let b := m.new * 2 ^ 21 + m.p * 1024
      let bad := (List.range 16).filter fun k => s.mem.bad (a + 64 * k) 64
      let s := s.settle a 1024
      let mem := s.mem.setBytes b (s.mem.bytes a 1024)
      let clean := mem.lines.filter fun p => !decide (b / 64 ≤ p.1 ∧ p.1 < b / 64 + 16)
      let lines := bad.foldl (fun t k => Tbl.set t (b / 64 + k) Mark.poison) clean
      let move (w : WriteRec) : WriteRec :=
        if a / 8 ≤ w.unit ∧ w.unit < a / 8 + 128 then { w with unit := w.unit - a / 8 + b / 8 } else w
      let recs := (mem.recs.filter fun w => !decide (b / 8 ≤ w.unit ∧ w.unit < b / 8 + 128)).map move
      { s with
        mem := { mem with lines := lines, recs := recs }
        pager := { s.pager with migs := listUpd s.pager.migs i fun m => { m with p := m.p + 1 } } }

/-- A read of granule P forks it to the new frame. -/
def State.fork (s : State) (pa n : Nat) : State :=
  match s.migAt pa with
  | none => s
  | some i =>
    match s.pager.migs[i]? with
    | some m => if m.p * 1024 < pa % 2 ^ 21 + n ∧ pa % 2 ^ 21 < m.p * 1024 + 1024 then s.copyGranule i else s
    | none => s

/-- Read runs in turn, with errors met by lines of 64 B. -/
def State.readRuns (s : State) (g : Agent) (l : List (Nat × Nat)) : ReadRes × State :=
  match l with
  | [] => ({ bytes := [], bad := [] }, s)
  | p :: r =>
    let (x, s) := s.readRun g p.1 p.2 64
    let (y, s) := s.readRuns g r
    (x.append y, s)

/-! ### The cellar (R382 to R388) -/

/-- The stale copies of a region (R384). -/
def staleOf (r : RecState) (k : Nat) : BitVec 2 := Tbl.getD r.dirty k 0

/-- A copy serves reads: its stack is not held and it is not stale (R384). -/
def primaryLive (r : RecState) (k : Nat) : Bool := !r.held.getLsbD (k % 8) && !(staleOf r k).getLsbD 0
def secondaryLive (r : RecState) (k : Nat) : Bool := !r.held.getLsbD ((k + 4) % 8) && !(staleOf r k).getLsbD 1

/-- Both copies of a region can acknowledge a write, and hold the same (R384). -/
def regionWhole (r : RecState) (k : Nat) : Bool := primaryLive r k && secondaryLive r k

/-- A write reaches the other mirror of its line. -/
def State.applyMirror (s : State) (m : MirrorWrite) : State :=
  { s with mem := s.mem.store (if m.second then cellarSecondary s.rcv m.pa else cellarPrimary s.rcv m.pa) m.data }

/-- Write `i` of those on their way to the other mirror is acknowledged there, after the earlier ones of its line (R383). -/
def State.mirrorAck (s : State) (i : Nat) : State :=
  match s.rcv.mirrors[i]? with
  | none => s
  | some m =>
    if (s.rcv.mirrors.take i).any fun x => x.pa / 64 == m.pa / 64 then s
    else { s.applyMirror m with rcv := { s.rcv with mirrors := listDrop1 s.rcv.mirrors i } }

/-- Every write of a line reaches the other mirror. -/
def State.settleLine (s : State) (pa : Nat) : State :=
  let here (m : MirrorWrite) : Bool := m.pa / 64 == pa / 64
  let s := (s.rcv.mirrors.filter here).foldl (fun s m => s.applyMirror m) s
  { s with rcv := { s.rcv with mirrors := s.rcv.mirrors.filter fun m => !here m } }

/-- Read a run within one cellar line: the primary serves it, or the secondary when the primary's copy is lost or uncorrectable, and
the primary line is then rewritten (R383, R384). The writes of a line are known by its primary's address. -/
def State.readCellarLine (s : State) (g : Agent) (pa n : Nat) : ReadRes × State :=
  let k := cellarRegion pa
  let a := cellarPrimary s.rcv pa
  let b := cellarSecondary s.rcv pa
  let p := primaryLive s.rcv k
  let q := secondaryLive s.rcv k
  if p && !s.mem.bad a n then s.readRun g a n 64
  else
    let s := if q then s.settleLine pa else s
    if q && !s.mem.bad b n then
      let s := if p then s.settle a n else s
      let (x, s) := s.readRun g a n 64 b
      let line := a / 64
      (x, if p then { s with mem := { s.mem.setBytes (line * 64) (s.mem.bytes (b / 64 * 64) 64) with lines := Tbl.erase s.mem.lines line } }
          else s)
    else
      let (x, s) := s.readBytes g a n
      ({ bytes := x, bad := [(0, n)] }, s)

def State.readCellar (s : State) (g : Agent) (l : List (Nat × Nat)) : ReadRes × State :=
  match l with
  | [] => ({ bytes := [], bad := [] }, s)
  | p :: r =>
    let (x, s) := s.readCellarLine g p.1 p.2
    let (y, s) := s.readCellar g r
    (x.append y, s)

/-- A cellar line as its controller holds it, the newest write included; free where no copy of it is whole (R388). -/
def State.cellarNow (s : State) (line : Nat) : List Byte × State :=
  let k := cellarRegion line
  let a := cellarPrimary s.rcv line
  let b := cellarSecondary s.rcv line
  if primaryLive s.rcv k && !s.mem.bad a 64 then (s.mem.bytes a 64, s.settle a 64)
  else
    let s := if secondaryLive s.rcv k then s.settleLine line else s
    if secondaryLive s.rcv k && !s.mem.bad b 64 then (s.mem.bytes b 64, s.settle b 64)
    else ((List.range 8).flatMap fun i => toBytes (Config.damaged s.free (a / 8 + i)).toNat 8, s.bumpFree)

/-- Write bytes of one cellar line: they perform at the copy that serves the line, and go on to the other one where its stack is there;
a region with a held mirror is dirty from then on (R383, R384). -/
def State.writeCellar (s : State) (g : Agent) (pa : Nat) (l : List Byte) : State :=
  let k := cellarRegion pa
  let h1 := s.rcv.held.getLsbD (k % 8)
  let h2 := s.rcv.held.getLsbD ((k + 4) % 8)
  let a := cellarPrimary s.rcv pa
  let b := cellarSecondary s.rcv pa
  let first := primaryLive s.rcv k || (!secondaryLive s.rcv k && !h1)
  let other := if first then !h2 else !h1
  let src := if first then a else b
  let s := { s with mem := (s.mem.note g s.seq a l.length src) }
  let s := if first || !h2 then { s with mem := s.mem.store src l } else s
  let s := if other then
      { s with rcv := { s.rcv with mirrors := s.rcv.mirrors ++ [{ seq := g.seq, pa := pa, data := l, second := first }] } }
    else s
  let stale := staleOf s.rcv k ||| BitVec.ofNat 2 (b2n h1 + 2 * b2n h2)
  if stale = 0 then s else { s with rcv := { s.rcv with dirty := Tbl.set s.rcv.dirty k stale } }

/-- The recovery engine's accesses (R65), each ordered after those before it. -/
def recAgent (seq : Nat) : Agent :=
  { path := 6, site := coordSite, ctx := 7, seq := seq, strong := true,
    obs := { scope := 9, site := coordSite, bx := 0, by_ := 0, w := 0, h := 0 } }

/-- Write cellar bytes at both mirrors, whose acknowledgements are awaited (R388, R393). -/
def State.recWrite (s : State) (g : Agent) (pa : Nat) (l : List Byte) : State :=
  (cut 64 pa l.length).foldl (fun s p => (s.writeCellar g p.1 (slice l (p.1 - pa) p.2)).settleLine p.1) s

/-- Read cellar bytes: none where both copies are uncorrectable. -/
def State.recGet (s : State) (pa n : Nat) : Option (List Byte) × State :=
  let (q, s) := s.takeSeq
  let (x, s) := s.readCellar (recAgent q) (cut 64 pa n)
  (if x.bad.isEmpty then some x.bytes else none, s)

/-- The PA of an offset in the log (R385). -/
def logPa (r : RecState) (off : Nat) : Nat := 0x20000000000 + r.logFirst * 2 ^ 21 + off

/-- The entries that the log can hold (R385). -/
def logCap (r : RecState) : Nat := (r.logLen * 2 ^ 21 - 4096) / 128

/-- The undo entry of a line (R387). -/
def undoEntry (pa n i : Nat) (old : List Byte) : List Byte :=
  let h := toBytes pa 8 ++ toBytes n 4 ++ toBytes i 4
  h ++ toBytes (crc64 (h ++ old)) 8 ++ List.replicate 40 0 ++ old

/-- dst_line of R388 for bytes within one line: none when the log is full. -/
def State.dstLine (s : State) (g : Agent) (pa : Nat) (l : List Byte) : Option State :=
  let line := pa / 64 * 64
  let key := (line - 0x20000000000) / 64
  let n := if s.rcv.openState = 1 ∨ s.rcv.openState = 2 then s.rcv.openSeq else 0
  if n ≠ 0 ∧ (Tbl.getD s.rcv.tags key 0).toNat ≠ n then
    if logCap s.rcv ≤ s.rcv.nent then none
    else
      let i := s.rcv.nent
      let (old, s) := s.cellarNow line
      let (q, s) := s.takeSeq
      let s := s.recWrite (recAgent q) (logPa s.rcv (0x1000 + 128 * i)) (undoEntry line n i old)
      let s := { s with rcv := { s.rcv with nent := i + 1, tags := Tbl.set s.rcv.tags key (BitVec.ofNat 32 n) } }
      some (s.writeCellar g pa l)
  else some (s.writeCellar g pa l)

/-- The lines of a `dst` in turn: the state, and the line at which the log was full. -/
def State.dstLines (s : State) (g : Agent) (l : List (Nat × List Byte)) : State × Option Nat :=
  match l with
  | [] => (s, none)
  | p :: r =>
    match s.dstLine g p.1 p.2 with
    | none => (s, some (p.1 / 64 * 64))
    | some s => s.dstLines g r

/-- The region of a storage address in the cellar's range. -/
def cellarRegionOf (r : RecState) (pa : Nat) : Nat :=
  let stack := pa / 2 ^ 36
  let j := pa % 2 ^ 36 / 2 ^ 21 - r.celBase
  if j < r.nreg / 8 then j * 8 + stack else (j - r.nreg / 8) * 8 + (stack + 4) % 8

/-- No cellar write among those that `f` names lacks a mirror: performance at scope 9 (R80, R384). -/
def State.durable (s : State) (f : Nat → Bool) : Bool :=
  !(s.rcv.mirrors.any fun m => f m.seq) &&
  !(s.mem.recs.any fun w =>
    f w.who.seq && inCellarRange s.rcv (w.unit * 8) && Tbl.has s.rcv.dirty (cellarRegionOf s.rcv (w.unit * 8)))

/-! ### The host's memory (R413) -/

def State.hostAddr (s : State) (pa : Nat) : Nat := s.link.hostBase + (pa - 0x10000000000)

def MemState.hostBytes (m : MemState) (a n : Nat) : List Byte := (List.range n).map fun i => Tbl.getD m.host (a + i) 0

def MemState.setHost (m : MemState) (a : Nat) (l : List Byte) : MemState :=
  match l with
  | [] => m
  | b :: r => { m with host := Tbl.put m.host a b 0 }.setHost (a + 1) r

/-- A write to the host joins the posted-write queue (R67, R75). -/
def State.hostWrite (s : State) (g : Agent) (pa : Nat) (l : List Byte) : State :=
  let a := s.hostAddr pa
  let p : Posted := { num := s.mem.postNum, who := g.stamp, pa := pa, fences := [] }
  let mem := s.mem.setHost a l
  { s with
    mem := { mem with posted := mem.posted ++ [p], postNum := mem.postNum + 1 }
    out := s.out ++ [.hostWrite a l] }

/-! ### Pieces -/

/-- Read a piece at its target. -/
def State.readPiece (s : State) (g : Agent) (p : Piece) : ReadRes × State :=
  match p.typ with
  | 0 =>
    let (x, s) := s.readRuns g (s.routes p.pa p.len)
    (x, s.fork p.pa p.len)
  | 2 => s.readRun g p.pa p.len 8
  | 3 => ({ bytes := s.mem.hostBytes (s.hostAddr p.pa) p.len, bad := [] }, s)
  | 5 => s.readCellar g (cut 64 p.pa p.len)
  | _ => s.readRun g p.pa p.len 64

def State.readPieces (s : State) (g : Agent) (l : List Piece) : ReadRes × State :=
  match l with
  | [] => ({ bytes := [], bad := [] }, s)
  | p :: r =>
    let (x, s) := s.readPiece g p
    let (y, s) := s.readPieces g r
    (x.append y, s)

/-- Write consecutive runs. -/
def State.writeRuns (s : State) (g : Agent) (l : List (Nat × Nat)) (b : List Byte) : State :=
  match l with
  | [] => s
  | p :: r => (s.writeMem g p.1 (b.take p.2)).writeRuns g r (b.drop p.2)

/-- Write a piece at its target; a cellar piece goes through `dstLines`. -/
def State.writePiece (s : State) (g : Agent) (p : Piece) (b : List Byte) : State :=
  match p.typ with
  | 0 => s.writeRuns g (s.routes p.pa p.len) b
  | 3 => s.hostWrite g p.pa b
  | _ => s.writeMem g p.pa b

/-- The bank of a landing address: its site and number (R174, R233). -/
def State.landingBank (s : State) (pa : Nat) : Nat × Nat :=
  let n := (pa - 0xC000000000) / 2 ^ 21
  (n, (s.site n).tile.bankOf (pa % 2 ^ 21 / 1024))

/-- A landing write with commit number `q` was committed before a reconfiguration of the bank that still drains (R181 step 3). -/
def TileUnit.drains (u : TileUnit) (b q : Nat) : Bool :=
  u.bankOps.any fun o => decide (o.bank ≤ b ∧ b < o.bank + 2 ^ o.grp) && !o.wiping && decide (q < o.seq)

/-- Why a bank rejects a landing write with commit number `q` for context `c`: code and DETAIL (R181, R183, R233, R237). -/
def State.landingReject (s : State) (c q pa : Nat) : Option (Nat × Nat) :=
  let (n, b) := s.landingBank pa
  let u := (s.site n).tile
  let k := u.banks.getD b Bank.reset
  let detail := b * 2 ^ 32 + pa % 2 ^ 21 / 1024
  if k.pend && !u.drains b q then some (0x0206, detail)
  else if k.shared || k.owner == c then none
  else some (0x0306, detail)

/-- Write a landing piece granule by granule: the state, and the first rejected byte, with its offset, code and DETAIL. -/
def State.writeLanding (s : State) (g : Agent) (c : Nat) (p : Piece) (b : List Byte) : State × Option (Nat × Nat × Nat) :=
  (cut 1024 p.pa p.len).foldl
    (fun x q =>
      match x.1.landingReject c g.seq q.1 with
      | some (code, detail) => (x.1, match x.2 with | some y => some y | none => some (q.1 - p.pa, code, detail))
      | none => (x.1.writeMem g q.1 (slice b (q.1 - p.pa) q.2), x.2))
    (s, none)

/-! ### Peers and inbound windows (R405, R409) -/

/-- The link interface's reads of the pod map, on its own path (R12, R405). -/
def podAgent (seq : Nat) : Agent := { path := 7, site := 2048, ctx := 7, seq := seq, obs := deviceWide 2048 }

/-- The link interface reads a device's entry of the pod map. -/
def State.podRead (s : State) (dev : Nat) : Word × State :=
  let (q, s) := s.takeSeq
  let (l, s) := s.readBytes (podAgent q) (s.link.podPa + 8 * dev) 8
  (BitVec.ofNat 64 (ofBytes l), s)

/-- The pod map's entry of a device, as a read of it now gives it. -/
def State.podEntry (s : State) (dev : Nat) : Word := (s.podRead dev).1

/-- What the reads of the entries of these devices leave behind. -/
def State.podMet (s : State) (l : List Nat) : State := l.foldl (fun s d => (s.podRead d).2) s

/-- The ports by which a device can be reached now: those of its entry's mask that are up, in ascending order (R405, R406). -/
def State.portsTo (s : State) (dev : Nat) : List Nat :=
  let e := s.podEntry dev
  if wbit e 63 then (List.range 18).filter fun p => wbit e p && (s.link.ports.getD p PortState.reset).up else []

/-- A device can be reached: its entry is valid and a port of its mask is up. -/
def State.reachable (s : State) (dev : Nat) : Bool := !(s.portsTo dev).isEmpty

/-- The port on which a message of a class leaves for a device now: the lowest for the ordered classes, any for FETCH and REPLY (R406);
none while no port reaches the device, or while an earlier message of the pair and class waits for one. -/
def State.portFor (s : State) (dev cls : Nat) : Option Nat :=
  let l := s.portsTo dev
  if s.link.unacked.any fun m => m.dev == dev && m.cls == cls && m.port.isNone then none
  else if cls = 2 ∨ cls = 3 then l[Config.pick s.free % l.length]? else l.head?

/-- Send a message to a device: it stands unacknowledged until its flits have been acknowledged (R404). -/
def State.sendPod (s : State) (dev cls : Nat) (m : OutMsg) : State :=
  let port := s.portFor dev cls
  let k := dev * 8 + cls
  let num := Tbl.getD s.link.sentNum k 0
  let s := s.podMet [dev]
  { s.bumpFree with
    link := { s.link with
      sentNum := Tbl.set s.link.sentNum k (num + 1)
      unacked := s.link.unacked ++ [{ dev := dev, cls := cls, num := num, port := port, msg := m, since := s.clk }] }
    out := s.out ++ (match port with | some p => [.pod dev cls num p m] | none => []) }

/-- Send again, in order, the messages that have lost their port, as far as a port reaches their device (R404). -/
def State.resend (s : State) : State :=
  let all := s.link.unacked
  let s := { s with link := { s.link with unacked := [] } }
  all.foldl
    (fun s m =>
      let port := match m.port with | some p => some p | none => s.portFor m.dev m.cls
      { s with
        link := { s.link with
          unacked := s.link.unacked ++ [{ m with port := port, since := if m.port.isSome then m.since else s.clk }] }
        out := s.out ++ (match m.port, port with | none, some p => [.pod m.dev m.cls m.num p m.msg] | _, _ => []) })
    s

/-- The class in which a request to a peer travels (R222, R407). -/
def podClass (k : AccKind) (pa : Nat) : Nat :=
  match k with
  | .read | .copyRead => 2
  | _ => if paTarget pa = .headgate then 0 else 1

/-- The window that decides an inbound request at `pa`: the first that applies (R409). Source none is the host. -/
def State.windowFor (s : State) (src : Option Nat) (pa : Nat) : Option Window :=
  s.link.windows.find? fun w =>
    w.v && decide (w.frame ≤ pa / 2 ^ 21 ∧ pa / 2 ^ 21 ≤ w.frame + w.nfr) &&
    (match src with | none => w.host | some d => w.allPod || w.dev == d)

def Window.permits (w : Window) (k : AccKind) : Bool :=
  match k with
  | .read | .copyRead => w.r
  | .atomic => w.a
  | _ => w.w

/-- The context for which an inbound request acts, when it is accepted (R409). -/
def State.inboundCtx (s : State) (src : Option Nat) (k : AccKind) (pa : Nat) : Option Nat :=
  match s.windowFor src pa with
  | some w => if w.permits k then some w.ctx else none
  | none => none

/-- The link faults: logged to context 7, with a notification (R417). -/
def State.linkFault (s : State) (site code detail : Nat) : State :=
  (s.logFault { Who.zero with site := site, ctx := 7, asid := s.asidOf coordSite 7 } code detail).notify code site 0

end Sys2Proof.Machine
end

