-- ==== Sys2Proof/Machine/Translate.lean ====
section
/-! DEFINITION. Translation at the memory port: the extent table (R215), looking a request up (R216), page walks and MP_FLTCTL
(R217), index tiles (R241, R447), the change of translations (R89 to R91, R218) and migration (R232). -/
namespace Sys2Proof.Machine

/-! ### Records and ends of requests (R221, R238) -/

def State.dropReq (s : State) (id : Nat) : State := { s with reqs := s.reqs.filter (·.id ≠ id) }

def State.setReq (s : State) (r : MemReq) : State :=
  { s with reqs := s.reqs.map fun q => if q.id = r.id then r else q }

/-- A request that reads data and writes none (R222, R429). -/
def isFetch (i : Instr) : Bool := i.isAccess && (accKind i == .read || accKind i == .copyRead)

/-- The tokens sent since the mesh held `k` of them answer a read committed at clk `c` (R429). -/
def State.stampFetch (s : State) (k c : Nat) : State :=
  { s with mesh := s.mesh.zipIdx.map fun (p : Flight × Nat) => if k ≤ p.2 then { p.1 with fetch := some c } else p.1 }

/-- One request is finished: its reply or completion leaves, poisoned when the activation was or when `psn` says so (R221). -/
def State.finishOne (s : State) (r : MemReq) (v : Word) (psn : Bool) (deps : List Nat) : State :=
  let t := (s.dropReq r.id).replyFrom r.who.site r.who.site r.target v (psn || r.psn) (r.id :: (r.deps ++ deps)) r.who.asid r.gen
  if isFetch r.ins then t.stampFetch s.mesh.length r.born else t

/-- A request is finished; the request of copy 1 that a twin's comparator has paired with it takes the same answer (R316). -/
def State.finishReq (s : State) (r : MemReq) (v : Word) (psn : Bool) (deps : List Nat) : State :=
  let s := s.finishOne r v psn deps
  match s.pager.twinPairs.find? fun p => p.1 == r.id with
  | none => s
  | some (i, j) =>
    let s := { s with pager := { s.pager with
        twinPairs := s.pager.twinPairs.filter fun p => p.1 != i
        twinOk := s.pager.twinOk.filter fun k => k != i } }
    match s.reqs.find? fun q => q.id == j with
    | some q => s.finishOne q v psn deps
    | none => s

/-- A request fails: a record, then payload 0 and PSN 1 (R238); an `mldw` leaves its engine to drop the load, with a record here only of a
permission that is missing (R216, R266). -/
def State.failReq (s : State) (r : MemReq) (code detail va : Nat) : State :=
  if r.ins.isMldw then
    if code = 0x0302 then (s.logReject r.who code detail va).setReq { r with phase := .failed true }
    else s.setReq { r with phase := .failed false }
  else (s.logReject r.who code detail va).bumpFree.finishReq r 0 true []

/-! ### The extent table (R215) -/

/-- The extent of a context at a site that holds a page. -/
def State.extent? (s : State) (n c page : Nat) : Option (Nat × Extent) :=
  (s.site n).port.ext.find? fun e => e.2.ctx == c && decide (e.2.vpn ≤ page ∧ page ≤ e.2.vpn + e.2.npg)

def Extent.xlat (e : Extent) (page : Nat) : Xlat :=
  { vpn := page, typ := e.typ, dev := e.dev, frame := e.frame + (page - e.vpn), r := e.r, w := e.w }

/-- The lowest free entry, or the least recently used one that is not pinned. -/
def PortUnit.slotFor (p : PortUnit) : Option Nat :=
  match (List.range 64).find? fun k => !Tbl.has p.ext k with
  | some k => some k
  | none =>
    let open_ := p.ext.filter fun e => !e.2.pin
    (open_.foldl
      (fun (best : Option (Nat × Nat)) e =>
        match best with
        | none => some (e.1, e.2.used)
        | some b => if e.2.used < b.2 then some (e.1, e.2.used) else best)
      none).map (·.1)

/-- A page of a context is under migration (MP_EXTVAn.MIG). -/
def State.migrating (s : State) (asid page : Nat) : Bool :=
  s.pager.migs.any fun m => m.asid == asid && m.va / 2 ^ 21 == page && !m.fwd

def State.install (s : State) (n c : Nat) (x : Xlat) (npg : Nat) (pin : Bool) : State :=
  let e : Extent :=
    { w := x.w, r := x.r, ctx := c, pin := pin, vpn := x.vpn, npg := npg, dev := x.dev,
      frame := x.frame, typ := x.typ, used := s.clk }
  match (s.site n).port.slotFor with
  | some k => s.modPort n fun p => { p with ext := Tbl.set p.ext k e }
  | none => s

/-- The pages that a list of ranges touches. -/
def pagesOf (l : List (Nat × Nat)) : List Nat :=
  (l.flatMap fun g => (cut (2 ^ 21) g.1 g.2).map fun p => p.1 / 2 ^ 21).eraseDups

/-- What a lookup gives: pages found, the first without the permission, the pages missed (R216). -/
structure Lookup where
  found : List Xlat
  denied : Option Nat
  missed : List Nat
  deriving DecidableEq, Repr

/-- The permissions an access needs: reads, writes. -/
def needs (k : AccKind) : Bool × Bool :=
  match k with
  | .read | .copyRead => (true, false)
  | .atomic => (true, true)
  | _ => (false, true)

def State.lookup (s : State) (n c : Nat) (k : AccKind) (pages : List Nat) : Lookup :=
  let need := needs k
  pages.foldl
    (fun a page =>
      match s.extent? n c page with
      | none => { a with missed := a.missed ++ [page] }
      | some e =>
        let x := e.2.xlat page
        if (need.1 && !x.r) || (need.2 && !x.w) then { a with denied := some (a.denied.getD page), found := a.found ++ [x] }
        else { a with found := a.found ++ [x] })
    { found := [], denied := none, missed := [] }

/-- Ask the pager for walks of pages, one for each page of a context at a site (R217). -/
def State.askWalks (s : State) (n asid c : Nat) (pages : List Nat) : State :=
  { s with pager := { s.pager with
      walks := s.pager.walks ++ ((pages.map fun p => (n, asid, c, p)).filter fun w => !s.pager.walks.contains w) } }

/-- The extents that a lookup used are the most recently used. -/
def State.touchExtents (s : State) (n c : Nat) (pages : List Nat) : State :=
  s.modPort n fun p =>
    { p with ext := p.ext.map fun e =>
        if e.2.ctx == c && pages.any fun g => decide (e.2.vpn ≤ g ∧ g ≤ e.2.vpn + e.2.npg) then (e.1, { e.2 with used := s.clk })
        else e }

/-- The first byte of a request that lies in a page. -/
def MemReq.vaIn (r : MemReq) (page : Nat) : Nat :=
  match r.ranges.flatMap fun g => (cut (2 ^ 21) g.1 g.2).filter fun p => p.1 / 2 ^ 21 == page with
  | p :: _ => p.1
  | [] => page * 2 ^ 21

/-! ### Index tiles (R241, R242, R447) -/

/-- The tiles that a request names, as descriptors. -/
def MemReq.descs (r : MemReq) : List Desc := r.tiles.map Desc.of

/-- R447: the first tile that no longer serves the request. -/
def State.stalePort (s : State) (r : MemReq) : Option Word := r.tiles.find? fun w => (s.tileFor? (Desc.of w) r.id).isNone

/-- The base address of an indexed request, exact (R241, R242). -/
def MemReq.base (r : MemReq) : Int :=
  match r.ins with
  | .gth m | .sct m => r.va.toNat + sext m.off.toNat 15 * 64
  | _ => r.va.toNat

/-- The element addresses that an index tile gives, row-major; none for one out of range or misaligned (R241). -/
def MemReq.addresses (r : MemReq) (index : Img) (b : Desc) : List (Option Nat × Int) :=
  let size := r.ins.unitBytes
  (List.range b.rows).flatMap fun i =>
    (List.range b.cols).map fun j =>
      let k := index.code i j
      let v : Int := if b.ef.isSignedInt then sext k b.ef.width else k
      let a : Int := r.base + v * size
      (if a < 0 ∨ (2 : Int) ^ 56 < a + size ∨ a % size ≠ 0 then none else some a.toNat, a)

/-- A logged 0x0304 for each element skipped (R241). -/
def State.logSkipped (s : State) (r : MemReq) (l : List (Option Nat × Int)) : State :=
  l.foldl
    (fun s p => match p.1 with
      | some _ => s
      | none => let a := (BitVec.ofInt 64 p.2).toNat; s.logPort r.who 0x0304 a a 0 0)
    s

/-- An uncorrectable unit of a tile that a request reads: 0x030E with its handle, and the line in its granule (R225). -/
def State.logTileUnit (s : State) (r : MemReq) (d : Desc) (off : Option Nat) : State :=
  match off with
  | none => s
  | some k => s.logPort r.who 0x030E (k % 1024 / 64) r.ea (handleOf d.toWord) 0

/-- The request's first element: its tiles are checked, and the index tile is read (R225, R447). -/
def State.readIndex (s : State) (r : MemReq) : State :=
  match s.stalePort r with
  | some w => s.failReq r 0x0311 w.toNat r.ea
  | none =>
    let b := Desc.of r.vb
    let bad := s.badRows b
    let rows := bad.1 ||| (match r.ins with | .vatom .. => s.tilePoison b | _ => 0)
    let s := s.logTileUnit r b bad.2
    let (l, s) := s.readTile (s.memAgent r []) b
    let el := r.addresses (Img.of b l) b
    (s.logSkipped r el).setReq { r with elems := some (el.map (·.1)), rows := rows }

/-! ### Looking a request up (R216) -/

/-- DETAIL of 0x0302. -/
def permissionDetail (k : AccKind) : Nat :=
  match k with
  | .read | .copyRead => 0
  | .atomic => 2
  | _ => 1

/-- A `wsld` whose destination breaks R247. -/
def wsldBad (r : MemReq) : Bool :=
  let d := r.vd.toNat
  let k := r.vb.toNat
  paTarget d != .weight || d % 1024 != 0 || k == 0 || k % 1024 != 0 || decide (d / 2 ^ 27 ≠ (d + k - 1) / 2 ^ 27)

/-- The TYPE that names a physical address, or that of none (R210). -/
def State.wsldFail (s : State) (r : MemReq) : State :=
  s.failReq r 0x0307 (wrongDetail s (typeOfPa r.vd.toNat) (opcOf r.ins)) r.ea

/-- Park a request on the pages that it misses, unless the port holds as many as it can: then it waits unparked (R216). -/
def State.park (s : State) (r : MemReq) (missed : List Nat) : State :=
  let n := r.who.site
  if 256 ≤ s.parkedReqs n then s
  else ((s.count n 11).setReq { r with phase := .parked missed false, since := s.clk }).askWalks n r.who.asid r.who.ctx missed

/-- Does the request need a translation at all? -/
def MemReq.translated (r : MemReq) : Bool :=
  match r.ins with
  | .fence _ | .sclose _ | .migr _ | .inv _ | .gbump _ => false
  | _ => !r.phys

/-- A context of this ASID holds the slot: extents of the site serve its requests (R215). -/
def State.atHome (s : State) (n asid c : Nat) : Bool :=
  match s.slot? n c with
  | some k => k.asid == asid
  | none => false

/-- Translate a request page by page. -/
def State.translate (s : State) (r : MemReq) : State :=
  if !r.translated then s.setReq { r with phase := .ready [] }
  else
    let n := r.who.site
    let k := accKind r.ins
    let pages := pagesOf r.ranges
    let l : Lookup := if s.atHome n r.who.asid r.who.ctx then s.lookup n r.who.ctx k pages
      else { found := [], denied := none, missed := pages }
    match r.ins with
    | .pref _ =>
      match l.missed with
      | [] => s.finishReq r 1 false []
      | page :: _ => (s.setReq { r with phase := .walking page }).askWalks n r.who.asid r.who.ctx l.missed
    | _ =>
      match l.denied, l.missed with
      | some page, _ => s.failReq r 0x0302 (permissionDetail k) (r.vaIn page)
      | none, [] => (s.touchExtents n r.who.ctx pages).setReq { r with phase := .ready l.found }
      | none, missed => s.park r missed

/-- The index tile of a request is still to be read. -/
def MemReq.unread (r : MemReq) : Bool :=
  match r.ins, r.elems with
  | .gth _, none | .sct _, none | .vatom .., none => true
  | _, _ => false

/-- Requests of a site are looked up in commit order, but for those whose index tile is still to be read (R216, R217). -/
def State.lookupTurn (s : State) (r : MemReq) : Bool :=
  !(s.reqs.any fun q => q.who.site == r.who.site && decide (q.id < r.id) && q.phase == .committed && !q.unread)

/-- MEM_TRANSLATE: a committed request is looked up, in its turn; an indexed one reads its index tile first. -/
def execMemTranslate (id : Nat) (s : State) : Out :=
  match s.reqs.find? (·.id == id) with
  | none => .next s
  | some r =>
    match r.phase, r.ins, r.elems with
    | .committed, .gth _, none | .committed, .sct _, none | .committed, .vatom .., none =>
      .next (if s.mayPerform r then s.readIndex r else s)
    | .committed, .wsld _, _ => .next (if !s.lookupTurn r then s else if wsldBad r then s.wsldFail r else s.translate r)
    | .committed, _, _ => .next (if s.lookupTurn r then s.translate r else s)
    | _, _, _ => .next s

/-- The pages of the item that a stream generates next. -/
def StreamRun.pages (g : StreamRun) : List Nat :=
  let a := (g.d.itemVa g.off g.pos).toNat
  pagesOf [(a, g.d.itemBytes)]

/-! ### Walks (R217) -/

/-- The requests parked at a site for a page of a context, and the `pref` that wait for its walk. -/
def State.waitingFor (s : State) (n asid c page : Nat) : List MemReq :=
  s.reqs.filter fun r =>
    r.who.site == n && r.who.asid == asid && r.who.ctx == c &&
    (match r.phase with | .parked l _ => l.contains page | .walking p => p == page | _ => false)

/-- The streams of a context at a site whose next item waits for a page. -/
def State.streamsFor (s : State) (n asid c page : Nat) : List (Nat × StreamRun) :=
  (s.site n).port.gens.filter fun g => g.2.parked && g.2.who.asid == asid && g.2.who.ctx == c && g.2.pages.contains page

/-- Requests that waited for a page look it up again: one that waits for no other page goes back to its translation. -/
def State.unpark (s : State) (n asid c page : Nat) : State :=
  let f (r : MemReq) : MemReq :=
    match r.phase with
    | .parked l k =>
      if r.who.site == n && r.who.asid == asid && r.who.ctx == c && l.contains page then
        let rest := l.filter (· ≠ page)
        if rest.isEmpty then { r with phase := .committed } else { r with phase := .parked rest k }
      else r
    | .walking p =>
      if r.who.site == n && r.who.asid == asid && r.who.ctx == c && p == page then { r with phase := .committed } else r
    | _ => r
  let s := { s with reqs := s.reqs.map f }
  (s.streamsFor n asid c page).foldl
    (fun s g => s.modPort n fun p => { p with gens := Tbl.set p.gens g.1 { g.2 with parked := false } }) s

/-- The last item token of a stream's failed item, or an item's own: payload 0, PSN 1 is sent by the stream (R238). -/
def StreamRun.itn (g : StreamRun) : BitVec 16 := g.target.itn + BitVec.ofNat 16 g.pos

/-- Send an item token (R228): data class, poisoned with its activation, made by an engine (R423). -/
def State.sendItem (s : State) (n : Nat) (g : StreamRun) (v : Word) (psn : Bool) : State :=
  let e := Entry.of g.target.entry
  s.launchToken n (e.token 0 (psn || g.psn) e.port g.target.fp g.itn v) e.remote e.link engineOrigin (s.prune (g.seq :: g.deps)) g.who.asid g.gen

/-- A control token of a stream to CTIX (R228, R230, R244). -/
def State.sendMark (s : State) (n : Nat) (g : StreamRun) (v : Word) (itn : BitVec 16) : State :=
  let w := entryWord s n g.who.ctx g.d.ctix
  let e := Entry.of w
  s.launchToken n (e.token 1 g.psn e.port g.target.fp itn v) e.remote e.link engineOrigin (s.prune (g.seq :: g.deps)) g.who.asid g.gen

/-- The EOS payload for the ranks of a mask: the highest, with the others subsumed (R38, R228). -/
def eosPayload (ranks : List Nat) : Word :=
  match ranks.getLast? with
  | none => 0
  | some top => fieldsWord [(56, 1), (48, top), (0, (ranks.dropLast.foldl (fun a k => a + 2 ^ k) 0))]

/-- The next item is done with: the marker that follows it, then the position; the last one ends the stream (R228). -/
def State.nextItem (s : State) (n k : Nat) (g : StreamRun) : State :=
  let d := g.d
  let g := { g with beat := (g.beat + 1) % 256 }
  let e := (d.wraps g.pos).filter fun i => bit d.emask i
  let s := if e.isEmpty then s else s.sendMark n g (eosPayload e) g.itn
  s.modPort n fun p =>
    { p with gens := if d.count ≤ g.pos + 1 then Tbl.erase p.gens k else Tbl.set p.gens k { g with pos := g.pos + 1, parked := false } }

/-- The items that a REPLAY stream has delivered since its replay point, and how many of them have been sent again (R231). -/
def State.window (s : State) (n : Nat) (g : StreamRun) : List WinItem × Nat :=
  Tbl.getD (s.site n).port.wins (g.who.ctx * 32 + g.sdx) ([], 0)

def State.setWindow (s : State) (n : Nat) (g : StreamRun) (w : List WinItem × Nat) : State :=
  s.modPort n fun p => { p with wins := Tbl.set p.wins (g.who.ctx * 32 + g.sdx) w }

/-- An item has been delivered, or sent again (R231). -/
def State.keepItem (s : State) (n : Nat) (g : StreamRun) (x : WinItem) : State :=
  if !g.d.replay then s
  else
    let (l, again) := s.window n g
    s.setWindow n g (if again < l.length then (l, again + 1) else (l ++ [x], l.length + 1))

/-- A stream's item fails: a record, then its token with payload 0 and PSN 1 (R238). -/
def State.failItem (s : State) (n k : Nat) (g : StreamRun) (code detail va : Nat) : State :=
  (((s.logPort g.who code detail va 0 0).bumpFree.sendItem n g 0 true).keepItem n g { len := 0, rows := 1, fail := true }).nextItem n k g

/-- The walks of all pages of a request, when each ends in a leaf. -/
def State.leaves (s : State) (n key : Nat) (l : List Nat) : Option (List Xlat) × State :=
  match l with
  | [] => (some [], s)
  | p :: r =>
    let (x, s) := s.walk n key (p * 2 ^ 21)
    match x with
    | .leaf x =>
      let (xs, s) := s.leaves n key r
      (xs.map (x :: ·), s)
    | _ => (none, s)

/-- A walk ends for a context that is away: it holds no extents, and its requests go on once every page of theirs has a leaf (R310). -/
def State.resolveAway (s : State) (n asid c page key : Nat) : State :=
  (s.waitingFor n asid c page).foldl
    (fun s r =>
      let k := accKind r.ins
      let (xs, s) := s.leaves n key (pagesOf r.ranges)
      match xs with
      | none => s
      | some xs =>
        match r.ins with
        | .pref _ => s.finishReq r 0 false []
        | _ =>
          match xs.find? fun x => ((needs k).1 && !x.r) || ((needs k).2 && !x.w) with
          | some x => s.failReq r 0x0302 (permissionDetail k) (r.vaIn x.vpn)
          | none => s.setReq { r with phase := .ready xs })
    s

/-- The weight-store bank that a leaf maps for reading: die·16 + bank. -/
def Xlat.bank? (x : Xlat) : Option Nat := if x.typ = 1 ∧ x.r then some ((x.frame * 2 ^ 21 - 0x8000000000) / 2 ^ 27) else none

/-- A walk has found a leaf of a placed context: MP_WSBUSY shows its bank (R212). -/
def State.busyBank (s : State) (x : Xlat) : State :=
  match x.bank? with
  | none => s
  | some b =>
    let d := b / 16
    { s with mem := { s.mem with wsBusy := Tbl.put s.mem.wsBusy d (Tbl.getD s.mem.wsBusy d 0 ||| BitVec.ofNat 16 (2 ^ (b % 16))) 0 } }

/-- The result of a walk for a page of a context at a site. -/
def State.walkDone (s : State) (n asid c page : Nat) : State :=
  let va := page * 2 ^ 21
  let rs := s.waitingFor n asid c page
  let gs := s.streamsFor n asid c page
  let real := rs.filter fun r => match r.ins with | .pref _ => false | _ => true
  let prefs := rs.filter fun r => match r.ins with | .pref _ => true | _ => false
  let loads := real.filter fun r => r.ins.isMldw
  let who (rs : List MemReq) : Option (Who × Nat) := match rs, gs with
    | r :: _, _ => some (r.who, r.vaIn page)
    | [], g :: _ => some (g.2.who, (g.2.d.itemVa g.2.off g.2.pos).toNat)
    | [], [] => none
  let home := s.atHome n asid c
  let key := if home then s.tableKey n c else ringKey c asid
  let (res, s) := s.walk n key va
  match res with
  | .leaf x =>
    let s := s.busyBank x
    if home then ((s.install n c x 0 false)).unpark n asid c page else s.resolveAway n asid c page key
  | .bad e unc =>
    let s := prefs.foldl (fun s r => s.finishReq r 0 false []) s
    let s := match who real with
      | some (who, a) => if unc then s.logPort who 0x030E 0 a 0 0 else s
      | none => s
    let s := real.foldl (fun s r => s.failReq r 0x0303 e.toNat (r.vaIn page)) s
    gs.foldl (fun s g => s.failItem n g.1 g.2 0x0303 e.toNat (g.2.d.itemVa g.2.off g.2.pos).toNat) s
  | .invalid level =>
    let s := loads.foldl (fun s r => s.failReq r 0 0 0) (prefs.foldl (fun s r => s.finishReq r 0 false []) s)
    match who (real.filter fun r => !r.ins.isMldw) with
    | none => s
    | some (who, a) =>
      let handle := match s.slot? n c with | some k => k.handle | none => 0
      let s := (s.logPort who 0x0301 level a 0 0).notify 0x0301 n handle
      { s with reqs := s.reqs.map fun r =>
          match r.phase with
          | .parked l _ =>
            if r.who.site == n && r.who.asid == asid && r.who.ctx == c && l.contains page then { r with phase := .parked l true } else r
          | _ => r }

/-- PAGE_WALK_DONE: walk `k` of those asked for ends (R217). -/
def execPageWalkDone (k : Nat) (s : State) : Out :=
  match s.pager.walks[k]? with
  | none => .next s
  | some (n, asid, c, page) =>
    let s := { s with pager := { s.pager with walks := listDrop1 s.pager.walks k } }
    .next (s.walkDone n asid c page)

/-- FLTCTL_RETRY: every parked request of the ASID at the site is looked up again (R217). -/
def State.fltRetry (s : State) (n asid : Nat) : State :=
  let f (r : MemReq) : MemReq :=
    match r.phase with
    | .parked .. => if r.who.site = n ∧ r.who.asid = asid then { r with phase := .committed } else r
    | _ => r
  let h (g : Nat × StreamRun) : Nat × StreamRun := if g.2.who.asid = asid then (g.1, { g.2 with parked := false }) else g
  let s := { s with reqs := s.reqs.map f }
  s.modPort n fun p => { p with gens := p.gens.map h }

def execFltctlRetry (n asid : Nat) (s : State) : Out := .next (s.fltRetry n asid)

/-- FLTCTL_FAIL: every parked request of the ASID at the site completes with 0x030B (R217). -/
def State.fltFail (s : State) (n asid : Nat) : State :=
  let rs := s.reqs.filter fun r =>
    r.who.site == n && r.who.asid == asid && (match r.phase with | .parked .. => true | _ => false)
  let s := rs.foldl
    (fun s r => match r.ins with
      | .pref _ => s.finishReq r 0 false []
      | _ =>
        let va := match r.phase with | .parked (g :: _) _ => r.vaIn g | _ => r.ea
        s.failReq r 0x030B va va)
    s
  let gs := (s.site n).port.gens.filter fun g => g.2.parked && g.2.who.asid == asid
  gs.foldl (fun s g => let va := (g.2.d.itemVa g.2.off g.2.pos).toNat; s.failItem n g.1 g.2 0x030B va va) s

def execFltctlFail (n asid : Nat) (s : State) : Out := .next (s.fltFail n asid)

/-! ### Generations and repatching (R89 to R91, R218) -/

/-- A request that carries a generation other than its ASID's current one is stale (R247). -/
def State.staleGen (s : State) (r : MemReq) : Bool := r.gen != (s.gen r.who.asid).toNat

/-- STALE_GENERATION_RETRY: a rejected request is translated again and resent (R89, R218). -/
def execStaleGenerationRetry (id : Nat) (s : State) : Out :=
  match s.reqs.find? (·.id == id) with
  | none => .next s
  | some r =>
    match r.phase with
    | .ready _ =>
      if s.staleGen r then
        .next ((s.count r.who.site 3).setReq { r with phase := .committed, gen := (s.gen r.who.asid).toNat })
      else .next s
    | _ => .next s

/-- The pages of an extent, with those that `f` answers given a new translation, or dropped. -/
def Extent.rewrite (e : Extent) (f : Nat → Option Xlat) : List Xlat :=
  (List.range (e.npg + 1)).filterMap fun i => f (e.vpn + i)

/-- Pages joined into runs whose frames follow one another. -/
def runsOf (l : List Xlat) : List (Xlat × Nat) :=
  l.foldl
    (fun acc x =>
      match acc.getLast? with
      | some (y, k) =>
        if x.vpn = y.vpn + k + 1 ∧ x.frame = y.frame + k + 1 ∧ x.typ = y.typ ∧ x.dev = y.dev ∧ x.r = y.r ∧ x.w = y.w then
          acc.dropLast ++ [(y, k + 1)]
        else acc ++ [(x, 0)]
      | none => [(x, 0)])
    []

/-- Replace one extent of a site by the runs of its rewritten pages: the first in its place, others in free entries. -/
def State.repatch (s : State) (n k : Nat) (e : Extent) (f : Nat → Option Xlat) : State :=
  match runsOf (e.rewrite f) with
  | [] => s.modPort n fun p => { p with ext := Tbl.erase p.ext k }
  | (x, m) :: rest =>
    let e' := { e with w := x.w, r := x.r, vpn := x.vpn, npg := m, dev := x.dev, frame := x.frame, typ := x.typ }
    let s := s.modPort n fun p => { p with ext := Tbl.set p.ext k e' }
    rest.foldl (fun s y => s.install n e.ctx y.1 y.2 e.pin) s

/-- The extents of an ASID, at every site, that cover a page of the range `lo` to `hi`: site, entry, extent. -/
def State.covering (s : State) (asid lo hi : Nat) : List (Nat × Nat × Extent) :=
  s.sites.flatMap fun x =>
    (x.2.port.ext.filter fun e =>
      (match Tbl.get? x.2.ctxs e.2.ctx with | some k => k.asid == asid | none => false) &&
      decide (e.2.vpn ≤ hi ∧ lo ≤ e.2.vpn + e.2.npg)).map fun e => (x.1, e.1, e.2)

/-- Walk pages anew for a repatch: the translations of those whose entries are valid. -/
def State.rewalk (s : State) (n c : Nat) (pages : List Nat) : List Xlat × State :=
  match pages with
  | [] => ([], s)
  | p :: r =>
    let (x, s) := s.walk n (s.tableKey n c) (p * 2 ^ 21)
    let (l, s) := s.rewalk n c r
    (match x with | .leaf x => x :: l | _ => l, s)

/-- Repatch, in place, every extent of an ASID that covers a page of the range; with DROP, invalidate those not pinned (R218). -/
def State.invPatch (s : State) (asid lo hi : Nat) (drop : Bool) : State :=
  (s.covering asid lo hi).foldl
    (fun s (n, k, e) =>
      if drop && !e.pin then s.modPort n fun p => { p with ext := Tbl.erase p.ext k }
      else
        let (l, s) := s.rewalk n e.ctx (((List.range (e.npg + 1)).map (e.vpn + ·)).filter fun p => decide (lo ≤ p ∧ p ≤ hi))
        let f (page : Nat) : Option Xlat := if lo ≤ page ∧ page ≤ hi then l.find? fun x => x.vpn == page else some (e.xlat page)
        s.repatch n k e f)
    s

/-- A running collective of the ASID holds a translation of a page of the range that the tables no longer give (R90, R336). -/
def State.oldCollective (s : State) (asid lo hi : Nat) : Bool :=
  s.coll.groups.any fun g =>
    g.asid == asid &&
    (match g.cur with
     | some o =>
       !o.done && o.xl.any fun p =>
         decide (lo ≤ p.vpn ∧ p.vpn ≤ hi) &&
         (match (s.walk o.req.who.site (s.linkKey o.req.who.ctx asid) (p.vpn * 2 ^ 21)).1 with
          | .leaf x => x != p
          | _ => true)
     | none => false)

/-- A request of the ASID still holds a translation, of a page of the range, that the extent table no longer gives (R90). -/
def State.oldTranslation (s : State) (asid lo hi : Nat) : Bool :=
  s.oldCollective asid lo hi ||
  s.reqs.any fun r =>
    r.who.asid == asid && r.answer.isNone &&
    (match r.phase with
     | .ready x | .remote x =>
       x.any fun p =>
         decide (lo ≤ p.vpn ∧ p.vpn ≤ hi) &&
         (match s.extent? r.who.site r.who.ctx p.vpn with
          | some e => e.2.xlat p.vpn != p
          | none => true)
     | _ => false)

/-- Advance the generation of an ASID (R91, R247); old frames of its finished migrations are no longer forwarded (R232). -/
def State.bumpGen (s : State) (asid : Nat) : State :=
  { s with pager := { s.pager with
      gens := Tbl.put s.pager.gens asid (s.gen asid + 1) 0
      migs := s.pager.migs.filter fun m => !(m.asid == asid && m.fwd) } }

/-! ### Migration (R232) -/

/-- MIGRATION_GRANULE_COPY: the controller copies granule P of migration `k` itself. -/
def execMigrationGranuleCopy (k : Nat) (s : State) : Out := .next (s.copyGranule k)

/-- Point every extent of the ASID that covers the page at its new frame. -/
def State.migPatch (s : State) (m : Migration) : State :=
  let page := m.va / 2 ^ 21
  (s.covering m.asid page page).foldl
    (fun s (n, k, e) =>
      s.repatch n k e fun g =>
        let x := e.xlat g
        some (if g = page ∧ x.typ = 0 ∧ x.frame = m.old then { x with frame := m.new } else x))
    s

/-- MIGRATION_COMPLETE: the pointer has reached 2,048; the extents are repatched and `migr` completes. -/
def execMigrationComplete (k : Nat) (s : State) : Out :=
  match s.pager.migs[k]? with
  | none => .next s
  | some m =>
    if m.p < 2048 ∨ m.fwd then .next s
    else
      let s := { s with pager := { s.pager with migs := listUpd s.pager.migs k fun m => { m with fwd := true } } }
      let s := s.migPatch m
      match s.reqs.find? (·.id == m.req) with
      | some r => .next (s.bumpFree.finishReq r (Config.openPayload s.free) false [])
      | none => .next s

end Sys2Proof.Machine
end

