-- ==== Sys2Proof/Machine/Serve.lean ====
section
/-! DEFINITION. What a translated request meets: when it must wait, why it fails (R222, R223, R405, R409), and its reads and writes at
this device, at a peer, or at the host. -/
namespace Sys2Proof.Machine

/-- The die whose reset would hold an access (R437, R439). -/
def dieOfPa (typ pa : Nat) : Option Nat :=
  match typ with
  | 0 => some (pa / 2 ^ 36)
  | 1 => some ((pa - 0x8000000000) / 2 ^ 31)
  | 2 => some (dieOf ((pa - 0xC000000000) / 2 ^ 21))
  | _ => none

/-- The piece as this device serves it: a TYPE 4 piece of its own number takes the type of its own map (R223). -/
def State.local? (s : State) (p : Piece) : Piece := if p.typ = 4 ∧ s.isSelf p.dev then { p with typ := typeOfPa p.pa } else p

/-- An access must wait: its weight-store bank is in refresh (R213), its die is held by a wipe (R439), or a cellar region has no copy
to serve it (R384). -/
def State.mustWait (s : State) (p : Piece) : Bool :=
  let p := s.local? p
  (p.typ == 1 && s.mem.refreshing p.pa) ||
  (match dieOfPa p.typ p.pa with | some d => s.pkg.wiping.contains d | none => false) ||
  (p.typ == 5 && !primaryLive s.rcv (cellarRegion p.pa) && !secondaryLive s.rcv (cellarRegion p.pa) &&
   staleOf s.rcv (cellarRegion p.pa) != 3)

/-- A peer's refusal as the issuer's record shows it (R222). -/
def peerDetail (code : Nat) : Nat := 2 ^ 63 + code % 2 ^ 16

/-- What a peer answers where its map's type does not allow the access (R223): accepting is no choice. -/
def peerAnswer (k : AccKind) (typ code : Nat) : Nat :=
  if code ≠ 0 ∨ typ = 9 then code
  else
    match allowed k typ with
    | .yes => if typ = 8 then 0x0307 else 0
    | .permission => 0x0302
    | .wrong => 0x0307

/-- Why a piece fails: code and DETAIL. `head` holds for the one form that may reach a headgate (R223). -/
def State.checkPiece (s : State) (k : AccKind) (opc : Nat) (head : Bool) (p : Piece) : Option (Nat × Nat) :=
  if p.typ ≠ 4 then pieceFail s k opc p
  else if typeOfPa p.pa = 9 ∧ !head then some (0x0307, wrongDetail s 4 opc)
  else if s.isSelf p.dev then
    let q := s.local? p
    if q.typ = 9 then none
    else
      match s.inboundCtx (some p.dev) k p.pa with
      | none => some (0x030B, peerDetail 0x0904)
      | some _ => (if q.typ = 8 then some (0x0307, 0) else pieceFail s k opc q).map fun f => (0x030B, peerDetail f.1)
  else if !s.reachable p.dev then some (0x030B, peerDetail 0x0903)
  else
    let code := peerAnswer k (typeOfPa p.pa) (Config.peerCode (s.free + p.pa)).toNat
    if code = 0 then none else some (0x030B, peerDetail code)

/-- Context 7's own record of a failure at a piece: a peer that no port reaches (R405), or this device's own refusal (R417). -/
def State.pieceFault (s : State) (n : Nat) (p : Piece) (f : Nat × Nat) : State :=
  if p.typ ≠ 4 ∨ f.1 ≠ 0x030B then s
  else if f.2 = peerDetail 0x0903 ∧ !s.isSelf p.dev then s.linkFault n 0x0903 p.dev
  else if f.2 = peerDetail 0x0904 ∧ s.isSelf p.dev then s.linkFault n 0x0904 (p.pa % 2 ^ 48 + p.dev % 2 ^ 12 * 2 ^ 48)
  else s

/-- A request's failure at a piece; 0x030B names the request's VA (R222). -/
def State.failPiece (s : State) (r : MemReq) (p : Piece) (f : Nat × Nat) : State :=
  (s.pieceFault r.who.site p f).failReq r f.1 f.2 (if f.1 = 0x030B then r.ea else p.va)

/-- Read a piece, wherever it is: a peer's answer is a free value (log entry 30). -/
def State.serveRead (s : State) (id : Nat) (ins : Instr) (g : Agent) (p : Piece) : ReadRes × State :=
  if s.away p then
    let bytes := (List.range p.len).map fun i => Config.peerByte (s.free + p.pa) i
    ({ bytes := bytes, bad := [] }, s.sendPod p.dev 2 (.peer p.dev id p.pa ins []))
  else if p.typ = 4 then s.readPiece { g with path := 7 } (s.local? p)
  else s.readPiece g p

def State.serveReads (s : State) (id : Nat) (ins : Instr) (g : Agent) (l : List Piece) : ReadRes × State :=
  match l with
  | [] => ({ bytes := [], bad := [] }, s)
  | p :: r =>
    let (x, s) := s.serveRead id ins g p
    let (y, s) := s.serveReads id ins g r
    (x.append y, s)

/-- How the host answers a read that is served at once: 0, or the code of 0x0907 (log entry 30). -/
def State.hostFails (s : State) (l : List Piece) : Nat :=
  if l.any fun p => (s.local? p).typ == 3 then Config.hostCode s.free % 4 else 0

/-- The host's answer to such a read: free bytes. -/
def State.hostAnswers (s : State) (l : List Piece) : State :=
  l.foldl
    (fun (s : State) p =>
      if (s.local? p).typ ≠ 3 then s
      else
        let a := s.hostAddr p.pa
        { s with
          mem := s.mem.setHost a ((List.range p.len).map fun i => Config.hostByte s.free (a + i))
          out := s.out ++ [.hostRead 0 a p.len] })
    s

/-- Write a piece, wherever it is: the state, and the first byte that a bank rejected (R233). -/
def State.serveWrite (s : State) (id : Nat) (ins : Instr) (g : Agent) (p : Piece) (b : List Byte) :
    State × Option (Nat × Nat × Nat) :=
  if s.away p then (s.sendPod p.dev (podClass (accKind ins) p.pa) (.peer p.dev id p.pa ins b), none)
  else
    let q := s.local? p
    let c := if p.typ = 4 then (s.inboundCtx (some p.dev) (accKind ins) p.pa).getD g.ctx else g.ctx
    let g := if p.typ = 4 then { g with path := 7 } else g
    if q.typ = 2 then s.writeLanding g c q b else (s.writePiece g q b, none)

/-- Write consecutive pieces; the first rejection is kept, with its address. -/
def State.serveWrites (s : State) (id : Nat) (ins : Instr) (g : Agent) (l : List (Piece × List Byte)) :
    State × Option (Nat × Nat × Nat) :=
  l.foldl
    (fun x p =>
      let y := x.1.serveWrite id ins g p.1 p.2
      (y.1, match x.2, y.2 with
        | some f, _ => some f
        | none, some (o, c, d) => some (p.1.va + o, c, d)
        | none, none => none))
    (s, none)

end Sys2Proof.Machine
end

