-- ==== Sys2Proof/Machine/Streams.lean ====
section
/-! DEFINITION. Streams: address generators (R229), the items and their end markers (R228), throttling (R230, R300), replay windows
(R231) and `sclose` (R244). -/
namespace Sys2Proof.Machine

/-- The sources of a launch are stopped: it is being frozen, or is in a state other than IDLE and RUNNING (R307). -/
def State.sourcesStopped (s : State) (n c : Nat) : Bool :=
  match s.slot? n c with
  | none => true
  | some k =>
    k.held || k.frozen ||
    (match Tbl.get? s.pager.launches k.handle with
     | some l => l.freeze.isSome || (l.state != .idle && l.state != .running)
     | none => false)

/-- STREAM_GENERATOR_GRANT: the first waiting `sopen` takes the lowest free generator (R229). -/
def execStreamGeneratorGrant (n : Nat) (s : State) : Out :=
  let p := (s.site n).port
  match p.gens.find? (fun g => decide (8 ≤ g.1)), p.sopens, (List.range 8).find? fun k => !Tbl.has p.gens k with
  | some g, _, some k => .next (s.modPort n fun p => { p with gens := Tbl.set (Tbl.erase p.gens g.1) k g.2 })
  | none, r :: rest, some k =>
    match r.ins, r.target with
    | .sopen m, some t =>
      let g : StreamRun :=
        { sdx := m.md.toNat, who := r.who, gen := r.gen, psn := r.psn, desc := s.streamWords n r.who.ctx m.md.toNat, target := t,
          alc := m.alc.toNat, off := r.va, pos := 0, replayPos := 0, parked := false, beat := 0, seq := r.id,
          deps := r.deps, org := r.org, act := r.act }
      .next (s.modPort n fun p => { p with sopens := rest, gens := Tbl.set p.gens k g })
    | _, _ => .next (s.modPort n fun p => { p with sopens := rest })
  | _, _, _ => .next s

/-- DUTY of a die (R290). -/
def State.duty (s : State) (n : Nat) : Nat := Tbl.getD s.pager.duty (dieOf n) 0

/-- BUB_EMIT: the first DUTY item times of a run of 256 are held, and one BUB tells how many (R230, R300). -/
def execBubEmit (n k : Nat) (s : State) : Out :=
  match Tbl.get? (s.site n).port.gens k with
  | none => .next s
  | some g =>
    let d := s.duty n
    if 8 ≤ k ∨ g.beat ≠ 0 ∨ d = 0 ∨ s.sourcesStopped n g.who.ctx then .next s
    else
      let s := if g.d.emask = 0 then s else (s.sendMark n g (fieldsWord [(56, 6), (0, d)]) g.itn).count n 12
      .next (s.modPort n fun p => { p with gens := Tbl.set p.gens k { g with beat := d } })

/-- The window of a REPLAY stream in the replay area (R231, R287): site i of the region, 64 KiB for each stream. -/
def State.replayWindow (s : State) (n : Nat) (g : StreamRun) : Option Nat :=
  match s.slot? n g.who.ctx with
  | none => none
  | some k =>
    let i := (siteY n - k.by_) * k.w + (siteX n - k.bx)
    some (s.cdField (s.descKey n g.who.ctx) 0x38 8 + 65536 * (1 + 32 * i + g.sdx))

/-- Mark the launch of a context at a site: its replay window has been exceeded (R231, R313). -/
def State.windowExceeded (s : State) (n c : Nat) : State :=
  match s.slot? n c with
  | none => s
  | some k =>
    match Tbl.get? s.pager.launches k.handle with
    | some x => { s with pager := { s.pager with launches := Tbl.set s.pager.launches k.handle { x with windowOver := true } } }
    | none => s

/-- The next item of a replayed stream is one that it has delivered: the offset of its bytes in the window, and what became of it. -/
def State.replays (s : State) (n : Nat) (g : StreamRun) : Option (Nat × WinItem) :=
  if !g.d.replay then none
  else
    let (l, again) := s.window n g
    l[again]?.map fun x => (((l.take again).map (·.len)).foldl (· + ·) 0, x)

/-- A new item's bytes go into the replay window; past 64 KiB the window no longer covers them (R231). -/
def State.fillWindow (s : State) (n : Nat) (g : StreamRun) (b : List Byte) : State :=
  if !g.d.replay then s
  else
    let sent := ((s.window n g).1.map (·.len)).foldl (· + ·) 0
    let total := sent + b.length
    if total ≤ 65536 then
      match s.replayWindow n g with
      | some a => s.sysWrite n (a + sent) b
      | none => s
    else if sent ≤ 65536 then (s.logPort g.who 0x030C (g.sdx + total * 2 ^ 8) 0 0 0).windowExceeded n g.who.ctx
    else s

/-- A read that a stream makes. -/
def State.itemRead (s : State) (g : StreamRun) (a : Agent) (l : List Piece) : ReadRes × State :=
  s.serveReads g.seq (.sopen { g := { pg := 0, pn := false }, d := 0, a := 0, b := 0, alc := 0, scp := 0, ord := .plain, md := 0, tix := 0, off := 0 })
    a l

/-- The rows of a tile that bad stretches of its image feed. -/
def Desc.badRowsOf (d : Desc) (bad : List (Nat × Nat)) : Word :=
  rowMask (fun r => (d.rowParts r).any fun p => bad.any fun b => decide (p.1 < b.1 + b.2 ∧ b.1 < p.1 + p.2)) d.rows

/-- An item's bytes as they have been read: its own, or those of the window with the rows that were poisoned. -/
structure ItemData where
  res : ReadRes
  rows : Word
  fresh : Bool

/-- Deliver an item whose bytes lie at `a`: a scalar as it is, a tile in granules of its own (R228). None while the tile store has no
granules for it; where no group of banks ever could, the stream ends (R229). -/
def State.deliverItem (s : State) (n k : Nat) (g : StreamRun) (a : Nat) (agent : Agent) (read : State → ItemData × State) : Option State :=
  let d := g.d
  let report (x : ReadRes) (s : State) : State :=
    match x.bad with
    | [] => s
    | b :: _ => s.logPort g.who 0x030E ((a + b.1) / 64 % 16) (a + b.1) 0 0
  let keep (x : ItemData) (bad : Word) (s : State) : State :=
    (if x.fresh then s.fillWindow n g x.res.bytes else s).keepItem n g { len := x.res.bytes.length, rows := bad, fail := false }
  if !d.tile then
    let (x, s) := read s
    let bad : Word := x.rows ||| (if x.res.bad.isEmpty then 0 else 1)
    let s := keep x bad (report x.res s)
    some ((s.bumpFree.sendItem n g (BitVec.ofNat 64 (ofBytes x.res.bytes)) (bad != 0)).nextItem n k g)
  else
    match s.allocTile n g.who.ctx 0 d.shape with
    | some (none, s) =>
      let s := s.logAt g.who 0x0205 d.shape.toNat 0 0 0
      let s := s.sendItem n g 0 true
      some (s.modPort n fun p => { p with gens := Tbl.erase p.gens k })
    | none => none
    | some (some w, s) =>
      let t := Desc.of w
      let (x, s) := read s
      let bad := x.rows ||| t.badRowsOf x.res.bad
      let s := report x.res s
      let s := keep x bad ((s.writeMem agent t.base x.res.bytes).setPoison t bad)
      some ((s.bumpFree.sendItem n g w (bad != 0)).nextItem n k g)

/-- An item that a replay sends again, from the window and not from memory (R231). -/
def State.replayItem (s : State) (n k : Nat) (g : StreamRun) (o : Nat) (x : WinItem) (agent : Agent) : State :=
  if x.fail then ((s.sendItem n g 0 true).keepItem n g x).nextItem n k g
  else
    match s.replayWindow n g with
    | none => s
    | some w =>
      let read (s : State) : ItemData × State :=
        let (q, s) := s.takeSeq
        let (r, s) := s.readRun (sysAgent n q) (w + o) x.len 64
        ({ res := r, rows := x.rows, fresh := false }, s)
      (s.deliverItem n k g (w + o) agent read).getD s

/-- An item's read has performed: what a later access must see (R72, R84). -/
def State.itemDone (s : State) (g : StreamRun) (a : Agent) : State :=
  let s := s.noteAfter a
  if g.alc = 0 then s.widenOwn a else s

/-- STREAM_ITEM: one item, and the end marker that follows it (R228). Its read has its turn among the accesses of its port (R71, R72, R81).
A miss parks it while the port has room (R216, R229); a tile store that refuses the tile ends the stream. -/
def execStreamItem (n k : Nat) (s : State) : Out :=
  match Tbl.get? (s.site n).port.gens k with
  | none => .next s
  | some g =>
    let d := g.d
    let va := d.itemVa g.off g.pos
    let len := d.itemBytes
    let acc := s.itemAcc g.who g.seq g.act g.alc g.deps d g.off g.pos (g.pos + 1)
    if 8 ≤ k ∨ g.parked ∨ s.sourcesStopped n g.who.ctx ∨ (g.beat = 0 ∧ 0 < s.duty n) then .next s
    else
      match s.replays n g with
      | some (o, x) => .next (s.replayItem n k g o x acc.g)
      | none =>
        if va < 0 ∨ (2 : Int) ^ 56 < va + len ∨ va % (if d.tile then 64 else len) ≠ 0 then
          let a := (BitVec.ofInt 64 va).toNat
          .next (s.failItem n k g 0x0304 a a)
        else
          let a := va.toNat
          let pages := pagesOf [(a, len)]
          let x := s.lookup n g.who.ctx .read pages
          match x.denied, x.missed with
          | some page, _ => .next (s.failItem n k g 0x0302 0 (Nat.max a (page * 2 ^ 21)))
          | none, _ :: _ =>
            if 256 ≤ s.parkedReqs n then .next s
            else
              let s := (s.count n 11).askWalks n g.who.asid g.who.ctx x.missed
              .next (s.modPort n fun p => { p with gens := Tbl.set p.gens k { g with parked := true, since := s.clk } })
          | none, [] =>
            let pieces := xlatPieces x.found a len
            if pieces.any s.mustWait ∨ !s.turnOf acc then .next s
            else
              let away := (pieces.filter s.away).map (·.dev)
              match pieces.findSome? fun p => (s.checkPiece .read 0xAA false p).map fun f => (p, f) with
              | some (p, f) =>
                .next (((s.podMet away).pieceFault n p f).failItem n k g f.1 f.2 (if f.1 = 0x030B then a else p.va))
              | none =>
                let code := s.hostFails pieces
                if code ≠ 0 then .next ((s.linkFault n 0x0907 code).failItem n k g 0x030B (peerDetail 0x0907) a)
                else
                  let read (s : State) : ItemData × State :=
                    let (r, s) := (s.hostAnswers pieces).itemRead g acc.g pieces
                    ({ res := r, rows := 0, fresh := true }, s.itemDone g acc.g)
                  .next (((s.touchExtents n g.who.ctx pages).deliverItem n k g a acc.g read).getD s)

/-- `sclose` at the port: the context's open stream stops after the item being generated, with one EOS; payload 1 when it was open
(R244). It waits while the item is parked, or while the `sopen` itself waits. None while it must wait. -/
def State.closeStream (s : State) (r : MemReq) (sdx : Nat) : Option State :=
  let n := r.who.site
  let p := (s.site n).port
  if p.sopens.any fun q => decide (q.id < r.id) && q.who.ctx == r.who.ctx &&
      (match q.ins with | .sopen m => m.md.toNat == sdx | _ => false) then none
  else
    match p.gens.find? fun g => g.2.who.ctx == r.who.ctx && g.2.sdx == sdx with
    | none => some (s.finishReq r 0 false [])
    | some (k, g) =>
      if g.parked then none
      else
        let ranks := (List.range 4).filter fun i => bit g.d.emask i
        let s := if ranks.isEmpty then s else s.sendMark n g (eosPayload ranks) g.itn
        let s := s.modPort n fun p => { p with gens := Tbl.erase p.gens k }
        some (s.finishReq r 1 false [])

end Sys2Proof.Machine
end

