-- ==== Sys2Proof/Machine/Launches.lean ====
section
/-! DEFINITION. Launches: their sites, records and replies of the pager, quiescence counters (R302, R303), and what is discarded or
freed of a context at a site (R126, R184, R235, R269, R312). -/
namespace Sys2Proof.Machine

/-! ### The launch table (R286) -/

def State.launch? (s : State) (h : Nat) : Option Launch := Tbl.get? s.pager.launches h

def State.modPager (s : State) (f : PagerState → PagerState) : State := { s with pager := f s.pager }

def State.setLaunch (s : State) (h : Nat) (l : Launch) : State :=
  s.modPager fun p => { p with launches := Tbl.set p.launches h l }

def State.modLaunch (s : State) (h : Nat) (f : Launch → Launch) : State :=
  match s.launch? h with
  | some l => s.setLaunch h (f l)
  | none => s

/-- The sites of a launch's rectangle at a base: column, row, and the I/O die of a system graph, in row-major order (R287). -/
def Launch.sitesAt (l : Launch) (b : Nat × Nat × Nat) : List Nat :=
  regionSites (if l.sys then 2048 + 16 * b.2.2 else 0) b.1 b.2.1 l.w l.h

def Launch.base0 (l : Launch) : Nat × Nat × Nat := (l.bx, l.by_, l.io)

def Launch.sites (l : Launch) : List Nat := l.sitesAt l.base0

/-- The sites of both copies of a twin. -/
def Launch.allSites (l : Launch) : List Nat := l.sites ++ (match l.twin with | some b => l.sitesAt b | none => [])

/-- The site of a region's position (dx, dy), if it lies in the region. -/
def Launch.siteIn (l : Launch) (b : Nat × Nat × Nat) (dx dy : Nat) : Option Nat :=
  if dx < l.w ∧ dy < l.h then some (siteNear (if l.sys then 2048 + 16 * b.2.2 else 0) (b.1 + dx) (b.2.1 + dy)) else none

/-- The launch holds its context slots (R293). -/
def State.resident (s : State) (h : Nat) (l : Launch) : Bool :=
  l.sites.any fun n => match s.slot? n l.ctx with | some k => k.handle == h | none => false

/-- Another launch of an ASID is resident (R92, R295). -/
def State.otherResident (s : State) (h asid : Nat) : Bool :=
  s.pager.launches.any fun p => p.1 != h && p.2.asid == asid && s.resident p.1 p.2

/-- The state code of R289. -/
def LState.code (x : LState) : Nat :=
  match x with
  | .placing => 0 | .idle => 1 | .running => 2 | .frozen => 3 | .evicted => 4 | .resuming => 5 | .containing => 6 | .failed => 7

/-- The image of a launch in the configuration cache. -/
def State.image (s : State) (l : Launch) : List Byte :=
  match Tbl.get? s.pager.cache l.imageKey with
  | some x => x.bytes
  | none => []

/-! ### Records and replies (R288, R319, R321) -/

/-- A fault that arises from a pager request: to the issuing context's ring. -/
def State.reqFault (s : State) (r : SysReq) (code detail : Nat) : State := s.logFault r.who code detail

/-- A fault that arises from a launch's run: to the launch's ring. -/
def State.launchFault (s : State) (l : Launch) (code detail : Nat) : State :=
  s.logFault { Who.zero with site := coordSite, ctx := l.ctx, asid := l.asid } code detail

/-- A fault of a launch's request goes to the issuing context's ring; one of its run to the launch's (R288). -/
def State.faultFor (s : State) (r : Option SysReq) (l : Launch) (code detail : Nat) : State :=
  match r with
  | some r => s.reqFault r code detail
  | none => s.launchFault l code detail

/-- A fault of a system engine that goes to context 7's ring. -/
def State.sysFault (s : State) (site code detail : Nat) : State :=
  s.logFault { Who.zero with site := site, ctx := 7, asid := s.asidOf coordSite 7 } code detail

/-- The reply of a group 6 request, sent by the engine at `site`. -/
def State.sysReply (s : State) (site : Nat) (r : SysReq) (v : Word) (psn : Bool) : State :=
  s.replyFrom site r.who.site r.target v (psn || r.psn) (r.seq :: r.deps) r.who.asid r.gen

/-- A request of the pager that fails: a record, then payload 0 and PSN 1. -/
def State.refuse (s : State) (r : SysReq) (code detail : Nat) : State :=
  (s.reqFault r code detail).sysReply coordSite r 0 true

/-- A reply for each request of a list. -/
def State.replyAll (s : State) (l : List SysReq) (v : Word) (psn : Bool) : State :=
  l.foldl (fun s r => s.sysReply coordSite r v psn) s

/-- A MEM write that the context committed earlier at the request's site has still to perform (R321). -/
def State.memWritesBefore (s : State) (r : SysReq) : Bool :=
  s.reqs.any fun q => q.ins.writes && q.who.site == r.who.site && q.who.ctx == r.who.ctx && q.who.asid == r.who.asid && decide (q.id < r.seq)

/-- What a system engine does for a request, as an access on path `p` at scope `sc`: it takes the activation's site and region (R74). -/
def State.sysReqAgent (s : State) (r : SysReq) (p sc : Nat) : Agent :=
  { path := p, site := r.who.site, ctx := r.who.ctx, asid := r.who.asid, seq := r.seq, act := r.act, deps := r.deps,
    obs := s.observers r.who.site r.who.ctx r.who.asid sc r.act }

/-- The release condition of R321: every earlier MEM write of the context at the site has performed at device scope. -/
def State.carryBefore (s : State) (r : SysReq) : State :=
  let g := s.sysReqAgent r 3 5
  s.carry ((s.mem.recs.filter fun w => w.who.sameCtx g && decide (w.who.seq < g.seq)).map (·.who.seq)) g.obs

/-! ### Counters (R302, R303) -/

def trapCtx (r : TrapRec) : Nat := wbits r.hdr 58 3

/-- LIVE of a context at a site. -/
def SeqUnit.live (q : SeqUnit) (c : Nat) : Nat :=
  (q.acts.filter fun a => a.2.ctx == c).length + (q.fireQ.filter fun f => f.tok.ctx.toNat == c).length +
  (q.retryQ.filter fun f => f.tok.ctx.toNat == c).length + (q.trapQ.filter fun r => trapCtx r == c).length

/-- REQ: memory requests, open streams and group requests. -/
def State.reqCount (s : State) (n c : Nat) : Nat :=
  let p := (s.site n).port
  (s.reqs.filter fun r => r.who.site == n && r.who.ctx == c).length + (p.gens.filter fun g => g.2.who.ctx == c).length +
  (p.sopens.filter fun r => r.who.ctx == c).length + (s.groupReqs.filter fun r => r.src == n && r.ctx == c).length

/-- TILE: tile operations, waiting allocations and tile returns. -/
def State.tileCount (s : State) (n c : Nat) : Nat :=
  let x := s.site n
  (x.tile.queue.filter fun o => o.who.ctx == c).length + (x.mx.queue.filter fun o => o.who.ctx == c).length +
  (x.tile.waiting.filter fun r => r.who.ctx == c).length + (s.handleReqs.filter fun r => r.src == n && r.ctx == c).length

def Counters.zero : Counters := { sent := 0, recv := 0, eos4 := 0 }

def State.counters (s : State) (n c : Nat) : Counters := Tbl.getD (s.site n).counts c Counters.zero

/-- What a wave reads: ΣSENT, ΣRECV, ΣLIVE, ΣREQ, ΣTILE, ΣEOS4. -/
structure Sums where
  sent : Nat
  recv : Nat
  live : Nat
  req : Nat
  tile : Nat
  eos4 : Nat
  deriving DecidableEq, Repr

def State.sums (s : State) (c : Nat) (sites : List Nat) : Sums :=
  sites.foldl
    (fun t n =>
      let k := s.counters n c
      { sent := t.sent + k.sent, recv := t.recv + k.recv, live := t.live + (s.site n).seq.live c, req := t.req + s.reqCount n c,
        tile := t.tile + s.tileCount n c, eos4 := t.eos4 + k.eos4 })
    { sent := 0, recv := 0, live := 0, req := 0, tile := 0, eos4 := 0 }

/-- A wave finds the region still; `withReq` is off while a freeze is confirmed (R303, R307). -/
def Sums.still (t : Sums) (withReq : Bool) : Bool :=
  t.sent == t.recv && t.live == 0 && t.tile == 0 && (!withReq || t.req == 0)

/-- Parked operands of a context at a site. -/
def State.parkedIn (s : State) (n c : Nat) : Nat :=
  ((s.site n).seq.frames.map fun p => if p.2.owner = c then s.parked n p.1 p.2.cls else 0).foldl (· + ·) 0

/-! ### Freeing and discarding a context at a site -/

/-- Every frame of the context goes back to its origin (R126). -/
def State.freeFrames (s : State) (n c : Nat) : State :=
  ((s.site n).seq.frames.filter fun p => p.2.owner == c).foldl (fun s p => s.returnFrame n p.1) s

/-- Every tile of the context is freed (R308, R312). -/
def State.freeTiles (s : State) (n c : Nat) : State :=
  s.modTile n fun u => (u.tiles.filter fun t => t.2.owner == c).foldl (fun u t => u.free t.1) u

/-- Operations of a context that have not started leave a queue; those that have started send no completion (R184, R269). -/
def dropOps (l : List TileOp) (c : Nat) : List TileOp :=
  (l.filter fun o => o.who.ctx != c || o.started).map fun o => if o.who.ctx = c then { o with target := none } else o

def FreezeFor.mapReq (w : FreezeFor) (f : SysReq → SysReq) : FreezeFor :=
  match w with
  | .freeze r => .freeze (r.map f)
  | .vacate r => .vacate (r.map f)
  | .cut r => .cut (r.map f)
  | .fault => .fault
  | .power => .power
  | .stop => .stop

/-- The replies of a context's requests at a site are discarded. -/
def muteSys (n c : Nat) (r : SysReq) : SysReq := if r.who.site = n ∧ r.who.ctx = c then { r with target := none } else r

/-- Change every request that an engine holds. -/
def State.mapEngines (s : State) (f : SysReq → SysReq) : State :=
  { s with
    pager := { s.pager with
      queue := s.pager.queue.map f
      waiting := s.pager.waiting.map fun w => { w with req := w.req.map f }
      launches := s.pager.launches.map fun p =>
        let why := p.2.freeze.map fun z => { z with why := z.why.mapReq f }
        (p.1, { p.2 with replies := p.2.replies.map f, behind := p.2.behind.map f, freeze := why }) }
    coll := { s.coll with
      queue := s.coll.queue.map f
      groups := s.coll.groups.map fun g =>
        { g with waiting := g.waiting.map fun o => { o with req := f o.req }, cur := g.cur.map fun o => { o with req := f o.req } } }
    xp := { s.xp with
      disp := s.xp.disp.map f, other := s.xp.other.map f, grafts := s.xp.grafts.map f, verWait := s.xp.verWait.map f
      cur := s.xp.cur.map fun d => { d with req := f d.req }
      graft := s.xp.graft.map fun g => { g with req := f g.req }
      reps := s.xp.reps.map fun p => (p.1, { p.2 with drainReq := p.2.drainReq.map f }) }
    rcv := { s.rcv with
      queue := s.rcv.queue.map f
      roll := s.rcv.roll.map fun l => l.map f
      owed := s.rcv.owed.map fun x => (f x.1, x.2)
      sealing := s.rcv.sealing.map fun x => { x with req := f x.req } }
    obs := { s.obs with queue := s.obs.queue.map f, walks := s.obs.walks.map fun w => { w with req := f w.req } }
    pkg := { s.pkg with unanswered := s.pkg.unanswered.map fun x => (x.1, f x.2) } }

def State.muteEngines (s : State) (n c : Nat) : State := s.mapEngines (muteSys n c)

/-- Containment at one site: the context's tokens, parked operands, queued operations and parked requests go, its frames and tiles
are freed, and later replies find no target (R126, R184, R235, R269, R312 step 2). -/
def State.discardAt (s : State) (n c : Nat) : State :=
  let mine (w : Who) : Bool := w.site == n && w.ctx == c
  let lost (r : MemReq) : Bool := mine r.who && (match r.phase with | .parked .. => true | _ => false)
  let mute (r : MemReq) : MemReq := if mine r.who then { r with target := none } else r
  let muteHandle (r : HandleReq) : HandleReq := if r.src = n ∧ r.ctx = c then { r with target := none } else r
  let rewind (w : Nat × List WinItem × Nat) : Nat × List WinItem × Nat := if w.1 / 32 = c then (w.1, w.2.1, 0) else w
  let s := { s with
    mesh := s.mesh.filter fun f => !(f.dst == n && f.tok.ctx.toNat == c)
    groupReqs := s.groupReqs.filter fun r => !(r.src == n && r.ctx == c)
    handleReqs := s.handleReqs.map muteHandle
    reqs := (s.reqs.filter fun r => !lost r).map mute }
  let asid := s.asidOf n c
  let s := (s.muteEngines n c).modSeq n fun q =>
    { q with
      acts := q.acts.filter fun a => a.2.ctx != c
      ready := q.ready.filter fun k => match Tbl.get? q.acts k with | some a => a.ctx != c | none => false
      fireQ := q.fireQ.filter fun f => f.tok.ctx.toNat != c
      retryQ := q.retryQ.filter fun f => f.tok.ctx.toNat != c
      trapQ := q.trapQ.filter fun r => trapCtx r != c
      allocQ := q.allocQ.filter fun r => r.ctx != c
      groups := q.groups.filter fun g => !(g.2.asid == asid && g.2.ctx == c)
      halt := false }
  let s := s.modPort n fun p =>
    { p with
      gens := p.gens.filter fun g => g.2.who.ctx != c
      sopens := p.sopens.filter fun r => r.who.ctx != c
      wins := p.wins.map rewind }
  let s := s.modTile n fun u =>
    { u with queue := dropOps u.queue c, waiting := u.waiting.filter fun r => r.who.ctx != c }
  let s := s.modMx n fun m =>
    let m := { m with queue := dropOps m.queue c }
    if m.owner = some c then (if m.claim then { m with void := true } else { m with core := MxCore.reset }) else m
  let s := s.modCtx n c fun k => { k with captured := [], stopped := [], frozen := false, csw := false }
  let s := s.modSite n fun x => { x with counts := Tbl.erase x.counts c }
  (s.freeFrames n c).freeTiles n c

/-- The pager's part of a migrating or translating context is dropped with it: walks asked for. -/
def State.dropWalks (s : State) (n c : Nat) : State :=
  s.modPager fun p => { p with walks := p.walks.filter fun w => !(w.1 == n && w.2.2.1 == c) }

end Sys2Proof.Machine
end

