-- ==== Sys2Proof/Machine/CollMath.lean ====
section
/-! DEFINITION. The collective engine's tables and arithmetic: links and trees (R332, R334), descriptors (R335, R336), planes (R337),
contributions, combining and results (R340 to R342). -/
namespace Sys2Proof.Machine

/-! ### Links and trees (R332, R334) -/

/-- The two devices of a link id, and the ports at them. -/
def linkLo (l : Nat) : Nat := l / 2 ^ 22 % 4096
def linkHi (l : Nat) : Nat := l / 2 ^ 5 % 4096
def linkPortAt (l dev : Nat) : Nat := if linkLo l = dev then l / 2 ^ 17 % 32 else l % 32

/-- The device at the other end. -/
def linkOther (l dev : Nat) : Nat := if linkLo l = dev then linkHi l else linkLo l

def linkAt (l dev : Nat) : Bool := linkLo l == dev || linkHi l == dev

/-- Is an entry of the table bad, after the entry before it (R332)? -/
def badLink (before : Option Nat) (e : Nat) : Bool :=
  decide (2 ^ 34 ≤ e) || decide (e % 2 ^ 17 ≤ e / 2 ^ 17) || linkLo e == linkHi e ||
  decide (17 < e / 2 ^ 17 % 32) || decide (17 < e % 32) || (match before with | some b => decide (e ≤ b) | none => false)

/-- A tree in the making: its links in adding order, the unused links, the devices in it, the queue. -/
structure TreeGo where
  tree : List Nat
  unused : List Nat
  ins : List Nat
  q : List Nat
  deriving DecidableEq, Repr

/-- Every unused link of `u`, in rising link id, adds a device that is not in the tree. -/
def TreeGo.visit (t : TreeGo) (u : Nat) : TreeGo :=
  (t.unused.filter (linkAt · u)).foldl
    (fun t l =>
      let v := linkOther l u
      if t.ins.contains v then t
      else { tree := t.tree ++ [l], unused := t.unused.filter (· ≠ l), ins := t.ins ++ [v], q := t.q ++ [v] })
    t

def TreeGo.run (t : TreeGo) (fuel : Nat) : TreeGo :=
  match fuel, t.q with
  | 0, _ => t
  | _, [] => t
  | fuel + 1, u :: q => TreeGo.run ({ t with q := q }.visit u) fuel

/-- pack of R334: up to 16 trees. -/
def packFrom (members unused : List Nat) (fuel : Nat) : List (List Nat) :=
  match fuel with
  | 0 => []
  | fuel + 1 =>
    let root := members.headD 0
    let t := TreeGo.run { tree := [], unused := unused, ins := [root], q := [root] } (members.length + 1)
    if t.ins.length = members.length then t.tree :: packFrom members t.unused fuel else []

def pack (members links : List Nat) : List (List Nat) :=
  packFrom members (links.filter fun l => members.contains (linkLo l) && members.contains (linkHi l)) 16

/-- The edges of a tree: child, parent and link, in adding order. -/
def treeEdges (root : Nat) (tree : List Nat) : List (Nat × Nat × Nat) :=
  (tree.foldl
    (fun (a : List Nat × List (Nat × Nat × Nat)) l =>
      let (u, v) := if a.1.contains (linkLo l) then (linkLo l, linkHi l) else (linkHi l, linkLo l)
      (a.1 ++ [v], a.2 ++ [(v, u, l)]))
    ([root], [])).2

/-- A device's parent in a tree, with the link; none at the root. -/
def treeParent (root : Nat) (tree : List Nat) (me : Nat) : Option (Nat × Nat) :=
  ((treeEdges root tree).find? (·.1 == me)).map (·.2)

/-- Insert by rising first component. -/
def insertBy (x : Nat × Nat) (l : List (Nat × Nat)) : List (Nat × Nat) :=
  match l with
  | [] => [x]
  | y :: r => if x.1 ≤ y.1 then x :: y :: r else y :: insertBy x r

/-- A device's children in a tree, by rising device number, with their links. -/
def treeKids (root : Nat) (tree : List Nat) (me : Nat) : List (Nat × Nat) :=
  ((treeEdges root tree).filter (·.2.1 == me)).foldr (fun e l => insertBy (e.1, e.2.2) l) []

/-! ### Descriptors (R335, R336) -/

/-- The fields of a collective descriptor. -/
structure CollDesc where
  src : Nat
  sscl : Nat
  dst : Nat
  marks : Nat
  aux : Nat
  count : Nat
  inef : Nat
  flags : Nat
  outef : Nat
  mode : Nat
  rnd : Nat
  top : Nat
  anchor : Int
  root : Nat
  deriving DecidableEq, Repr

def CollDesc.of (l : List Byte) : CollDesc :=
  let m := field l 0x2F 1
  { src := field l 0 8, sscl := field l 8 8, dst := field l 0x10 8, marks := field l 0x18 8, aux := field l 0x20 8,
    count := field l 0x28 4, inef := field l 0x2C 1, flags := field l 0x2D 1, outef := field l 0x2E 1, mode := m % 4, rnd := m / 4 % 8,
    top := m / 32, anchor := (BitVec.ofNat 16 (field l 0x30 2)).toInt, root := field l 0x32 2 }

/-- The digest of R330; FN counts as one byte. -/
def collDigest (fn : Nat) (l : List Byte) : Nat := crc64 (toBytes fn 1 ++ slice l 0x28 12)

/-- The EF of a code; the checks of R336 have passed where it is used. -/
def efOf (code : Nat) : EF := (EF.ofCode code).getD .i8

def rndOf (code : Nat) : Rnd := (Rnd.ofCode (BitVec.ofNat 3 code)).getD .rne

def isPlainFloat (code : Nat) : Bool :=
  match EF.ofCode code with
  | some .f16 | some .bf16 | some .f32 => true
  | _ => false

/-- May CR_INEF be block-scaled (R336)? -/
def isBlockFormat (code : Nat) : Bool :=
  match EF.ofCode code with
  | some .i8 | some .n8 | some .i4 | some .n4 | some (.b8 ..) | some .f4x => true
  | _ => false

def CollDesc.bs (d : CollDesc) : Bool := d.flags % 2 == 1

/-- The first bad field of a descriptor, by its offset (R335, R336, R351). -/
def CollDesc.badField (d : CollDesc) (raw : List Byte) (fn me : Nat) (members : List Nat) : Option Nat :=
  let sums := decide (fn < 2)
  let n := members.length
  let inOk :=
    if sums then
      if d.mode = 2 then EF.ofCode d.inef == some .i64 && !d.bs
      else if d.bs then isBlockFormat d.inef else isPlainFloat d.inef
    else (EF.ofCode d.inef).isSome && !d.bs
  let outOk := if sums then isPlainFloat d.outef || (d.mode == 2 && EF.ofCode d.outef == some .i64 && d.rnd == 0) else d.outef == d.inef
  let modeOk := if sums then decide (d.mode < 3) else d.mode == 0 && d.rnd == 0
  let parts := fn == 1 || fn == 2
  let checks : List (Nat × Bool) :=
    [(0x00, d.src % 8 == 0 && !(fn == 3 && d.root != me && d.src != 0)),
     (0x08, d.sscl % 8 == 0 && (d.bs || d.sscl == 0)),
     (0x10, d.dst % 8 == 0),
     (0x18, d.marks % 8 == 0),
     (0x20, d.aux % 8 == 0 && (d.mode == 1 || d.aux == 0)),
     (0x28, decide (1 ≤ d.count ∧ d.count ≤ 2 ^ 31) && (!parts || d.count % n == 0)),
     (0x2C, inOk),
     (0x2D, decide (d.flags < 2)),
     (0x2E, outOk),
     (0x2F, modeOk && d.top == 0 && d.rnd != 5 && d.rnd != 7),
     (0x30, d.mode == 2 || d.anchor == 0),
     (0x32, if fn = 3 then members.contains d.root else d.root == 0),
     (0x34, (slice raw 0x34 12).all (· == 0))]
  (checks.find? fun c => !c.2).map (·.1)

/-- The widths of a source and a destination element, in bits. -/
def CollDesc.w (d : CollDesc) : Nat := (efOf d.inef).width
def CollDesc.wo (d : CollDesc) : Nat := (efOf d.outef).width

/-- Elements of a chunk, chunks, and bits of the bitmap (R338). -/
def CollDesc.e (d : CollDesc) : Nat := 524288 / d.w
def CollDesc.nch (d : CollDesc) : Nat := ceilDiv d.count d.e
def CollDesc.nbits (d : CollDesc) : Nat := if d.mode = 1 then 2 * d.nch else d.nch

def CollDesc.markBytes (d : CollDesc) : Nat := ceilDiv (2 * d.nch) 64 * 8

/-- The source elements that participant `me` holds, and the elements it receives (R337), as first element and count. -/
def CollDesc.own (d : CollDesc) (fn me : Nat) (members : List Nat) : Nat × Nat :=
  let s := d.count / members.length
  let i := members.idxOf me
  if fn = 2 then (i * s, s) else if fn = 3 then (0, if d.root = me then d.count else 0) else (0, d.count)

def CollDesc.takes (d : CollDesc) (fn me : Nat) (members : List Nat) : Nat × Nat :=
  let s := d.count / members.length
  if fn = 1 then (members.idxOf me * s, s) else (0, d.count)

/-- The ranges of an operation: descriptor offset, VA, length, and whether it is written (R336). -/
def CollDesc.ranges (d : CollDesc) (fn me : Nat) (members : List Nat) : List (Nat × Nat × Nat × Bool) :=
  [(0x00, d.src, ceilDiv ((d.own fn me members).2 * d.w) 8, false),
   (0x08, d.sscl, if d.bs then ceilDiv d.count 24 * 2 else 0, false),
   (0x10, d.dst, ceilDiv ((d.takes fn me members).2 * d.wo) 8, true),
   (0x18, d.marks, d.markBytes, true),
   (0x20, d.aux, if d.mode = 1 then ceilDiv d.count 24 * 2 else 0, true)].filter fun r => r.2.2.1 != 0

/-- The later one of two ranges that overlap, by its descriptor offset. -/
def overlapOf (l : List (Nat × Nat × Nat × Bool)) : Option Nat :=
  match l with
  | [] => none
  | r :: rest =>
    match rest.find? fun q => decide (r.2.1 < q.2.1 + q.2.2.1 ∧ q.2.1 < r.2.1 + r.2.2.1) with
    | some q => some q.1
    | none => overlapOf rest

/-! ### Planes (R337) -/

/-- `n` codes of a plane from element `e0`, of the bytes that start at byte ⌊e0·w/8⌋. -/
def planeCodes (w e0 n : Nat) (l : List Byte) : List Nat :=
  (List.range n).map fun i =>
    let bit := (e0 + i) * w - e0 * w / 8 * 8
    if w = 4 then field l (bit / 8) 1 / 2 ^ (bit % 8) % 16 else field l (bit / 8) (w / 8)

/-- The bytes of a plane stretch that starts at a byte boundary: codes, with `last` as the upper half of a half-filled last byte. -/
def planeBytes (w : Nat) (codes : List Nat) (last : Byte) : List Byte :=
  if w = 4 then
    (List.range (ceilDiv codes.length 2)).map fun i =>
      BitVec.ofNat 8 (codes.getD (2 * i) 0 % 16 + (match codes[2 * i + 1]? with | some c => c % 16 | none => last.toNat / 16) * 16)
  else codes.flatMap fun c => toBytes c (w / 8)

/-! ### Values (R340 to R342) -/

def collEmpty : CollVal := { s := 0, nan := true, pos := false, neg := false, psn := false }

def collCode (c : Nat) (psn : Bool) : CollVal := { s := c, nan := false, pos := false, neg := false, psn := psn }

/-- The f32 code of a contribution in fast mode (R340). -/
def fastVal (v : Val) (psn : Bool) : CollVal := collCode (roundCode .f32 .rne false 0 v).1 psn

/-- to_fixed of R341: the anchor is absent where the block holds no finite non-zero element. -/
def toFixed (v : Val) (e : Option Int) (psn : Bool) : CollVal :=
  match v with
  | .nan => { s := 0, nan := true, pos := false, neg := false, psn := psn }
  | .inf neg => { s := 0, nan := false, pos := !neg, neg := neg, psn := psn }
  | .fin .. =>
    let q : Int := match e with | some e => (v.rat / pow2 (e - 50)).floor | none => 0
    { s := q, nan := false, pos := false, neg := false, psn := psn }

/-- A raw accumulator code (R342). -/
def rawVal (c : Nat) (psn : Bool) : CollVal :=
  if c = 0x8000000000000000 then { s := 0, nan := true, pos := false, neg := false, psn := psn }
  else if c = 0x7FFFFFFFFFFFFFFF then { s := 0, nan := false, pos := true, neg := false, psn := psn }
  else if c = 0x8000000000000001 then { s := 0, nan := false, pos := false, neg := true, psn := psn }
  else { s := (BitVec.ofNat 64 c).toInt, nan := false, pos := false, neg := false, psn := psn }

/-- The largest exponent of a block's finite non-zero elements (R341). -/
def blockExp (vs : List Val) : CollVal :=
  vs.foldl
    (fun (a : CollVal) v =>
      match v with
      | .fin _ m => if m = 0 then a else if a.nan || decide (a.s < ilog2 m) then { collEmpty with s := ilog2 m, nan := false } else a
      | _ => a)
    collEmpty

/-- How two contributions of one element combine. -/
inductive Combine where
  | fast | exact | max | copy
  deriving DecidableEq, Repr

def Combine.of (d : CollDesc) (fn : Nat) (pass1 : Bool) : Combine :=
  if pass1 then .max else if 2 ≤ fn then .copy else if d.mode = 0 then .fast else .exact

def collJoin (k : Combine) (a b : CollVal) : CollVal :=
  let psn := a.psn || b.psn
  match k with
  | .fast =>
    let r := f32add (codeVal .f32 a.s.toNat, Exc.none) (codeVal .f32 b.s.toNat, Exc.none)
    collCode (valCode .f32 r.1) psn
  | .exact => { s := a.s + b.s, nan := a.nan || b.nan, pos := a.pos || b.pos, neg := a.neg || b.neg, psn := psn }
  | .max => if b.nan then a else if a.nan || decide (a.s < b.s) then b else a
  | .copy => { (if a.nan then b else a) with psn := psn }

def joinLists (k : Combine) (a b : List CollVal) : List CollVal :=
  match a, b with
  | x :: a, y :: b => collJoin k x y :: joinLists k a b
  | a, [] => a
  | [], _ => []

/-- The root's result of one element: its code, and INV and OVF (R340 to R342). -/
def collResult (d : CollDesc) (fn : Nat) (e : Option Int) (v : CollVal) : Nat × Exc :=
  let ef := efOf d.outef
  let rnd := rndOf d.rnd
  let raw := d.mode == 2 && ef == .i64
  let put (x : Val) : Nat × Exc := roundCode ef rnd false 0 x
  if 2 ≤ fn then (v.s.toNat, Exc.none)
  else if d.mode = 0 then put (codeVal .f32 v.s.toNat)
  else if v.nan || (v.pos && v.neg) then (if raw then 0x8000000000000000 else (put .nan).1, { inv := true })
  else if v.pos then if raw then (0x7FFFFFFFFFFFFFFF, Exc.none) else put (.inf false)
  else if v.neg then if raw then (0x8000000000000001, Exc.none) else put (.inf true)
  else if raw then
    if (2 : Int) ^ 63 - 1 ≤ v.s then (0x7FFFFFFFFFFFFFFF, { ovf := true })
    else if v.s ≤ 1 - (2 : Int) ^ 63 then (0x8000000000000001, { ovf := true })
    else ((BitVec.ofInt 64 v.s).toNat, Exc.none)
  else if v.s = 0 then put (.fin false 0)
  else
    let k : Int := if d.mode = 2 then d.anchor - 51 else e.getD 0 - 50
    put (Val.ofRat ((v.s : Rat) * pow2 k))

end Sys2Proof.Machine
end

