-- ==== Sys2Proof/Machine/Ranges.lean ====
section
/-! DEFINITION. How the system engines reach a context's memory: ranges translated by the pager's walks (R336, R363), reads and writes
through them on an engine's own path, and when a request may be taken. -/
namespace Sys2Proof.Machine

/-- The table key of a request: its ASID, or context 7's own. -/
def State.reqKey (s : State) (r : SysReq) : Nat :=
  s.linkKey r.who.ctx r.who.asid

/-- Translate the parts of a range, each within one page: its pages, or the first VA that does not translate to one of the types with
the permission. -/
def State.mapParts (s : State) (site key : Nat) (typs : List Nat) (w : Bool) (l : List (Nat × Nat)) : Except Nat (List Xlat) × State :=
  match l with
  | [] => (.ok [], s)
  | p :: rest =>
    if 2 ^ 56 ≤ p.1 ∨ (s.binding? key).isNone then (.error p.1, s)
    else
      let (x, s) := s.walk site key p.1
      match x with
      | .leaf x =>
        if typs.contains x.typ && (if w then x.w else x.r) && !(x.typ == 0 && inCellarRange s.rcv (x.frame * 2 ^ 21)) then
          let (y, s) := s.mapParts site key typs w rest
          match y with
          | .ok l => (.ok (x :: l), s)
          | .error a => (.error a, s)
        else (.error p.1, s)
      | _ => (.error p.1, s)

/-- Translate a range of a request. -/
def State.mapRange (s : State) (r : SysReq) (typs : List Nat) (w : Bool) (va n : Nat) : Except Nat (List Xlat) × State :=
  s.mapParts r.who.site (s.reqKey r) typs w (cut (2 ^ 21) va n)

/-- An engine's access on behalf of a request, at device scope (R347, R369). -/
def State.reqAgent (s : State) (path : Nat) (r : SysReq) : Agent := s.sysReqAgent r path 5

def State.readRange (s : State) (path : Nat) (r : SysReq) (x : List Xlat) (va n : Nat) : ReadRes × State :=
  s.readPieces (s.reqAgent path r) (xlatPieces x va n)

def State.writePieces (s : State) (g : Agent) (l : List Piece) (b : List Byte) : State :=
  match l with
  | [] => s
  | p :: r => (s.writePiece g p (b.take p.len)).writePieces g r (b.drop p.len)

def State.writeRange (s : State) (path : Nat) (r : SysReq) (x : List Xlat) (va : Nat) (b : List Byte) : State :=
  s.writePieces (s.reqAgent path r) (xlatPieces x va b.length) b

/-- Read a stretch of a plane (R337): codes, each with whether it is damaged, and the VA of the first damaged line. -/
def State.readPlane (s : State) (path : Nat) (r : SysReq) (x : List Xlat) (va w e0 n : Nat) : List (Nat × Bool) × Option Nat × State :=
  let b0 := e0 * w / 8
  let (l, s) := s.readRange path r x (va + b0) (ceilDiv ((e0 + n) * w) 8 - b0)
  let bad (i : Nat) : Bool :=
    let lo := (e0 + i) * w / 8 - b0
    let hi := ceilDiv ((e0 + i + 1) * w) 8 - b0
    l.bad.any fun x => decide (x.1 < hi ∧ lo < x.1 + x.2)
  ((planeCodes w e0 n l.bytes).zipIdx.map fun p => (p.1, bad p.2), l.bad.head?.map fun x => va + b0 + x.1, s)

/-- Set the poison markers of the HBM lines that pieces touch (R344, R368). -/
def State.poisonLines (s : State) (l : List Piece) : State :=
  l.foldl (fun (s : State) q => { s with mem := { s.mem with lines := Tbl.set s.mem.lines (s.routed q.pa / 64) Mark.poison } }) s

/-- A request may be taken: no fence holds accesses of its path, its own implied fence among them (R81, R347, R369). -/
def State.engineReady (s : State) (path : Nat) (r : SysReq) : Bool :=
  !s.fenced path r.who.site r.who.ctx r.who.asid r.seq && !(s.fences.any (·.seq == r.seq))

end Sys2Proof.Machine
end

