-- ==== Sys2Proof/Machine/Collective.lean ====
section
/-! DEFINITION. The collective engine: groups (R329), operations (R330, R335 to R346), messages (R331, R333, R339), adoption of a link
table (R333, R345), stalls (R350), and the requests of R352 to R355. -/
namespace Sys2Proof.Machine

/-! ### Groups -/

/-- The site of an engine's register block (R350). -/
def collSite (e : Nat) : Nat := 2048 + 16 * e

def State.modColl (s : State) (f : CollState → CollState) : State := { s with coll := f s.coll }

def State.collGroup? (s : State) (asid gtag : Nat) : Option CollGroup :=
  s.coll.groups.find? fun g => g.asid == asid && g.gtag == gtag

def State.setCGroup (s : State) (g : CollGroup) : State :=
  s.modColl fun c => { c with groups := c.groups.map fun x => if x.asid = g.asid ∧ x.gtag = g.gtag then g else x }

/-- The group's current or last operation is replaced, by its number. -/
def CollGroup.putOp (g : CollGroup) (o : CollOp) : CollGroup :=
  if o.done then { g with past := some o } else { g with cur := some o }

def CollGroup.root (g : CollGroup) : Nat := g.members.headD 0

def CollGroup.tree (g : CollGroup) (t : Nat) : List Nat := g.trees.getD t []

def State.collKids (s : State) (g : CollGroup) (t : Nat) : List (Nat × Nat) := treeKids g.root (g.tree t) s.link.devno

def State.collParent (s : State) (g : CollGroup) (t : Nat) : Option (Nat × Nat) := treeParent g.root (g.tree t) s.link.devno

/-- Every tree neighbour, with a link to it. -/
def State.collNear (s : State) (g : CollGroup) : List (Nat × Nat) :=
  ((List.range g.trees.length).flatMap fun t =>
    s.collKids g t ++ (match s.collParent g t with | some p => [p] | none => [])).foldl
    (fun a p => if a.any fun q => q.1 == p.1 then a else a ++ [p]) []

/-- A COLL message leaves on a port, and is not acknowledged yet; a port that is down loses it (R404). -/
def State.collOut (s : State) (dev p : Nat) (m : CollMsg) : State :=
  let k := dev * 8 + 4
  let num := Tbl.getD s.link.sentNum k 0
  if (s.link.ports.getD p PortState.reset).up then
    { s with
      link := { s.link with
        sentNum := Tbl.set s.link.sentNum k (num + 1)
        unacked := s.link.unacked ++ [{ dev := dev, cls := 4, num := num, port := some p, msg := .coll dev p m }] }
      out := s.out ++ [.pod dev 4 num p (.coll dev p m)] }
  else s

/-- Send a message on the port of a tree edge (R406). -/
def State.collSend (s : State) (g : CollGroup) (num dev link : Nat) (kind : CollKind) (data : List CollVal) : State :=
  let me := s.link.devno
  let m : CollMsg := { src := me, gtag := g.gtag, key := g.key, op := num, ver := s.coll.ltVer.toNat, kind := kind, data := data }
  s.collOut dev (linkPortAt link me) m

/-- Tell every other participant that this device has issued an operation (R330). -/
def State.collIssue (s : State) (g : CollGroup) (o : CollOp) : State :=
  let me := s.link.devno
  (g.members.filter (· ≠ me)).foldl
    (fun s dev =>
      let m : CollMsg :=
        { src := me, gtag := g.gtag, key := g.key, op := o.num, ver := s.coll.ltVer.toNat,
          kind := .issue (collDigest o.fn o.desc) o.earlier, data := [] }
      let l := s.portsTo dev
      let s := s.podMet [dev]
      match l with
      | p :: _ => s.collOut dev p m
      | [] => s)
    s

/-! ### Memory of an operation (R337, R344) -/

/-- 0x0608 for a damaged source read. -/
def State.collDamaged (s : State) (o : CollOp) (bad : Option Nat) : State :=
  match bad with
  | some va => s.logFault o.req.who 0x0608 va
  | none => s

/-- Source codes as they stand. -/
def State.collCodes (s : State) (o : CollOp) (d : CollDesc) (e0 n : Nat) : List (Nat × Bool) × State :=
  let (l, bad, s) := s.readPlane 4 o.req o.xl d.src d.w e0 n
  (l.map fun p => (p.1, p.2 || o.req.psn), s.collDamaged o bad)

/-- Exact source values, read through scaled() when block-scaled (R340). -/
def State.collVals (s : State) (o : CollOp) (d : CollDesc) (e0 n : Nat) : List (Val × Bool) × State :=
  let ef := efOf d.inef
  let (l, bad, s) := s.readPlane 4 o.req o.xl d.src d.w e0 n
  let l := l.map fun p => (p.1, p.2 || o.req.psn)
  if d.bs then
    let q := e0 / 24
    let (sc, bad2, s) := s.readPlane 4 o.req o.xl d.sscl 16 q (ceilDiv (e0 + n) 24 - q)
    (l.zipIdx.map fun p =>
       let k := sc.getD ((e0 + p.2) / 24 - q) (0, false)
       ((scaled ef p.1.1 k.1 [] 0).1, p.1.2 || k.2),
     s.collDamaged o (bad.or bad2))
  else (l.map fun p => (codeVal ef p.1, p.2), s.collDamaged o bad)

/-- Write bytes of the bitmap, AUX or the destination. -/
def State.collWrite (s : State) (o : CollOp) (va : Nat) (l : List Byte) : State :=
  if o.done then s else s.writeRange 4 o.req o.xl va l

/-- The bitmap's bytes from byte `i` on. -/
def markBytesAt (marks : List Bool) (i n : Nat) : List Byte :=
  (List.range n).map fun k => BitVec.ofNat 8 (((List.range 8).map fun j => b2n (marks.getD ((i + k) * 8 + j) false) * 2 ^ j).foldl (· + ·) 0)

/-- Set a mark, here and in the bitmap (R338, R339). -/
def State.collMark (s : State) (o : CollOp) (d : CollDesc) (b : Nat) : State × CollOp :=
  let o := { o with marks := listUpd o.marks b fun _ => true }
  (s.collWrite o (d.marks + b / 8) (markBytesAt o.marks (b / 8) 1), o)

/-- INV, OVF and poison of the output lines that a down message carries (R339). -/
structure LineFlags where
  inv : List Bool
  ovf : List Bool
  psn : List Bool
  deriving DecidableEq, Repr

/-- Does one of the lines that `n` bytes from `off` touch carry the flag? -/
def lineAny (l : List Bool) (off n : Nat) : Bool := (List.range ((off + n - 1) / 64 - off / 64 + 1)).any fun i => l.getD (off / 64 + i) false

/-- Write destination bytes line by line under R344; `off` is where they start in the chunk's output. -/
def State.collDeliver (s : State) (e : Nat) (o : CollOp) (va off : Nat) (l : List Byte) (f : LineFlags) : State × CollOp :=
  if o.done then (s, o)
  else
    let c := o.req.who.ctx
    (cut 64 va l.length).foldl
      (fun (x : State × CollOp) p =>
        let (s, o) := x
        let at_ := off + (p.1 - va)
        let inv := lineAny f.inv at_ p.2
        let ovf := lineAny f.ovf at_ p.2
        let psn := lineAny f.psn at_ p.2
        let raise (on : Bool) (k : Nat) : BitVec 32 := if on && policy o.req.exc k == 1 then BitVec.ofNat 32 (2 ^ (4 * c + k)) else 0
        let s := s.modColl fun q => { q with sticky := listUpd q.sticky e fun v => v ||| raise inv 0 ||| raise ovf 1 }
        let bad := psn || (inv && policy o.req.exc 0 == 2) || (ovf && policy o.req.exc 1 == 2)
        let b := slice l (p.1 - va) p.2
        let pieces := xlatPieces o.xl p.1 p.2
        let tile := pieces.any (·.typ == 2)
        let s := if bad && tile then s else s.writePieces (s.reqAgent 4 o.req) pieces b
        let s := if bad && !tile then s.poisonLines pieces else s
        (s, { o with inv := o.inv || inv, ovf := o.ovf || ovf, pois := o.pois || psn, psn := o.psn || bad }))
      (s, o)

/-! ### Chunks (R338 to R342) -/

/-- The elements of a chunk: the first, and one past the last. -/
def CollDesc.chunk (d : CollDesc) (c : Nat) : Nat × Nat := (c * d.e, Nat.min ((c + 1) * d.e) d.count)

/-- The blocks whose first element lies in the chunk. -/
def CollDesc.blocks (d : CollDesc) (c : Nat) : Nat × Nat := (ceilDiv (d.chunk c).1 24, ceilDiv (d.chunk c).2 24)

/-- The bit that a tree carries next: its lowest clear one, pass 1 before pass 2; pass 2 waits for every pass-1 bit (R338, R341). -/
def CollOp.bitOf (o : CollOp) (d : CollDesc) (trees t : Nat) : Option Nat :=
  let clear (b : Nat) : Bool := !(o.marks.getD b true)
  let own (c : Nat) : Bool := c % trees == t
  let p1 := (List.range d.nch).find? fun c => own c && clear (d.nch + c)
  if d.mode = 1 then
    match p1 with
    | some c => some (d.nch + c)
    | none => if (List.range d.nch).any fun c => clear (d.nch + c) then none else (List.range d.nch).find? fun c => own c && clear c
  else (List.range d.nch).find? fun c => own c && clear c

/-- A participant's contribution to a bit's chunk (R337, R340 to R342). -/
def State.collOwn (s : State) (g : CollGroup) (o : CollOp) (d : CollDesc) (b : Nat) : List CollVal × State :=
  let me := s.link.devno
  let c := b % d.nch
  let (k0, k1) := d.chunk c
  if d.nch ≤ b then
    let (b0, b1) := d.blocks c
    let (l, s) := s.collVals o d (24 * b0) (Nat.min (24 * b1) d.count - 24 * b0)
    ((List.range (b1 - b0)).map fun j => blockExp (((l.drop (24 * j)).take 24).map (·.1)), s)
  else if 2 ≤ o.fn then
    let (e0, n) := d.own o.fn me g.members
    let lo := Nat.max k0 e0
    let hi := Nat.min k1 (e0 + n)
    if hi ≤ lo then (List.replicate (k1 - k0) collEmpty, s)
    else
      let (l, s) := s.collCodes o d (lo - e0) (hi - lo)
      (List.replicate (lo - k0) collEmpty ++ (l.map fun p => collCode p.1 p.2) ++ List.replicate (k1 - hi) collEmpty, s)
  else if d.mode = 2 then
    let (l, s) := s.collCodes o d k0 (k1 - k0)
    (l.map fun p => rawVal p.1 p.2, s)
  else
    let (l, s) := s.collVals o d k0 (k1 - k0)
    (l.zipIdx.map fun p => if d.mode = 0 then fastVal p.1.1 p.1.2 else toFixed p.1.1 (Tbl.get? o.anchors ((k0 + p.2) / 24)) p.1.2, s)

/-- The root forms the results of a chunk: output codes and the flags of each line (R339 to R342). -/
def CollOp.form (o : CollOp) (d : CollDesc) (c : Nat) (v : List CollVal) : List CollVal × LineFlags :=
  let k0 := (d.chunk c).1
  let res := v.zipIdx.map fun p => collResult d o.fn (Tbl.get? o.anchors ((k0 + p.2) / 24)) p.1
  let per := 512 / d.wo
  let lines {α : Type} (l : List α) (f : α → Bool) : List Bool :=
    (List.range (ceilDiv l.length per)).map fun i => ((l.drop (i * per)).take per).any f
  (res.map fun r => collCode r.1 false,
   { inv := lines res (·.2.inv), ovf := lines res (·.2.ovf), psn := lines v (·.psn) })

/-- Take a chunk's result: write what this participant receives, and set the mark (R339, R341, R344). -/
def State.collTakeResult (s : State) (g : CollGroup) (o : CollOp) (d : CollDesc) (b : Nat) (v : List CollVal) (f : LineFlags) :
    State × CollOp :=
  let c := b % d.nch
  if d.nch ≤ b then
    let b0 := (d.blocks c).1
    let put (t : Tbl Int) (p : CollVal × Nat) : Tbl Int := if p.1.nan then Tbl.erase t (b0 + p.2) else Tbl.set t (b0 + p.2) p.1.s
    let o := { o with anchors := v.zipIdx.foldl put o.anchors }
    let code (x : CollVal) : Nat := if x.nan then 0x8000 else (x.s % 2048).toNat
    let s := s.collWrite o (d.aux + 2 * b0) (v.flatMap fun x => toBytes (code x) 2)
    s.collMark o d b
  else
    let (k0, k1) := d.chunk c
    let (e0, n) := d.takes o.fn s.link.devno g.members
    let lo := Nat.max k0 e0
    let hi := Nat.min k1 (e0 + n)
    if hi ≤ lo then s.collMark o d b
    else
      let codes := ((v.drop (lo - k0)).take (hi - lo)).map fun x => x.s.toNat
      let va := d.dst + (lo - e0) * d.wo / 8
      let (s, o) := s.collDeliver (g.gtag % 2) o va ((lo - k0) * d.wo / 8) (planeBytes d.wo codes 0) f
      s.collMark o d b

/-- The down message of a bit, to the children. -/
def State.collDown (s : State) (g : CollGroup) (o : CollOp) (d : CollDesc) (t b : Nat) (v : List CollVal) (f : LineFlags) : State :=
  (s.collKids g t).foldl
    (fun s k => s.collSend g o.num k.1 k.2 (.down (b % d.nch) (if d.nch ≤ b then 1 else 2) f.inv f.ovf f.psn) v) s

/-- One step of a tree: the up message once the children's are here, or at the root the result; none when the tree waits (R339). -/
def State.collTry (s : State) (g : CollGroup) (o : CollOp) (d : CollDesc) (t : Nat) : Option (State × CollOp) :=
  match o.bitOf d g.trees.length t with
  | none => none
  | some b =>
    let kids := s.collKids g t
    let ups := kids.filterMap fun k => (o.ups.find? fun u => u.1 == b && u.2.1 == k.1).map (·.2.2)
    if o.sentUp.contains b || decide (ups.length < kids.length) then none
    else
      let (own, s) := s.collOwn g o d b
      let v := ups.foldl (joinLists (Combine.of d o.fn (decide (d.nch ≤ b)))) own
      let o := { o with ups := o.ups.filter (·.1 ≠ b), progress := Tbl.set o.progress t s.clk }
      match s.collParent g t with
      | some p =>
        some (s.collSend g o.num p.1 p.2 (.up (b % d.nch) (if d.nch ≤ b then 1 else 2)) v, { o with sentUp := o.sentUp ++ [b] })
      | none =>
        let (r, f) := if d.nch ≤ b then (v, ({ inv := [], ovf := [], psn := [] } : LineFlags)) else o.form d b v
        let (s, o) := s.collTakeResult g o d b r f
        some (s.collDown g o d t b r f, o)

/-- Trees advance as far as they can; every step sends an up message or sets a mark, which bounds their number. -/
def State.collAdvance (s : State) (g : CollGroup) (o : CollOp) (d : CollDesc) (fuel : Nat) : State × CollOp :=
  match fuel with
  | 0 => (s, o)
  | fuel + 1 =>
    match (List.range g.trees.length).findSome? (s.collTry g o d) with
    | none => (s, o)
    | some (s, o) => s.collAdvance g o d fuel

/-- Advance an operation and keep it in its group. -/
def State.collRun (s : State) (g : CollGroup) (o : CollOp) : State :=
  if o.exch || !o.started then s.setCGroup (g.putOp o)
  else
    let d := CollDesc.of o.desc
    let (s, o) := s.collAdvance g o d (2 * d.nbits + 1)
    s.setCGroup (g.putOp o)

/-! ### Ends (R346, R353) -/

def CollOp.payload (o : CollOp) (ver : BitVec 32) (failed : Bool) : Word :=
  fieldsWord [(0, o.num % 2 ^ 32), (32, Nat.min o.restarts 255), (40, b2n o.inv), (41, b2n o.ovf), (42, b2n o.pois), (43, b2n failed),
    (48, ver.toNat % 2 ^ 16)]

/-- The completion of a `cred`: its PSN is what R344 and R346 give. -/
def State.collReply (s : State) (r : SysReq) (e : Nat) (v : Word) (psn : Bool) : State :=
  s.replyFrom (collSite e) r.who.site r.target v psn (r.seq :: r.deps) r.who.asid r.gen

/-- Each 64 B line of a failed operation's destination that has no mark holds its earlier contents or a result, as a free choice (R346;
log entry 9). -/
def State.collSpoil (s : State) (g : CollGroup) (o : CollOp) (d : CollDesc) : State :=
  let (e0, n) := d.takes o.fn s.link.devno g.members
  (List.range d.nch).foldl
    (fun s c =>
      if o.marks.getD c true then s
      else
        let (k0, k1) := d.chunk c
        let lo := Nat.max k0 e0
        let hi := Nat.min k1 (e0 + n)
        if hi ≤ lo then s
        else
          (cut 64 (d.dst + (lo - e0) * d.wo / 8) (ceilDiv ((hi - lo) * d.wo) 8)).foldl
            (fun (s : State) p =>
              let k := s.free
              let s := s.bumpFree
              if Config.collLine k p.1 then s.collWrite o p.1 ((List.range p.2).map fun i => Config.unstatedByte k (p.1 + i)) else s)
            s)
    s

/-- The current operation ends, and the group's next may begin. -/
def CollGroup.ended (g : CollGroup) (past : Option CollOp) : CollGroup :=
  { g with cur := none, past := past, opNum := g.opNum + 1, issued := g.issued.filter fun i => decide (g.opNum < i.2.1) }

/-- Tell every tree neighbour but one that an operation has failed. -/
def State.collCancelNear (s : State) (g : CollGroup) (num origin : Nat) (but : Option Nat) : State :=
  ((s.collNear g).filter fun p => some p.1 != but).foldl (fun s p => s.collSend g num p.1 p.2 (.cancel origin) []) s

/-- FAIL a group's current operation (R346): the record, the neighbours, the destination, the completion with bit 43. -/
def State.collFail (s : State) (g : CollGroup) (code detail origin : Nat) (but : Option Nat) : State :=
  match g.cur with
  | none => s
  | some o =>
    let s := s.logFault o.req.who code detail
    let s := s.collCancelNear g o.num origin but
    let s := if o.started then s.collSpoil g o (CollDesc.of o.desc) else s
    let s := s.collReply o.req (g.gtag % 2) (o.payload s.coll.ltVer true) true
    s.setCGroup (g.ended g.past)

/-- The current operation has every mark set: it completes (R353). -/
def State.collFinish (s : State) (g : CollGroup) (o : CollOp) : State :=
  (s.collReply o.req (g.gtag % 2) (o.payload s.coll.ltVer false) o.psn).setCGroup (g.ended (some { o with done := true, req := { o.req with target := none } }))

/-! ### The mark exchange (R345) -/

/-- The result of the exchange: the bits that are clear in it are cleared, and their chunks start again. -/
def State.collMarksDown (s : State) (g : CollGroup) (o : CollOp) (r : List Bool) : State :=
  let d := CollDesc.of o.desc
  let s := (s.collKids g 0).foldl (fun s k => s.collSend g o.num k.1 k.2 (.markDown r) []) s
  let marks := o.marks.zipIdx.map fun p => p.1 && r.getD p.2 false
  let o := { o with marks := marks, exch := false, mxUps := [], mxSent := false,
                    progress := (List.range g.trees.length).map fun t => (t, s.clk) }
  (s.collWrite o d.marks (markBytesAt marks 0 d.markBytes)).collRun g o

/-- The AND of the children's bitmaps and the own one goes up tree 0, or at its root comes down. -/
def State.collMarksUp (s : State) (g : CollGroup) (o : CollOp) : State :=
  let kids := s.collKids g 0
  let parts := kids.filterMap fun k => (o.mxUps.find? (·.1 == k.1)).map (·.2)
  if !o.exch || o.mxSent || decide (parts.length < kids.length) then s.setCGroup (g.putOp o)
  else
    let r := o.marks.zipIdx.map fun p => p.1 && parts.all fun q => q.getD p.2 false
    match s.collParent g 0 with
    | some p => (s.collSend g o.num p.1 p.2 (.markUp r) []).setCGroup (g.putOp { o with mxSent := true })
    | none => s.collMarksDown g o r

/-- An operation meets a new table version: partial state goes, and the exchange begins (R345 steps 1 to 3). -/
def State.collRestart (s : State) (g : CollGroup) (o : CollOp) : State :=
  s.collMarksUp g { o with ups := [], sentUp := [], restarts := o.restarts + 1, exch := true, mxUps := [], mxSent := false }

/-! ### Messages (R330, R331, R333, R339) -/

/-- A message for an operation that runs here, or that has completed here. -/
def State.collOnOp (s : State) (g : CollGroup) (o : CollOp) (m : CollMsg) : State :=
  let d := CollDesc.of o.desc
  let bitAt (c pass : Nat) : Nat := if pass = 1 then d.nch + c else c
  match m.kind with
  | .issue _ _ => s
  | .cancel origin =>
    if o.done then (s.collCancelNear g o.num origin (some m.src)).setCGroup { g with past := none }
    else s.collFail g 0x0605 origin origin (some m.src)
  | .up c pass =>
    let b := bitAt c pass
    if o.marks.getD b true && !o.exch then s
    else
      let o := { o with ups := (o.ups.filter fun u => !(u.1 == b && u.2.1 == m.src)) ++ [(b, m.src, m.data)],
                        progress := Tbl.set o.progress (c % g.trees.length) s.clk }
      s.collRun g o
  | .down c pass inv ovf psn =>
    let b := bitAt c pass
    let t := c % g.trees.length
    if o.exch || !o.sentUp.contains b || o.marks.getD b true then s
    else
      let f : LineFlags := { inv := inv, ovf := ovf, psn := psn }
      let (s, o) := s.collTakeResult g o d b m.data f
      let s := s.collDown g o d t b m.data f
      s.collRun g { o with sentUp := o.sentUp.filter (· ≠ b), progress := Tbl.set o.progress t s.clk }
  | .markUp r => s.collMarksUp g { o with mxUps := o.mxUps.filter (·.1 ≠ m.src) ++ [(m.src, r)] }
  | .markDown r => if o.exch then s.collMarksDown g o r else s

/-- Table version `a` is older than `b`: versions advance modulo 2^32, and the nearer way round decides (R333; log entry 115). -/
def verOlder (a b : Nat) : Bool := decide (a ≠ b) && decide ((b + 2 ^ 32 - a) % 2 ^ 32 < 2 ^ 31)

/-- The number of the next operation that this device issues in a group (R330). -/
def CollGroup.nextNum (g : CollGroup) : Nat := g.opNum + (if g.cur.isSome then 1 else 0) + g.waiting.length

/-- Handle a message: none when it must be held (R331, R333). -/
def State.collTake (s : State) (m : CollMsg) : Option State :=
  let ver := s.coll.ltVer.toNat
  if verOlder m.ver ver then some s
  else if m.ver ≠ ver then none
  else
    match s.coll.groups.find? fun g => g.gtag == m.gtag && g.key == m.key with
    | none => none
    | some g =>
      let past := g.past.filter (·.num == m.op)
      match past, g.cur, m.kind with
      | some o, _, _ => some (s.collOnOp g o m)
      | none, _, .issue digest earlier =>
        if m.op < g.opNum then some s
        else if g.nextNum ≤ m.op then none
        else
          some (s.setCGroup
            { g with issued := (g.issued.filter fun i => !(i.1 == m.src && i.2.1 == m.op)) ++ [(m.src, m.op, digest, earlier)] })
      | none, some o, kind =>
        if m.op < o.num then some s
        else if o.num < m.op then
          match kind with
          | .cancel origin =>
            if m.op < g.nextNum then
              some (s.setCGroup
                { g with waiting := g.waiting.map fun q => if q.num = m.op then { q with bad := q.bad.or (some (0x0605, origin)) } else q })
            else none
          | _ => none
        else if o.started then some (s.collOnOp g o m)
        else
          match kind with
          | .cancel origin => some (s.collFail g 0x0605 origin origin (some m.src))
          | _ => none
      | none, none, _ => if m.op < g.opNum then some s else none

/-- Present the held messages of an engine again, as long as one of them can be handled. -/
def State.rehold (s : State) (e fuel : Nat) : State :=
  match fuel with
  | 0 => s
  | fuel + 1 =>
    let l := s.coll.held.getD e []
    match l.zipIdx.findSome? fun p => (s.collTake p.1.msg).map fun t => (p.2, t) with
    | none => s
    | some (i, s) => (s.modColl fun c => { c with held := listUpd c.held e fun h => listDrop1 h i }).rehold e fuel

def State.reholdAll (s : State) : State :=
  let n := (s.coll.held.map List.length).foldl (· + ·) 0 + 1
  (s.rehold 0 n).rehold 1 n

/-- The engine's buffer is full: the COLL class back-pressures (R331). -/
def State.collFull (s : State) (e : Nat) : Bool := decide (256 ≤ (s.coll.held.getD e []).length)

/-- COLL_MESSAGE: a message is handled, or held; while the buffer is full, none is taken (R331). -/
def execCollMessage (e : Nat) (m : CollMsg) (s : State) : Out :=
  if s.collFull e then .next s
  else
    match s.collTake m with
    | some s => .next s.reholdAll
    | none => .next (s.modColl fun c => { c with held := listUpd c.held e fun h => h ++ [{ msg := m, since := s.clk }] })

/-- COL_STALL: held message `i` of an engine has been held longer than CE_STALL (R331). -/
def execColStall (e i : Nat) (s : State) : Out :=
  match (s.coll.held.getD e [])[i]? with
  | none => .next s
  | some h =>
    if s.clk < h.since + (s.coll.stall.getD e 0).toNat then .next s
    else .next ((s.modColl fun c => { c with held := listUpd c.held e fun h => listDrop1 h i }).sysFault (collSite e) 0x0602 0)

/-- CHUNK_STALL: a chunk has made no progress for CE_STALL clk (R350). -/
def execChunkStall (asid gtag c : Nat) (s : State) : Out :=
  match s.collGroup? asid gtag with
  | none => .next s
  | some g =>
    match g.cur with
    | none => .next s
    | some o =>
      let d := CollDesc.of o.desc
      let t := c % g.trees.length
      match o.bitOf d g.trees.length t with
      | none => .next s
      | some b =>
        if b % d.nch ≠ c ∨ o.exch ∨ !o.started ∨ o.stalled.contains b ∨
           s.clk < Tbl.getD o.progress t 0 + (s.coll.stall.getD (gtag % 2) 0).toNat then .next s
        else
          let awaited := (s.collKids g t).find? fun k => !(o.ups.any fun u => u.1 == b && u.2.1 == k.1)
          let link := match awaited, o.sentUp.contains b with
            | some k, false => k.2
            | _, _ => match s.collParent g t with | some p => p.2 | none => 0
          .next ((s.logFault o.req.who 0x0602 link).setCGroup (g.putOp { o with stalled := o.stalled ++ [b] }))

/-! ### Operations begin (R330, R334, R336, R338) -/

def newOp (r : SysReq) (fn num : Nat) (desc : List Byte) : CollOp :=
  { req := r, fn := fn, num := num, desc := desc, bad := none, earlier := false, started := false, done := false, xl := [], marks := [],
    anchors := [], ups := [], sentUp := [], exch := false, mxUps := [], mxSent := false, restarts := 0, inv := false, ovf := false,
    pois := false, psn := false, stalled := [], progress := [] }

def credFn (i : Instr) : Nat := match i with | .cred fn _ => fn.toNat | _ => 0

/-- Translate every range of an operation. -/
def State.mapAll (s : State) (r : SysReq) (l : List (Nat × Nat × Nat × Bool)) : Except Nat (List Xlat) × State :=
  match l with
  | [] => (.ok [], s)
  | q :: rest =>
    let (x, s) := s.mapRange r [0, 2] q.2.2.2 q.2.1 q.2.2.1
    match x with
    | .error a => (.error a, s)
    | .ok x =>
      let (y, s) := s.mapAll r rest
      match y with
      | .error a => (.error a, s)
      | .ok y => (.ok (x ++ y), s)

/-- Check an operation's descriptor and translate its ranges: the translations, or why it fails (R336). -/
def State.collRanges (s : State) (g : CollGroup) (o : CollOp) : Except (Nat × Nat) (List Xlat) × State :=
  let me := s.link.devno
  let d := CollDesc.of o.desc
  let ranges := d.ranges o.fn me g.members
  match (d.badField o.desc o.fn me g.members).or (overlapOf ranges) with
  | some off => (.error (0x0606, off), s)
  | none =>
    let (x, s) := s.mapAll o.req ranges
    (match x with | .error a => .error (0x0607, a) | .ok x => .ok x, s)

/-- A `cred` reaches the engine: its descriptor is read and checked, its ranges are translated and pinned, and the other participants are
told that it has been issued (R330, R336). -/
def State.collAccept (s : State) (g : CollGroup) (r : SysReq) : State :=
  let va := r.va.toNat
  let (x, s) := s.mapRange r [0, 2] false va 64
  let (o, s) :=
    match x with
    | .error a => ({ newOp r (credFn r.ins) g.nextNum [] with bad := some (0x0607, a) }, s)
    | .ok x =>
      let (l, s) := s.readRange 4 r x va 64
      let s := if l.bad.isEmpty then s else s.logFault r.who 0x0608 va
      let o := newOp r (credFn r.ins) g.nextNum l.bytes
      let (y, s) := s.collRanges g o
      (match y with | .error e => { o with bad := some e } | .ok x => { o with xl := x }, s)
  let g := { g with waiting := g.waiting ++ [o] }
  ((s.setCGroup g).collIssue g o).reholdAll

/-- The next waiting operation of a group becomes its current one; with no tree, or for what its descriptor gave, it fails at once (R334,
R336). -/
def State.collBegin (s : State) (g : CollGroup) : State :=
  match g.cur, g.waiting with
  | none, o :: rest =>
    let g := { g with cur := some o, waiting := rest }
    let s := s.setCGroup g
    if g.trees.isEmpty then s.collFail g 0x0603 s.coll.ltVer.toNat s.link.devno none
    else
      match o.bad with
      | some (code, detail) => s.collFail g code detail (if code = 0x0605 then detail else s.link.devno) none
      | none => s.reholdAll
  | _, _ => s

/-- COLLECTIVE_OP_START: every participant has issued the operation; it starts, or fails at once (R330, R338). When every participant had
issued it before the version in force was adopted, one of them may have started it by then: it starts with the mark exchange (R345; log
entry 116). -/
def execCollectiveOpStart (asid gtag : Nat) (s : State) : Out :=
  match s.collGroup? asid gtag with
  | none => .next s
  | some g =>
    match g.cur with
    | none => .next s
    | some o =>
      let me := s.link.devno
      let others := g.members.filter (· ≠ me)
      let told (dev : Nat) : Option (Nat × Bool) := (g.issued.find? fun i => i.1 == dev && i.2.1 == o.num).map (·.2.2)
      if o.started || others.any fun m => (told m).isNone then .next s
      else
        let digest := collDigest o.fn o.desc
        let d := CollDesc.of o.desc
        if others.any fun m => (told m).map (·.1) != some digest then .next (s.collFail g 0x0604 o.num me none)
        else
          let o := { o with started := true, marks := List.replicate d.nbits false,
                            progress := (List.range g.trees.length).map fun t => (t, s.clk) }
          let s := s.collWrite o d.marks (List.replicate d.markBytes 0)
          let again := o.earlier && others.all fun m => (told m).map (·.2) == some true
          .next (if again then s.collRestart g o else s.collRun g o).reholdAll

/-! ### Adoption (R332, R333, R345) -/

/-- The engines' reads of the link table, on their own path (R332). -/
def collAgent (seq : Nat) : Agent := { path := 4, site := coordSite, ctx := 7, seq := seq, obs := deviceWide coordSite }

/-- The link ids of the table, or the index of the first bad entry. -/
def State.linkTable (s : State) (i : Nat) (before : Option Nat) (n : Nat) : Except Nat (List Nat) × State :=
  match n with
  | 0 => (.ok [], s)
  | n + 1 =>
    let a := s.coll.ltBase + 8 * i
    if paTarget a ≠ .hbm ∨ inCellarRange s.rcv a then (.error i, s)
    else
      let (q, s) := s.takeSeq
      let (l, s) := s.readRun (collAgent q) a 8 64
      let e := ofBytes l.bytes
      if !l.bad.isEmpty || badLink before e then (.error i, s)
      else
        let (r, s) := s.linkTable (i + 1) (some e) n
        match r with
        | .error k => (.error k, s)
        | .ok r => (.ok (e :: r), s)

def State.links (s : State) : Except Nat (List Nat) × State := s.linkTable 0 none (Nat.min s.coll.ltLen 65536)

/-- One group under the new table. -/
def State.regroup (s : State) (g : CollGroup) (links : List Nat) : State :=
  let g := { g with trees := pack g.members links }
  let s := s.setCGroup g
  if g.trees.isEmpty then (s.collFail g 0x0603 s.coll.ltVer.toNat s.link.devno none)
  else
    let s := match g.past with | some o => s.collRestart g o | none => s
    match s.collGroup? g.asid g.gtag with
    | none => s
    | some g =>
      let early (o : CollOp) : CollOp := { o with earlier := true }
      let g := { g with cur := g.cur.map early, waiting := g.waiting.map early }
      let s := (g.cur.toList ++ g.waiting).foldl (fun s o => s.collIssue g o) (s.setCGroup g)
      match g.cur with
      | some o => if o.started then s.collRestart g o else s
      | none => s

/-- A write of CE_LTCTL: check the table and adopt it, or 0x0609 (R333). -/
def State.adoptTable (s : State) (v : Word) : State :=
  let ver := v.toNat % 2 ^ 32
  let (x, s) := s.links
  match x with
  | .error i => s.sysFault coordSite 0x0609 (i % 2 ^ 17)
  | .ok links =>
    if ver ≠ (s.coll.ltVer.toNat + 1) % 2 ^ 32 then s.sysFault coordSite 0x0609 (ver * 2 ^ 32)
    else
      let s := s.modColl fun c => { c with ltVer := BitVec.ofNat 32 ver }
      (s.coll.groups.foldl (fun s g => s.regroup g links) s).reholdAll

/-- CE_LTCTL_WRITE. -/
def execCeLtctlWrite (v : Word) (s : State) : Out := .next (s.adoptTable v)

/-! ### Requests (R329, R352 to R355) -/

def State.refuseGroup (s : State) (r : SysReq) (e reason : Nat) : State :=
  (s.logFault r.who 0x0601 reason).collReply r e 0 true

/-- Why a member list is refused, after it has been read (R329, R351). -/
def badMembers (l : List Nat) (me : Nat) : Option Nat :=
  let rising := (l.zip (l.drop 1)).all fun p => decide (p.1 < p.2)
  if l.any (fun d => decide (4096 ≤ d)) || !rising then some 3 else if l.contains me then none else some 4

/-- `cgrp.make` (R329, R334). -/
def State.collMake (s : State) (r : SysReq) (e gtag : Nat) : State :=
  let n := r.vb.toNat
  if (s.collGroup? r.who.asid gtag).isSome then s.refuseGroup r e 1
  else if 64 ≤ s.coll.groups.length then s.refuseGroup r e 2
  else
    let (x, s) := s.mapRange r [0, 2] false r.va.toNat (2 * n)
    match x with
    | .error _ => s.refuseGroup r e 5
    | .ok x =>
      let (l, s) := s.readRange 4 r x r.va.toNat (2 * n)
      if !l.bad.isEmpty then s.refuseGroup r e 5
      else
        let members := (List.range n).map fun i => field l.bytes (2 * i) 2
        match badMembers members s.link.devno with
        | some k => s.refuseGroup r e k
        | none =>
          let (y, s) := s.links
          let links := match y with | .ok l => l | .error _ => []
          let trees := pack members links
          let g : CollGroup :=
            { asid := r.who.asid, gtag := gtag, members := members, key := crc64 l.bytes, trees := trees, opNum := 0, cur := none,
              past := none, waiting := [], issued := [] }
          let s := s.modColl fun c => { c with groups := c.groups ++ [g] }
          (s.collReply r e (fieldsWord [(0, gtag), (16, trees.length), (32, s.coll.ltVer.toNat)]) false).reholdAll

/-- The state that `cstat.grp` shows (R354). -/
def CollGroup.stateCode (g : CollGroup) : Nat :=
  match g.cur with
  | none => 0
  | some o =>
    let d := CollDesc.of o.desc
    if !o.started then 4 else if o.exch then 3 else if d.mode == 1 && !((o.marks.drop d.nch).all id) then 1 else 2

def CollGroup.progressWord (g : CollGroup) : Word :=
  match g.cur with
  | some o => if o.started then fieldsWord [(0, (o.marks.filter id).length), (32, o.marks.length)] else 0
  | none => 0

/-- Serve one request. -/
def State.serveColl (s : State) (r : SysReq) : State :=
  let gtag := r.vd.toNat % 2 ^ 16
  let e := gtag % 2
  let isCred := match r.ins with | .cred .. => true | _ => false
  if r.psn && !isCred then (s.logFault r.who 0x060B r.word.toNat).collReply r e 0 true
  else
    match r.ins with
    | .cgrpMake _ => s.collMake r e gtag
    | _ =>
      match s.collGroup? r.who.asid gtag with
      | none => s.refuseGroup r e 7
      | some g =>
        match r.ins with
        | .cgrpDrop _ =>
          if g.cur.isSome || !g.waiting.isEmpty then s.refuseGroup r e 6
          else
            (s.modColl fun c => { c with groups := c.groups.filter fun x => !(x.asid == g.asid && x.gtag == g.gtag) }).collReply r e
              (BitVec.ofNat 64 gtag) false
        | .cred .. => s.collAccept g r
        | .cstat false _ =>
          s.collReply r e (fieldsWord [(0, g.members.length), (16, g.trees.length), (24, g.stateCode), (32, s.coll.ltVer.toNat)]) false
        | .cstat true _ => s.collReply r e g.progressWord false
        | .ccan _ => (s.collFail g 0x0605 s.link.devno s.link.devno none).collReply r e (BitVec.ofNat 64 gtag) false
        | _ => s

/-- What the engines can do by themselves: take a request, complete an operation, or begin a group's next one. -/
inductive CollAct where
  | take (i : Nat)
  | finish (asid gtag : Nat)
  | begin (asid gtag : Nat)
  deriving DecidableEq, Repr

def State.collActs (s : State) : List CollAct :=
  let q := s.coll.queue
  let same (a b : SysReq) : Bool := a.who.asid == b.who.asid && a.vd == b.vd
  let here (tag : Nat) : Bool := !s.pkg.wiping.contains (8 + tag % 2)
  (q.zipIdx.filter fun p => here p.1.vd.toNat && s.engineReady 4 p.1 && !((q.take p.2).any (same p.1))).map (fun p => .take p.2) ++
  (s.coll.groups.filter fun g => here g.gtag).filterMap fun g =>
    match g.cur, g.waiting with
    | some o, _ => if o.started && !o.exch && o.marks.all id then some (.finish g.asid g.gtag) else none
    | none, _ :: _ => some (.begin g.asid g.gtag)
    | none, [] => none

/-- The collective engines do one thing, by a free choice among those they can do (log entry 2). -/
def State.collServe (s : State) : State :=
  let acts := s.collActs
  match acts[Config.pick s.free % acts.length]? with
  | none => s
  | some a =>
    let s := s.bumpFree
    match a with
    | .take i =>
      match s.coll.queue[i]? with
      | some r => (s.modColl fun c => { c with queue := listDrop1 c.queue i }).serveColl r
      | none => s
    | .finish asid gtag =>
      match s.collGroup? asid gtag with
      | some g => match g.cur with | some o => s.collFinish g o | none => s
      | none => s
    | .begin asid gtag =>
      match s.collGroup? asid gtag with
      | some g => s.collBegin g
      | none => s

/-- Containment or kill of a launch cancels its operations in progress (R349): a current one fails, a waiting one when its turn comes. -/
def State.collCancel (s : State) (h : Nat) : State :=
  let me := s.link.devno
  s.coll.groups.foldl
    (fun s x =>
      match s.collGroup? x.asid x.gtag with
      | none => s
      | some g =>
        let g := { g with waiting := g.waiting.map fun o => if o.req.launch = some h then { o with bad := o.bad.or (some (0x0605, me)) } else o }
        let s := s.setCGroup g
        match g.cur with
        | some o => if o.req.launch = some h then s.collFail g 0x0605 me me none else s
        | none => s)
    s

end Sys2Proof.Machine
end

