-- ==== Sys2Proof/Machine/Images.lean ====
section
/-! DEFINITION. Placement records, context descriptors and page images: their layouts (R43 to R45, R287, R291) and the checks of R292. -/
namespace Sys2Proof.Machine

/-! ### Layouts -/

/-- A page image's header fields (R45). -/
def imgWidth (l : List Byte) : Nat := field l 8 1
def imgHeight (l : List Byte) : Nat := field l 9 1
def imgPages (l : List Byte) : Nat := field l 0x0A 2
def imgEntries (l : List Byte) : Nat := field l 0x0C 2
def imgData (l : List Byte) : Nat := field l 0x0E 2
def imgLength (l : List Byte) : Nat := field l 0x1C 4
def imgCrc (l : List Byte) : Nat := field l 0x20 8

/-- What names an image in the configuration cache: its CRC and length (R295). -/
def imageKey (l : List Byte) : Nat := imgCrc l * 2 ^ 32 + imgLength l

/-- Page `k` of an image, 16,384 B (R43). -/
def imgPage (l : List Byte) (k : Nat) : List Byte := slice l (field l 0x18 4 + 16384 * k) 16384

/-- Entry `e` of the entry table (R45). -/
def imgEntry (l : List Byte) (e : Nat) : Word := BitVec.ofNat 64 (field l (field l 0x10 4 + 8 * e) 8)

/-- Data section `d`: virtual address and bytes (R45). -/
def imgSection (l : List Byte) (d : Nat) : Nat × List Byte :=
  let t := field l 0x14 4 + 32 * d
  (field l t 8, slice l (field l (t + 12) 4) (field l (t + 8) 4))

/-- A page's header fields (R44). -/
def pageIndex (p : List Byte) : Nat := field p 6 2
def pageDx (p : List Byte) : Nat := field p 8 1
def pageDy (p : List Byte) : Nat := field p 9 1
def pageFeat (p : List Byte) : Nat := field p 0x0A 1
def pagePcls (p : List Byte) : Nat := field p 0x0B 1
def pageLen (p : List Byte) : Nat := field p 0x0C 2
def pageTargets (p : List Byte) : Nat := field p 0x0E 2
def pageStreams (p : List Byte) : Nat := field p 0x10 1

/-- Reserve entry `k`: size class and count. -/
def pageReserve (p : List Byte) (k : Nat) : Nat × Nat := let v := field p (0x20 + 2 * k) 2; (v / 8192, v % 8192)

def pageTarget (p : List Byte) (t : Nat) : Word := BitVec.ofNat 64 (field p (0x600 + 8 * t) 8)

def pageStream (p : List Byte) (k : Nat) : List Word :=
  (List.range 4).map fun i => BitVec.ofNat 64 (field p (0x200 + 32 * k + 8 * i) 8)

def pageCode (p : List Byte) (ip : Nat) : Word := BitVec.ofNat 64 (field p (0x1000 + 8 * ip) 8)

/-- A page as the sequencer holds it (R43, R295). -/
def pageOf (p : List Byte) : Page :=
  { index := pageIndex p, feat := BitVec.ofNat 8 (pageFeat p), pcls := pagePcls p
    code := (List.range (pageLen p)).map (pageCode p)
    targets := (List.range (pageTargets p)).map (pageTarget p)
    streams := (List.range (pageStreams p)).map (pageStream p)
    seedCls := field p 0x11 1
    reserve := (List.range 8).map (pageReserve p) }

def zeroBytes (l : List Byte) (off n : Nat) : Bool := (slice l off n).all (· == 0)

/-- The CRC-64 of a block with its own 8 B field taken as zero (R44, R45). -/
def crcWithout (l : List Byte) (off : Nat) : Nat := crc64 (overlay l off (List.replicate 8 0))

/-! ### The record and the descriptor (R287, R291) -/

/-- An address of HBM that is ordinary memory: the cellar range is not (R382). -/
def State.isHbm (s : State) (pa : Nat) : Bool := paTarget pa == .hbm && !inCellarRange s.rcv pa

/-- A placement record that meets R291. -/
def recordOk (r : List Byte) : Bool :=
  let e : Word := BitVec.ofNat 64 (field r 0x18 8)
  decide (field r 0x10 1 ≤ 7) && decide (field r 0x11 1 < 4) && zeroBytes r 0x16 2 && zeroBytes r 0x24 0x1C &&
  wbits e 1 19 == 0 && decide (wbits e 41 11 ≤ 1535) && (wbit e 36 || wbits e 20 16 == 0) && decide (field r 0x20 4 < 2 ^ 17)

/-- A context descriptor that meets R287. -/
def State.descriptorOk (s : State) (d : List Byte) : Bool :=
  let pas : List (Nat × Nat) :=
    [(field d 8 8, 4096), (field d 0x10 8, 64), (field d 0x18 8, 8), (field d 0x20 8, 2 ^ 21), (field d 0x30 8, 1024),
     (field d 0x38 8, 65536)]
  decide (field d 0 2 < 4096) && decide (6 ≤ field d 2 2 ∧ field d 2 2 ≤ 16) && decide (field d 4 4 ≤ 65536) &&
  decide (field d 0x28 4 % 64 = 0 ∧ 128 ≤ field d 0x28 4) && decide (832 ≤ field d 0x2C 2 ∧ field d 0x2C 2 % 32 = 0) &&
  zeroBytes d 0x2E 2 && pas.all fun p => s.isHbm p.1 && p.1 % p.2 == 0

/-! ### The image (R41, R44, R45, R292) -/

/-- Reason 1: the image header, its tables and its CRC; `ctx` is PR_CTX. -/
def imageOk (l : List Byte) (ctx : Nat) : Bool :=
  let lim := if ctx = 7 then (4, 4) else (64, 32)
  let n := imgPages l
  let eo := field l 0x10 4
  let dOff := field l 0x14 4
  let po := field l 0x18 4
  let len := imgLength l
  field l 0 4 == 0x495A4458 && field l 4 2 == 1 && field l 6 2 == (if ctx = 7 then 1 else 0) &&
  decide (1 ≤ imgWidth l ∧ imgWidth l ≤ lim.1 ∧ 1 ≤ imgHeight l ∧ imgHeight l ≤ lim.2 ∧ 1 ≤ n ∧ n ≤ 2048) &&
  zeroBytes l 0x28 24 && decide (64 ≤ eo ∧ eo + 8 * imgEntries l ≤ dOff ∧ dOff + 32 * imgData l ≤ po) && po % 16384 == 0 &&
  decide (po + 16384 * n ≤ len) && l.length == len && crcWithout l 0x20 == imgCrc l &&
  ((List.range (imgEntries l)).all fun e =>
    let w := imgEntry l e
    wbits w 0 20 == 0 && wbits w 20 20 == 0 && decide (wbits w 41 11 ≤ 1535)) &&
  (List.range (imgData l)).all fun d =>
    let t := dOff + 32 * d
    zeroBytes l (t + 16) 16 && decide (field l (t + 12) 4 + field l (t + 8) 4 ≤ len)

/-- A page header, on its own (R44). -/
def pageHeaderOk (p : List Byte) : Bool :=
  field p 0 4 == 0x505A4458 && field p 4 2 == 1 && decide (pageIndex p < 2048) && decide (1 ≤ pageLen p ∧ pageLen p ≤ 1536) &&
  decide (pageTargets p ≤ 320 ∧ pageStreams p ≤ 32 ∧ field p 0x11 1 ≤ 5) && zeroBytes p 0x12 14 && zeroBytes p 0x30 0x1C8 &&
  ((List.range 8).all fun k => decide ((pageReserve p k).1 ≤ 5)) &&
  ((pageReserve p 0).2 == 0 || (pageReserve p 0).1 == field p 0x11 1) && crcWithout p 0x1F8 == field p 0x1F8 8

/-- Reason 2 for page `k`: its header, and its place among the pages before it. -/
def pageOk (l : List Byte) (k : Nat) : Bool :=
  let p := imgPage l k
  let before := (List.range k).map (imgPage l)
  pageHeaderOk p && decide (pageDx p < imgWidth l ∧ pageDy p < imgHeight l) &&
  (before.all fun q => decide (pageIndex q < pageIndex p) && !(pageDx q == pageDx p && pageDy q == pageDy p))

/-- Reason 3 for a target entry: `rlt` is CD_RLTLEN. -/
def targetOk (w : Word) (ctx rlt : Nat) : Bool :=
  decide (wbits w 41 11 ≤ 1535) && wbits w 0 20 == 0 && (ctx == 7 || wbits w 37 3 == 0) &&
  (if wbit w 36 then wbits w 37 3 == 0 && decide (wbits w 20 16 < rlt) else wbits w 20 16 == 0)

/-- Reason 4 for a stream descriptor of a page. -/
def streamOk (p : List Byte) (k : Nat) : Bool :=
  let o := 0x200 + 32 * k
  let shape := field p (o + 8) 4
  let mode := field p (o + 0x0C) 1
  let unit := field p (o + 0x0D) 1
  let ctix := field p (o + 0x0E) 2
  field p (o + 7) 1 == 0 && decide (mode < 16) && decide (unit % 16 ≤ 14) && decide (ctix < 512) &&
  (if mode % 2 = 1 then mode / 2 % 4 == 0 && (Desc.of (BitVec.ofNat 64 shape)).wellFormed else shape == 0) &&
  ((List.range 4).all fun i => field p (o + 0x10 + 2 * i) 2 != 0) &&
  (unit / 16 == 0 || (decide (ctix < pageTargets p) && !wbit (pageTarget p ctix) 36))

/-- Reason 5: the feature bits and the power class of the page's `ent` words (R44, R50). -/
def pageSumsOk (p : List Byte) : Bool :=
  let ents := ((List.range (pageLen p)).map (pageCode p)).filter fun w => wbits w 56 8 == 0x40
  pageFeat p == ents.foldl (fun a w => a ||| wbits w 28 8) 0 && pagePcls p == ents.foldl (fun a w => Nat.max a (wbits w 24 4)) 0

/-- The first index of a range that fails. -/
def firstFail (n : Nat) (ok : Nat → Bool) : Option Nat := (List.range n).find? fun k => !ok k

/-! ### Pins (R215) -/

/-- The pages that hold a byte of any item that a descriptor can generate with a base offset of zero. -/
def StreamDesc.pages (d : StreamDesc) : List Nat :=
  ((List.range d.count).flatMap fun p =>
    let va := d.itemVa 0 p
    if va < 0 ∨ (2 : Int) ^ 56 < va + d.itemBytes then [] else pagesOf [(va.toNat, d.itemBytes)]).eraseDups

/-- Walk each page from a table root: none where a leaf is not valid. -/
def State.walkPages (s : State) (root : Nat) (l : List Nat) : Option (List Xlat) × State :=
  match l with
  | [] => (some [], s)
  | p :: r =>
    let (x, s) := s.walkFrom coordSite (p * 2 ^ 21) 0 root 4
    match x with
    | .leaf x =>
      let (y, s) := s.walkPages root r
      (y.map (x :: ·), s)
    | _ => (none, s)

/-- Pages in rising order. -/
def insertNat (a : Nat) (l : List Nat) : List Nat :=
  match l with
  | [] => [a]
  | b :: r => if a ≤ b then a :: b :: r else b :: insertNat a r

def sortNat (l : List Nat) : List Nat := l.foldl (fun a x => insertNat x a) []

/-- The extents that the descriptors of a page need: none where a walk fails. -/
def State.pinsOf (s : State) (root : Nat) (l : List (List Word)) : Option (List (Xlat × Nat)) × State :=
  match l with
  | [] => (some [], s)
  | d :: r =>
    let (x, s) := s.walkPages root (sortNat (StreamDesc.of d).pages)
    match x with
    | none => (none, s)
    | some x =>
      let (y, s) := s.pinsOf root r
      (y.map (runsOf x ++ ·), s)

def State.pagePins (s : State) (root : Nat) (p : List Byte) : Option (List (Xlat × Nat)) × State :=
  s.pinsOf root ((List.range (pageStreams p)).map (pageStream p))

/-! ### Data sections (R292 reason 11, R295) -/

/-- The pieces of a data section, when every page is valid and writable, in HBM, tile store or host memory. -/
def State.sectionPieces (s : State) (root va : Nat) (l : List Byte) : Option (List (Piece × List Byte)) × State :=
  let (x, s) := s.walkPages root (if 2 ^ 56 < va + l.length then [] else pagesOf [(va, l.length)])
  match x with
  | none => (none, s)
  | some x =>
    let cuts := cut (2 ^ 21) va l.length
    let out := cuts.map fun c =>
      (x.find? fun y => y.vpn == c.1 / 2 ^ 21 && y.w && (y.typ == 0 || y.typ == 2 || y.typ == 3)).map fun y =>
        (({ va := c.1, typ := y.typ, dev := 0, pa := y.frame * 2 ^ 21 + c.1 % 2 ^ 21, len := c.2 } : Piece), slice l (c.1 - va) c.2)
    (if out.all (·.isSome) then some (out.filterMap id) else none, s)

def State.allSections (s : State) (root : Nat) (l : List (Nat × List Byte)) : Option (List (Piece × List Byte)) × State :=
  match l with
  | [] => (some [], s)
  | d :: r =>
    let (x, s) := s.sectionPieces root d.1 d.2
    match x with
    | none => (none, s)
    | some x =>
      let (y, s) := s.allSections root r
      (y.map (x ++ ·), s)

/-! ### The checks of R292, in its order -/

/-- A refusal: reason, page index, entry or descriptor index. -/
abbrev Refused := Nat × Nat × Nat

/-- DETAIL of 0x0502: eight bits for the entry index, of which the low eight are kept (log entry 117). -/
def refusedDetail (r : Refused) : Nat := r.1 + r.2.1 % 2 ^ 16 * 2 ^ 8 + r.2.2 % 2 ^ 8 * 2 ^ 24

/-- Reasons 1 to 5 for an image, page by page within one reason. -/
def imageFails (l : List Byte) (ctx rlt : Nat) : Option Refused :=
  let n := imgPages l
  let pg (k : Nat) : List Byte := imgPage l k
  if !imageOk l ctx then some (1, 0, 0)
  else
    match firstFail n (pageOk l) with
    | some k => some (2, pageIndex (pg k), 0)
    | none =>
      let entry (k : Nat) : Option Refused :=
        (firstFail 320 fun t => targetOk (pageTarget (pg k) t) ctx rlt).map fun t => (3, pageIndex (pg k), t)
      let stream (k : Nat) : Option Refused :=
        (firstFail (pageStreams (pg k)) (streamOk (pg k))).map fun t => (4, pageIndex (pg k), t)
      match (List.range n).findSome? entry with
      | some r => some r
      | none =>
        match (List.range n).findSome? stream with
        | some r => some r
        | none => (firstFail n fun k => pageSumsOk (pg k)).map fun k => (5, pageIndex (pg k), 0)

/-- Reason 6: the first page whose pins fail. -/
def State.pinFails (s : State) (root : Nat) (l : List Byte) (ks : List Nat) : Option Refused × State :=
  match ks with
  | [] => (none, s)
  | k :: r =>
    let (x, s) := s.pagePins root (imgPage l k)
    match x with
    | some pins => if 48 < pins.length then (some (6, pageIndex (imgPage l k), 0), s) else s.pinFails root l r
    | none => (some (6, pageIndex (imgPage l k), 0), s)

/-- The fixed base of a record leaves the mesh (reason 10). -/
def baseFails (rec img : List Byte) : Bool :=
  let lim := if field rec 0x10 1 = 7 then (4, 4) else (64, 32)
  field rec 0x11 1 % 2 == 1 && decide (lim.1 < field rec 0x12 1 + imgWidth img ∨ lim.2 < field rec 0x13 1 + imgHeight img)

/-- What a placement has read: its record, descriptor address, descriptor and image. -/
structure PlaceRead where
  record : List Byte
  descPa : Nat
  desc : List Byte
  img : List Byte
  deriving DecidableEq, Repr

/-- Read `n` bytes of HBM for the coordinator; none when they are not HBM or are uncorrectable. -/
def State.readHbm (s : State) (pa n : Nat) : Option (List Byte) × State :=
  if s.isHbm pa && s.isHbm (pa + n - 1) then
    let (q, s) := s.takeSeq
    let (l, s) := s.readRun (sysAgent coordSite q) pa n 64
    (if l.bad.isEmpty then some l.bytes else none, s)
  else (none, s)

/-- The images that a launch of the table needs (R286, R295). -/
def PagerState.inUse (p : PagerState) (key : Nat) : Bool := p.launches.any fun l => l.2.imageKey == key

/-- The bytes of the images in a configuration cache. -/
def cacheSize (c : Tbl CachedImage) : Nat := (c.map fun x => x.2.bytes.length).foldl (· + ·) 0

/-- Make room for `n` more bytes in the 64 MiB of a configuration cache: images that no launch needs go, those first fetched first (R11;
log entry 118). None when that is not enough. -/
def PagerState.cacheRoom (p : PagerState) (n fuel : Nat) : Option (Tbl CachedImage) :=
  if cacheSize p.cache + n ≤ 2 ^ 26 then some p.cache
  else
    match fuel with
    | 0 => none
    | fuel + 1 =>
      match p.cache.find? fun x => !p.inUse x.1 with
      | none => none
      | some x => ({ p with cache := p.cache.filter fun y => y.1 != x.1 } : PagerState).cacheRoom n fuel

/-- An image comes into the cache; none when there is no room for it. -/
def PagerState.keepImage (p : PagerState) (img : List Byte) : Option PagerState :=
  if Tbl.has p.cache (imageKey img) then some p
  else (p.cacheRoom img.length p.cache.length).map fun c => { p with cache := Tbl.set c (imageKey img) { bytes := img } }

/-- Read what R291 names, and make the checks of R292. An image for which the cache has no room is refused with reason 1 (log entry
118). -/
def State.placeChecks (s : State) (h recPa : Nat) : Except Refused PlaceRead × State :=
  let (r, s) := if recPa % 64 = 0 then s.readHbm recPa 64 else (none, s)
  match r with
  | none => (.error (7, 0, 0), s)
  | some rec =>
    let dpa := field rec 8 8
    let (d, s) := if dpa % 64 = 0 then s.readHbm dpa 64 else (none, s)
    match d with
    | none => (.error (7, 0, 0), s)
    | some desc =>
      let asid := h / 2 ^ 20
      if !recordOk rec || !s.descriptorOk desc || field desc 0 2 != asid then (.error (7, 0, 0), s)
      else if (s.launch? h).isSome then (.error (8, 0, 0), s)
      else if (match Tbl.get? s.pager.binds asid with | some b => b.pa != dpa | none => false) then (.error (9, 0, 0), s)
      else
        let ipa := field rec 0 8
        let (hd, s) := s.readHbm ipa 64
        let len := match hd with | some x => imgLength x | none => 0
        let known := hd.bind fun x => Tbl.get? s.pager.cache (imageKey x)
        let (im, s) := match known with
          | some x => (some x.bytes, s)
          | none => if 64 ≤ len then s.readHbm ipa len else (none, s)
        match im with
        | none => (.error (1, 0, 0), s)
        | some img =>
          let root := field desc 8 8
          if (s.pager.keepImage img).isNone then (.error (1, 0, 0), s)
          else
          match imageFails img (field rec 0x10 1) (field desc 4 4) with
          | some x => (.error x, s)
          | none =>
            let (x, s) := s.pinFails root img (List.range (imgPages img))
            match x with
            | some x => (.error x, s)
            | none =>
              if baseFails rec img then (.error (10, 0, 0), s)
              else
                let (x, s) := s.allSections root ((List.range (imgData img)).map (imgSection img))
                match x with
                | none => (.error (11, 0, 0), s)
                | some _ => (.ok { record := rec, descPa := dpa, desc := desc, img := img }, s)

end Sys2Proof.Machine
end

