-- ==== Sys2Proof/Machine/Placing.lean ====
section
/-! DEFINITION. Placement: power (R298), conforming sites (R293), the base search (R294), loading and leaving sites (R295, R308), and
the configuration-complete wave (R295, R296). -/
namespace Sys2Proof.Machine

/-! ### Power (R298) -/

/-- The reserved draw of a page by PH_PCLS, in mW. -/
def pageDraw (pcls : Nat) : Nat := match pcls with | 0 => 0 | 1 => 120 | 2 => 350 | 3 => 620 | _ => 700

/-- RESV of a compute die: the draw of every page placed on it. -/
def State.resv (s : State) (die : Nat) : Nat :=
  s.sites.foldl
    (fun a x =>
      if dieOf x.1 = die then
        a + (x.2.ctxs.map fun k => match k.2.page with | some p => pageDraw p.pcls | none => 0).foldl (· + ·) 0
      else a)
    0

def State.claimOf (s : State) (die : Nat) : Nat := Tbl.getD s.pager.claim die 0

def State.budgetOf (s : State) (die : Nat) : Nat := Tbl.getD s.pager.budget die 170000

/-- The mW by which a die would exceed its budget with `mw` more. -/
def State.powerShort (s : State) (die mw : Nat) : Nat := s.resv die + s.claimOf die + mw - s.budgetOf die

/-! ### What a launch would load -/

/-- A page of a launch with its position and its pins. -/
structure Plan where
  dx : Nat
  dy : Nat
  page : Page
  pins : List (Xlat × Nat)
  deriving DecidableEq, Repr

def State.plansFrom (s : State) (root : Nat) (img : List Byte) (ks : List Nat) : Option (List Plan) × State :=
  match ks with
  | [] => (some [], s)
  | k :: r =>
    let p := imgPage img k
    let (x, s) := s.pagePins root p
    match x with
    | none => (none, s)
    | some pins =>
      let (y, s) := s.plansFrom root img r
      (y.map ({ dx := pageDx p, dy := pageDy p, page := pageOf p, pins := pins } :: ·), s)

/-- The pages of a launch, with the extents that their descriptors need now: none where a walk fails. -/
def State.plans (s : State) (l : Launch) : Option (List Plan) × State :=
  let img := s.image l
  s.plansFrom (s.cdField l.asid 8 8) img (List.range (imgPages img))

/-! ### Conforming (R293, R310) -/

/-- Set aside frames from the pool for a reserve level: none when the pool cannot supply them (R100). -/
def SeqUnit.setAside (q : SeqUnit) (c level cls count : Nat) : Option SeqUnit :=
  match count with
  | 0 => some q
  | k + 1 =>
    match q.poolFrame cls with
    | none => none
    | some fp => ({ q with reserved := Tbl.set q.reserved fp { ctx := c, level := level, cls := cls } }).setAside c level cls k

/-- Set aside the reserves of a page, less `used` frames of each level. -/
def SeqUnit.setAsideAll (q : SeqUnit) (c : Nat) (l : List (Nat × Nat × Nat)) : Option SeqUnit :=
  match l with
  | [] => some q
  | (level, cls, count) :: r =>
    match q.setAside c level cls count with
    | none => none
    | some q => q.setAsideAll c r

/-- The reserve levels of a page: level, class, count. -/
def Page.levels (p : Page) : List (Nat × Nat × Nat) := p.reserve.zipIdx.map fun x => (x.2, x.1.1, x.1.2)

/-- How a base suits a launch. -/
inductive Fit where
  | ok
  /-- power alone is wanting: the die, and the mW short -/
  | power (die short : Nat)
  /-- feature bits alone are wanting -/
  | feat (bits : Nat)
  | no
  deriving DecidableEq, Repr

def State.pinned (s : State) (n : Nat) : Nat := ((s.site n).port.ext.filter fun e => e.2.pin).length

/-- Feature bits that a page lacks at a site; a twin's copies need bit 4 as well. -/
def State.lacks (s : State) (n : Nat) (p : Page) (twin : Bool) : Nat :=
  let need : BitVec 8 := p.feat ||| (if twin then 16 else 0)
  (need &&& ~~~((s.site n).feat.setWidth 8)).toNat

/-- The die of a site has returned from its reset, and may take pages (R436, R439). -/
def State.dieReady (s : State) (n : Nat) : Bool :=
  !s.pkg.wiping.contains (dieOf n) && !(decide (dieOf n < 8) && s.pkg.recov.getLsbD (dieOf n))

/-- A site suits a page but for feature bits and power. -/
def State.suits (s : State) (n c : Nat) (p : Plan) : Bool :=
  let x := s.site n
  s.dieReady n && !(decide (2 ≤ p.page.pcls) && x.mx.owner.isSome) &&
  decide (s.pinned n + p.pins.length ≤ 48) && (x.seq.setAsideAll c p.page.levels).isSome

/-- The pages of a launch at the sites that its bases give them, one base for each copy. -/
def Launch.placedAt (l : Launch) (plans : List Plan) (bs : List (Nat × Nat × Nat)) : List (Nat × Plan) :=
  bs.flatMap fun b => plans.filterMap fun p => (l.siteIn b p.dx p.dy).map fun n => (n, p)

/-- Feature bits that are wanting at the sites of a launch: those of its pages, and bit 4 at every site of a twin (R293, R315). -/
def State.missing? (s : State) (l : Launch) (plans : List Plan) (twin : Bool) (bs : List (Nat × Nat × Nat)) : Nat :=
  let four (n : Nat) : Nat := ((16 : BitVec 8) &&& ~~~((s.site n).feat.setWidth 8)).toNat
  let miss := if twin then (bs.flatMap l.sitesAt).foldl (fun a n => a ||| four n) 0 else 0
  (l.placedAt plans bs).foldl (fun a x => a ||| s.lacks x.1 x.2.page twin) miss

/-- The first die that does not admit the draw of all these pages together (R298): the die, and the mW short. -/
def State.overdrawn (s : State) (placed : List (Nat × Plan)) : Option (Nat × Nat) :=
  ((placed.map fun x => dieOf x.1).eraseDups.filter (· < 8)).findSome? fun d =>
    let mw := (placed.map fun x => if dieOf x.1 = d then pageDraw x.2.page.pcls else 0).foldl (· + ·) 0
    if s.powerShort d mw = 0 then none else some (d, s.powerShort d mw)

/-- The copies of a launch lie on sites of their own, whose slots are free. -/
def State.slotsFree (s : State) (l : Launch) (bs : List (Nat × Nat × Nat)) : Bool :=
  let sites := bs.flatMap l.sitesAt
  (sites.all fun n => (s.slot? n l.ctx).isNone) && sites.eraseDups.length == sites.length

/-- How bases suit the pages of a launch, one base for each copy that is placed now. -/
def State.fit (s : State) (l : Launch) (plans : List Plan) (twin : Bool) (bs : List (Nat × Nat × Nat)) : Fit :=
  let placed := l.placedAt plans bs
  if !s.slotsFree l bs || !(placed.all fun x => s.suits x.1 l.ctx x.2) then .no
  else
    match s.missing? l plans twin bs, s.overdrawn placed with
    | 0, none => .ok
    | 0, some x => .power x.1 x.2
    | m, none => .feat m
    | _, some _ => .no

/-! ### The base search (R294, R315) -/

/-- The bases tried for a launch, in order. -/
def Launch.bases (l : Launch) : List (Nat × Nat × Nat) :=
  match l.fixed with
  | some (x, y) => if !l.sys then [(x, y, 0)] else if l.pinIo then [(x, y, l.io)] else [(x, y, 0), (x, y, 1)]
  | none =>
    if l.sys then
      [0, 1].flatMap fun d => (List.range (5 - l.h)).flatMap fun y => (List.range (5 - l.w)).map fun x => (x, y, d)
    else (List.range (33 - l.h)).flatMap fun y => (List.range (65 - l.w)).map fun x => (x, y, 0)

/-- The bases tried for copy 1: first those on other dies than copy 0's, then any that does not overlap it (R315). -/
def Launch.twinBases (l : Launch) : List (Nat × Nat × Nat) :=
  let home := l.sites
  let dies := home.map dieOf
  let all := { l with fixed := none }.bases
  let apart (b : Nat × Nat × Nat) : Bool := (l.sitesAt b).all fun n => !dies.contains (dieOf n)
  let clear (b : Nat × Nat × Nat) : Bool := (l.sitesAt b).all fun n => !home.contains n
  all.filter apart ++ all.filter fun b => !apart b && clear b

/-- What a search finds: the first base that suits, else what the failing bases lacked. -/
structure Found where
  base : Option (Nat × Nat × Nat)
  power : Option (Nat × Nat)
  feat : Option Nat
  deriving DecidableEq, Repr

/-- Try bases in turn. `with_` are the bases of copies that are placed at the same time. -/
def State.search (s : State) (l : Launch) (plans : List Plan) (twin : Bool) (with_ : List (Nat × Nat × Nat)) (bs : List (Nat × Nat × Nat)) :
    Found :=
  match bs with
  | [] => { base := none, power := none, feat := none }
  | b :: r =>
    match s.fit l plans twin (b :: with_) with
    | .ok => { base := some b, power := none, feat := none }
    | .power d k => let x := s.search l plans twin with_ r; { x with power := some (d, k) }
    | .feat m => let x := s.search l plans twin with_ r; { x with feat := some m }
    | .no => s.search l plans twin with_ r

/-! ### Loading (R295 step 2) -/

/-- A target entry of a context 0–6 graph takes the context of the placement (R41). -/
def placedTarget (w : Word) (c : Nat) : Word := if c = 7 then w else withCtx w c

/-- Take context slot `c` at one site of a region; with a page, its reserves, pins and MX_OWNER. `cist` is the site's cistern slice. -/
def State.loadSite (s : State) (h : Nat) (l : Launch) (b : Nat × Nat × Nat) (n : Nat) (plan : Option Plan) (cist len : Nat)
    (levels : List (Nat × Nat × Nat)) : State :=
  let page := plan.map fun p => { p.page with targets := p.page.targets.map fun w => placedTarget w l.ctx }
  let slot : CtxSlot :=
    { asid := l.asid, handle := h, bx := b.1, by_ := b.2.1, w := l.w, h := l.h, page := page, held := true, frozen := false, csw := false,
      captured := [], stopped := [] }
  let s := s.modSite n fun x => { x with ctxs := Tbl.set x.ctxs l.ctx slot, counts := Tbl.erase x.counts l.ctx }
  let s := s.modPort n fun p =>
    { p with
      cistBase := Tbl.set p.cistBase (l.asid * 8 + l.ctx) cist
      cistLen := Tbl.set p.cistLen (l.asid * 8 + l.ctx) len
      cistAsid := Tbl.set p.cistAsid l.ctx l.asid }
  match plan with
  | none => s
  | some p =>
    let s := s.modSeq n fun q => (q.setAsideAll l.ctx levels).getD q
    let s := p.pins.foldl (fun s x => s.install n l.ctx x.1 x.2 true) s
    if 2 ≤ p.page.pcls then s.modMx n fun m => { m with owner := some l.ctx } else s

/-- Load a launch at a base. `used` gives, for a site, the reserve frames of each level that a restored image already holds. -/
def State.load (s : State) (h : Nat) (l : Launch) (plans : List Plan) (b : Nat × Nat × Nat) (copy : Bool) (used : Nat → Nat → Nat) : State :=
  let len := s.cdField l.asid 0x2C 2
  let cist := s.cdField l.asid 0x30 8
  (l.sitesAt b).zipIdx.foldl
    (fun s x =>
      let plan := plans.find? fun p => l.siteIn b p.dx p.dy == some x.1
      let levels := match plan with
        | some p => p.page.levels.map fun v => (v.1, v.2.1, v.2.2 - used x.2 v.1)
        | none => []
      s.loadSite h l b x.1 plan (cist + 32 * x.2 * len) (if copy then 0 else len) levels)
    s

/-- The weight-store banks that the tables of placed contexts map for reading (R212). -/
def State.mappedBanks (s : State) : List Nat :=
  let keys := (s.sites.flatMap fun x => x.2.ctxs.map fun k => s.linkKey k.1 k.2.asid).eraseDups
  (keys.flatMap fun k => (s.leavesOf k).filterMap leafBank?).eraseDups

/-- MP_WSBUSY of every die follows the tables of the placed contexts, at placements and as the pager meets changes of them. -/
def State.refreshBusy (s : State) : State :=
  let l := s.mappedBanks
  let of (d : Nat) : BitVec 16 := (l.filter fun b => b / 16 == d).foldl (fun a b => a ||| BitVec.ofNat 16 (2 ^ (b % 16))) 0
  { s with mem := { s.mem with wsBusy := (List.range 8).foldl (fun t d => Tbl.put t d (of d) 0) s.mem.wsBusy } }

/-- Write the data sections of an image as the placed context (R295 step 3, R233, R296). -/
def State.writeSections (s : State) (c : Nat) (l : List (Piece × List Byte)) : State :=
  l.foldl
    (fun s p =>
      let (q, s) := s.takeSeq
      let g := sysAgent coordSite q
      if p.1.typ = 2 then (s.writeLanding g c p.1 p.2).1 else s.writePiece g p.1 p.2)
    s

/-- Give a launch its base: load it, bump the generation of an ASID of which no other launch is resident (R92, R295 steps 2 to 4). -/
def State.settleAt (s : State) (h : Nat) (l : Launch) (plans : List Plan) (b : Nat × Nat × Nat) (data : Bool) (used : Nat → Nat → Nat) : State :=
  let l := { l with bx := b.1, by_ := b.2.1, io := b.2.2 }
  let other := s.otherResident h l.asid
  let s := (s.setLaunch h l).load h l plans b false used
  let s := match l.twin with
    | some t => s.load h l plans t true used
    | none => s
  let s := s.refreshBusy
  let s := if data then
      let img := s.image l
      let (x, s) := s.allSections (s.cdField l.asid 8 8) ((List.range (imgData img)).map (imgSection img))
      s.writeSections l.ctx (x.getD [])
    else s
  if other then s else s.bumpGen l.asid

/-! ### Leaving the sites (R298, R308) -/

/-- Everything that a launch holds at one site goes but its tiles and frames: the page, the pins, the reserves, MX_OWNER. -/
def State.leaveSite (s : State) (c n : Nat) : State :=
  let s := s.modPort n fun p => { p with ext := p.ext.filter fun e => e.2.ctx != c }
  let s := s.modMx n fun m => if m.owner = some c then { m with owner := none } else m
  let s := s.modSeq n fun q => { q with reserved := q.reserved.filter fun p => p.2.ctx != c }
  s.modSite n fun x => { x with ctxs := Tbl.erase x.ctxs c }

def State.leave (s : State) (l : Launch) (sites : List Nat) : State := (sites.foldl (fun s n => s.leaveSite l.ctx n) s).refreshBusy

/-- Take a launch off one set of its sites without a save: discarded, freed and gone (R312, R323). -/
def State.vacateNow (s : State) (l : Launch) (sites : List Nat) : State :=
  (sites.foldl (fun s n => (s.discardAt n l.ctx).dropWalks n l.ctx) s).leave l sites

/-- A link cache keeps no entry of a binding that has ended (R287, R297; log entry 112). -/
def SeqUnit.dropLinks (q : SeqUnit) (key : Nat) : SeqUnit := { q with links := q.links.filter fun x => x.1 != key }

/-- The binding of an ASID ends with its last launch (R287). -/
def State.unbind (s : State) (asid : Nat) : State :=
  if s.pager.launches.any fun p => p.2.asid == asid then s
  else
    let s := s.modPager fun p => { p with binds := Tbl.erase p.binds asid }
    let s := { s with sites := s.sites.map fun (x : Nat × Site) => (x.1, { x.2 with seq := x.2.seq.dropLinks asid }) }
    { s with coll := { s.coll with groups := s.coll.groups.filter fun g => g.asid != asid } }

/-! ### Reloading what a die reset has taken (R312 step 3, R437) -/

/-- The sites of a launch that no longer hold its context slot. -/
def State.missing (s : State) (l : Launch) : List Nat := l.allSites.filter fun n => (s.slot? n l.ctx).isNone

/-- Their dies have returned (R436, R439). -/
def State.reloadable (s : State) (l : Launch) : Bool :=
  (s.missing l).all s.dieReady

/-- Load the configuration again where it is missing; the walks of its pins may fail, and then nothing is loaded. -/
def State.reloadConfig (s : State) (h : Nat) (l : Launch) : State :=
  if (s.missing l).isEmpty || !s.reloadable l then s
  else
    let (x, s) := s.plans l
    match x with
    | none => s
    | some plans =>
      let len := s.cdField l.asid 0x2C 2
      let cist := s.cdField l.asid 0x30 8
      let at_ (copy : Bool) (b : Nat × Nat × Nat) (s : State) : State :=
        (l.sitesAt b).zipIdx.foldl
          (fun s x =>
            if (s.slot? x.1 l.ctx).isSome then s
            else
              let plan := plans.find? fun p => l.siteIn b p.dx p.dy == some x.1
              s.loadSite h l b x.1 plan (cist + 32 * x.2 * len) (if copy then 0 else len)
                (match plan with | some p => p.page.levels | none => []))
          s
      let s := at_ false l.base0 s
      (match l.twin with | some b => at_ true b s | none => s).refreshBusy

/-! ### The configuration-complete wave (R92, R295, R296) -/

/-- The wave passes a site: a fence of MEM against every path for the context, and the hold is released. -/
def State.waveAt (s : State) (c n : Nat) : State :=
  let (q, s) := s.takeSeq
  let f : FenceRec :=
    { seq := q, site := n, ctx := c, asid := s.asidOf n c, bef := 8, aft := 0xFF, obs := s.observers n c (s.asidOf n c) 5, deps := [], req := none }
  { s with fences := s.fences ++ [f] }.modCtx n c fun k => { k with held := false }

def State.wave (s : State) (l : Launch) (sites : List Nat) : State := sites.foldl (fun s n => s.waveAt l.ctx n) s

/-- The registers that a replay starts from, by site (R184, R309). -/
def State.snapRegs (s : State) (c n : Nat) : SiteSnap :=
  { regs := s.cregs n c, toks := [], gens := [], sopens := [], allocQ := [], parkedDeps := [], csw := false }

def State.snapAll (s : State) (c : Nat) (sites : List Nat) : Tbl SiteSnap := sites.foldl (fun t n => Tbl.set t n (s.snapRegs c n)) []

/-- New replay points for the streams of a context at a site (R231). -/
def State.newReplayPoint (s : State) (c n : Nat) : State :=
  let point (g : Nat × StreamRun) : Nat × StreamRun :=
    if g.2.who.ctx = c then (g.1, { g.2 with replayPos := g.2.pos }) else g
  s.modPort n fun p =>
    { p with gens := p.gens.map point, wins := p.wins.filter fun w => w.1 / 32 != c }

end Sys2Proof.Machine
end

