-- ==== Sys2Proof/Machine/Seeds.lean ====
section
/-! DEFINITION. Seeds and link tokens: their queues, their release into a launch (R28, R31, R289, R301) and the region links (R297). -/
namespace Sys2Proof.Machine

/-- The copies of a launch by their bases (R315). -/
def Launch.copies (l : Launch) : List (Nat × Nat × Nat) := l.base0 :: (match l.twin with | some b => [b] | none => [])

/-- The sources of a launch run: seeds and link tokens may enter it (R301, R307). -/
def Launch.open_ (l : Launch) : Bool := (l.state == .idle || l.state == .running) && l.freeze.isNone

/-! ### The seed log (R287, R301, R313) -/

/-- A seed as the 32 B record of R410. -/
def Seed.record (h : Nat) (x : Seed) : List Byte :=
  toBytes h 4 ++ toBytes x.entry 2 ++ toBytes (2 * b2n x.ctl + 4 * b2n x.psn) 2 ++ toBytes x.itn.toNat 2 ++ toBytes 0 6 ++
  toBytes x.payload.toNat 8 ++ toBytes 0 8

/-- Append what is released to the seed log while the replay base is valid; the 65th makes it invalid (R301). -/
def State.logRelease (s : State) (h : Nat) (x : Released) : State :=
  match s.launch? h with
  | none => s
  | some l =>
    if l.base = .none then s
    else if 64 ≤ l.log.length then s.setLaunch h { l with base := .none, logOver := true }
    else
      let bytes := match x with
        | .seed x => x.record h
        | .token _ => (List.range 32).map (Config.unstatedByte s.free)
      let s := s.sysWrite coordSite (s.cdField l.asid 0x38 8 + 32 * l.log.length) bytes
      s.bumpFree.setLaunch h { l with log := l.log ++ [x] }

/-! ### Release (R28, R31, R301) -/

/-- A run starts: its rank-4 ends are counted from zero (R289, R302). -/
def State.startRun (s : State) (h : Nat) (l : Launch) : State :=
  let zero (s : State) (n : Nat) : State :=
    s.modSite n fun x => { x with counts := Tbl.set x.counts l.ctx { Tbl.getD x.counts l.ctx Counters.zero with eos4 := 0 } }
  (l.allSites.foldl zero s).setLaunch h { l with state := .running, inRun := true, eosBase := 0, quiet := none }

/-- A run starts when something is released into an IDLE launch. -/
def State.startIfIdle (s : State) (h : Nat) : State :=
  match s.launch? h with
  | some l => if l.state = .idle then s.startRun h l else s
  | none => s

/-- The token of a seed for its entry. -/
def Seed.token (x : Seed) (e : Entry) (c : Nat) : Token :=
  { e.token (if x.ctl then 1 else 0) x.psn e.port 0 x.itn x.payload with ctx := BitVec.ofNat 3 c }

/-- Send a seed into one copy from the I/O die at which it arrived (R28): its frame is a request of reserve level 0 at the entry site
(R31, R100). -/
def State.seedInto (s : State) (l : Launch) (x : Seed) (b : Nat × Nat × Nat) : State :=
  let e := Entry.of (imgEntry (s.image l) x.entry)
  match l.siteIn b e.dx.toNat e.dy.toNat with
  | none => s
  | some n =>
    let t := x.token e l.ctx
    let f : Flight :=
      { tok := t, src := 2048 + 16 * x.io, dst := n, vn := vnetOf t.cls, org := engineOrigin, deps := s.prune x.deps, asid := l.asid,
        gen := (s.gen l.asid).toNat, step := false }
    let s := s.countSent n l.ctx
    match s.page? n l.ctx with
    | none => s.sendOff f
    | some p =>
      let r : FrameReq := { ctx := l.ctx, cls := p.seedCls, level := 0, useRes := true, what := .seed f }
      s.modSeq n fun q => { q with allocQ := q.allocQ ++ [r] }

/-- A batch seed has been delivered into its launch: its page retires at the end of the present run (R361). -/
def State.markBatch (s : State) (h : Nat) (l : Launch) (tag : Option Nat) : State :=
  match tag with
  | none => s
  | some p =>
    let f (r : Replica) : Replica :=
      if r.handle = h then { r with redo := r.redo.map fun x => if x.1 = p then (p, l.runs + 1) else x } else r
    { s with xp := { s.xp with reps := s.xp.reps.map fun r => (r.1, f r.2) } }

/-- Release a seed into an IDLE or RUNNING launch, into both copies of a twin. -/
def State.releaseSeed (s : State) (h : Nat) (x : Seed) : State :=
  let s := s.startIfIdle h
  match s.launch? h with
  | none => s
  | some l => ((l.copies.foldl (fun s b => s.seedInto l x b) s).logRelease h (.seed x)).markBatch h l x.tag

/-- A link token as the linked launch receives it in one copy: DX, DY, IP and PORT of its entry, the launch's context (R297). -/
def State.linkInto (s : State) (l : Launch) (f : Flight) (b : Nat × Nat × Nat) : State :=
  match l.siteIn b f.tok.dx.toNat f.tok.dy.toNat with
  | none => s
  | some n =>
    let g : Flight :=
      { f with tok := { f.tok with ctx := BitVec.ofNat 3 l.ctx }, dst := n, asid := l.asid, gen := (s.gen l.asid).toNat }
    let s := s.countSent n l.ctx
    { s with mesh := s.mesh ++ [g] }

def State.releaseLink (s : State) (h : Nat) (f : Flight) : State :=
  let s := s.startIfIdle h
  match s.launch? h with
  | none => s
  | some l => (l.copies.foldl (fun s b => s.linkInto l f b) s).logRelease h (.token f)

/-! ### Arrival at a launch (R289) -/

/-- An evicted launch is placed again, from its empty image, or resumed from its saved one (R289). -/
def State.recall (s : State) (h : Nat) (req : Option SysReq) : State :=
  match s.launch? h with
  | none => s
  | some l =>
    let w : WaitPlace := { what := if l.saved then .resume else .place, handle := h, req := none, data := false, denied := false }
    let l := { l with state := if l.saved then .resuming else .placing,
                      replies := l.replies ++ (match req with | some r => [r] | none => []) }
    (s.setLaunch h l).modPager fun p => { p with waiting := p.waiting ++ [w] }

/-- A seed arrives: released, queued, or discarded by a FAILED launch. None while the seed queue is full (R301). -/
def State.acceptSeed (s : State) (h : Nat) (l : Launch) (x : Seed) : Option State :=
  if l.state = .failed then some (s.launchFault l 0x050A x.entry)
  else if l.open_ && l.seeds.isEmpty then some (s.releaseSeed h x)
  else if 64 ≤ l.seeds.length then none
  else
    let s := s.setLaunch h { l with seeds := l.seeds ++ [x] }
    some (if l.state = .evicted then s.recall h none else s)

/-- A link token arrives, likewise; its queue holds 256 (R286, R297). -/
def State.acceptLink (s : State) (h : Nat) (l : Launch) (f : Flight) : Option State :=
  if l.state = .failed then some (s.launchFault l 0x050A 0)
  else if l.open_ && l.links.isEmpty then some (s.releaseLink h f)
  else if 256 ≤ l.links.length then none
  else
    let s := s.setLaunch h { l with links := l.links ++ [f] }
    some (if l.state = .evicted then s.recall h none else s)

/-- SEED_RELEASE: the launch is IDLE or RUNNING: the seed at the head of its queue enters it, or else the first link token (R301). -/
def execSeedRelease (h : Nat) (s : State) : Out :=
  match s.launch? h with
  | none => .next s
  | some l =>
    if !l.open_ then .next s
    else
      match l.seeds, l.links with
      | x :: r, _ => .next ((s.setLaunch h { l with seeds := r }).releaseSeed h x)
      | [], f :: r => .next ((s.setLaunch h { l with links := r }).releaseLink h f)
      | [], [] => .next s

/-! ### Region links (R297) -/

/-- A link that cannot be used: the token is discarded, and the sender's ring takes 0x050B. -/
def State.linkRefused (s : State) (f : LinkFlight) (e : Word) : State :=
  s.logFault { Who.zero with site := f.src, ctx := f.sctx, asid := f.asid } 0x050B e.toNat

/-- Route a token by its region-link entry; to another device it travels as a SYS message (R407). None while the linked launch's queue on
this device is full. -/
def State.routeLink (s : State) (f : LinkFlight) : Option State :=
  let e := f.entry
  match linkTo e with
  | none => some (s.linkRefused f e)
  | some (dev, h) =>
    if !s.isSelf dev then
      if s.reachable dev then
        let refused := (Config.peerCode s.free).toNat != 0
        let s := (s.sendPod dev 5 (.token dev h f.tok)).bumpFree
        some (if refused then s.linkRefused f e else s)
      else some (((s.podMet [dev]).linkRefused f e).linkFault f.src 0x0903 dev)
    else
      match s.launch? h with
      | none => some (s.linkRefused f e)
      | some l =>
        if l.asid ≠ f.asid ∨ l.w ≤ f.tok.dx.toNat ∨ l.h ≤ f.tok.dy.toNat then some (s.linkRefused f e)
        else
          s.acceptLink h l
            { tok := f.tok, src := f.src, dst := 0, vn := vnetOf f.tok.cls, org := f.org, deps := f.deps, asid := l.asid, gen := 0,
              step := false, num := f.num }

/-! ### Twin exits (R316) -/

/-- The twin launch of which a context at a site is a part, when both its copies run: handle, copy, position in the region. -/
def State.twinAt (s : State) (n c : Nat) : Option (Nat × Bool × Nat) :=
  match s.slot? n c with
  | none => none
  | some k =>
    match s.launch? k.handle with
    | none => none
    | some l =>
      match l.twin with
      | none => none
      | some b =>
        match l.sites.findIdx? (· == n), (l.sitesAt b).findIdx? (· == n) with
        | some i, _ => some (k.handle, false, i)
        | none, some i => some (k.handle, true, i)
        | none, none => none

/-- The sequence number of an exit, by launch, copy, position and class; classes 0 to 15 are alias classes, 16 to 19 those of
tokens. -/
def twinKey (h : Nat) (copy : Bool) (pos cls : Nat) : Nat := ((h * 2 + b2n copy) * 4096 + pos) * 32 + cls

/-- An exit waits at its port for its partner. -/
def State.twinExit (s : State) (h : Nat) (copy : Bool) (pos cls digest : Nat) (what : ExitWhat) : State :=
  let k := twinKey h copy pos cls
  let num := Tbl.getD s.pager.twinNums k 0
  let x : TwinExit :=
    { handle := h, copy := copy, pos := pos, cls := cls, num := num, digest := digest, what := what, since := some s.clk }
  s.modPager fun p => { p with twins := p.twins ++ [x], twinNums := Tbl.set p.twinNums k (num + 1) }

/-- The digest of an exit: position, class, address, mask, data, iteration (R316). -/
def twinDigest (pos cls addr mask : Nat) (data : List Byte) (itn : Nat) : Nat :=
  crc64 (toBytes pos 8 ++ toBytes cls 8 ++ toBytes addr 8 ++ toBytes mask 8 ++ data ++ toBytes itn 2)

/-- The digest of a token: its destination is the address, its header's other fields and payload the data. -/
def LinkFlight.digest (f : LinkFlight) (pos : Nat) : Nat :=
  let t := f.tok
  twinDigest pos (16 + t.cls.toNat) (f.link * 2 ^ 24 + t.dx.toNat * 2 ^ 18 + t.dy.toNat * 2 ^ 12 + t.ip.toNat * 2 + b2n t.port) (b2n t.psn)
    (toBytes t.payload.toNat 8) t.itn.toNat

/-! ### Order on the mesh (R26, R446) -/

/-- The tokens still on their way to the region-link table, those at the comparator among them. -/
def State.linkTokens (s : State) : List LinkFlight :=
  s.pager.links ++ s.pager.twins.filterMap fun x => match x.what with | .token f => some f | .req _ => none

/-- The sites of this device that a link token will go to when it is routed now. -/
def State.linkSites (s : State) (f : LinkFlight) : List Nat :=
  match linkTo f.entry with
  | none => []
  | some (dev, h) =>
    match s.launch? h with
    | none => []
    | some l => if s.isSelf dev then l.copies.filterMap fun b => l.siteIn b f.tok.dx.toNat f.tok.dy.toNat else []

/-- Flight `i` can leave the mesh: no token sent before it from its source to its destination on its network is still on its way (R26),
a link token that goes to the same site among them. -/
def State.canEject (s : State) (i : Nat) : Bool :=
  match s.mesh[i]? with
  | none => false
  | some f =>
    !f.here &&
    !(s.mesh.any fun g => !g.here && g.src == f.src && g.dst == f.dst && g.vn == f.vn && decide (g.num < f.num)) &&
    !(s.linkTokens.any fun g =>
      g.src == f.src && vnetOf g.tok.cls == f.vn && decide (g.num < f.num) && (s.linkSites g).contains f.dst)

/-- Flight `i` joins the ejection queue of its network at its site, behind those that stand there. -/
def State.eject (s : State) (i : Nat) : State :=
  match s.mesh[i]? with
  | none => s
  | some f => if s.canEject i then { s with mesh := listDrop1 s.mesh i ++ [{ f with here := true }] } else s

/-- LINK_TOKEN_ROUTE: token `i` of those on their way to the region-link table, unless an earlier one of its site and entry is. A
token of a twin waits at the comparator first. -/
def execLinkTokenRoute (i : Nat) (s : State) : Out :=
  match s.pager.links[i]? with
  | none => .next s
  | some f =>
    if (s.pager.links.take i).any fun g => g.src == f.src && g.link == f.link then .next s
    else
      let rest := s.modPager fun p => { p with links := listDrop1 p.links i }
      match s.twinAt f.src f.sctx with
      | some (h, copy, pos) =>
        if 64 ≤ (s.pager.twins.filter fun x => x.handle == h && x.copy == copy && x.pos == pos).length then .next s
        else .next (rest.twinExit h copy pos (16 + f.tok.cls.toNat) (f.digest pos) (.token f))
      | none => .next ((rest.routeLink f).getD s)

end Sys2Proof.Machine
end

