-- ==== Sys2Proof/Machine/Save.lean ====
section
/-! DEFINITION. Save segments (R287, R308): their records written and read back, and a context restored at a site (R234, R310). Fields
for which R308 gives no width take 8 B (log entry 35). -/
namespace Sys2Proof.Machine

/-! ### Records (R308) -/

def saveRecord (typ : Nat) (body : List Byte) : List Byte := toBytes typ 2 ++ toBytes 0 2 ++ toBytes body.length 4 ++ body

def tokenRecord (place : Nat) (t : Token) : List Byte :=
  saveRecord 1 (toBytes t.hdr.toNat 8 ++ toBytes t.payload.toNat 8 ++ toBytes place 8)

/-- A frame slot's side bits as `ldf.side` shows them (R94, R145). -/
def Slot.side (v : Slot) : Word := fieldsWord [(0, b2n v.pres), (1, b2n v.psn), (2, b2n v.port), (16, v.stamp.toNat)]

def Slot.ofWords (v side : Word) : Slot :=
  { value := v, pres := wbit side 0, psn := wbit side 1, port := wbit side 2, stamp := BitVec.ofNat 16 (wbits side 16 16) }

def State.frameRecord (s : State) (n fp : Nat) (f : FrameRec) : List Byte :=
  let level := match f.origin with | .reserve _ l => l | _ => 0
  let pool := match f.origin with | .pool => true | _ => false
  saveRecord 2 (toBytes fp 8 ++ toBytes (f.cls + level * 8 + b2n pool * 64) 8 ++
    (List.range (classSlots f.cls)).flatMap fun i =>
      let v := s.fslot n (fp + i)
      toBytes v.value.toNat 8 ++ toBytes v.side.toNat 8)

/-- A tile's record: the pager reads its bytes through its own path (R12, R308). -/
def State.tileRecord (s : State) (n g : Nat) (t : Tile) : List Byte × State :=
  let u := (s.site n).tile
  let w := Desc.word n g (u.gen g).toNat t.kind t.shape.toNat
  let d := Desc.of w
  let (l, s) := s.sysRead coordSite d.base d.size
  (saveRecord 3 (toBytes w.toNat 8 ++ toBytes t.count.toNat 8 ++ toBytes t.poison.toNat 8 ++
    ((List.range d.granules).map fun i => BitVec.ofNat 8 (u.gen (g + i)).toNat) ++ l), s)

def State.tileRecords (s : State) (n : Nat) (l : List (Nat × Tile)) : List Byte × State :=
  l.foldl (fun x t => let (b, s) := x.2.tileRecord n t.1 t.2; (x.1 ++ b, s)) ([], s)

def streamRecord (g : StreamRun) : List Byte := saveRecord 5 (toBytes g.sdx 8 ++ toBytes g.pos 8 ++ toBytes g.replayPos 8)

def Waiter.bytes (w : Waiter) : List Byte :=
  toBytes (w.site + w.ctx * 2 ^ 12 + w.asid * 2 ^ 16 + w.gen * 2 ^ 32 + b2n w.psn * 2 ^ 48) 8 ++ toBytes w.reply.entry.toNat 8 ++
  toBytes (w.reply.fp.toNat + w.reply.itn.toNat * 2 ^ 32) 8

def groupRecord (k : Nat) (g : Group) : List Byte :=
  saveRecord 6 (toBytes (k + g.asid * 2 ^ 16 + g.ctx * 2 ^ 32) 8 ++
    toBytes (g.members + g.arrived * 2 ^ 8 + g.phase.toNat * 2 ^ 16 + b2n g.poison * 2 ^ 32) 8 ++ g.waiters.flatMap Waiter.bytes)

/-- The tiles that a save of a context at a site holds. -/
def TileUnit.owned (u : TileUnit) (c : Nat) : List (Nat × Tile) := u.tiles.filter fun t => t.2.owner == c && t.2.dying.isNone

/-- The segment of site `n` of a launch; `first` adds the queued seeds and link tokens. Seeds of a held context keep no place in the
retry buffer, the fire queue or the trap queue: a freeze ends only with those empty (R307). -/
def State.segment (s : State) (n : Nat) (l : Launch) (first : Bool) : List Byte × State :=
  let x := s.site n
  let k := s.slot? n l.ctx
  let captured := match k with | some k => k.stopped ++ k.captured | none => []
  let img := s.image l
  let queued : List Token := l.seeds.map (fun d => d.token (Entry.of (imgEntry img d.entry)) l.ctx) ++ l.links.map (·.tok)
  let (tiles, s) := s.tileRecords n (x.tile.owned l.ctx)
  ((captured.flatMap fun f => tokenRecord 0 f.tok) ++
   (if first then queued.flatMap (tokenRecord 4) else []) ++
   ((x.seq.frames.filter fun f => f.2.owner == l.ctx).flatMap fun f => s.frameRecord n f.1 f.2) ++ tiles ++
   (if x.mx.owner = some l.ctx then saveRecord 4 (x.mx.core.image (s.cregs n l.ctx).gmat).flatten else []) ++
   ((x.port.gens.filter fun g => g.2.who.ctx == l.ctx).flatMap fun g => streamRecord g.2) ++
   ((x.seq.groups.filter fun g => g.2.asid == l.asid && g.2.ctx == l.ctx).flatMap fun g => groupRecord g.1 g.2) ++
   saveRecord 0xFF [], s)

/-- A save of site `n` of a launch would hold no record but the end. -/
def State.nothingAt (s : State) (n : Nat) (l : Launch) : Bool :=
  let x := s.site n
  (match s.slot? n l.ctx with | some k => k.stopped.isEmpty && k.captured.isEmpty | none => true) &&
  !(x.seq.frames.any fun f => f.2.owner == l.ctx) && (x.tile.owned l.ctx).isEmpty && x.mx.owner != some l.ctx &&
  !(x.port.gens.any fun g => g.2.who.ctx == l.ctx) && !(x.seq.groups.any fun g => g.2.asid == l.asid && g.2.ctx == l.ctx)

/-- What is kept beside the records of a site (log entry 32). -/
def State.snapSite (s : State) (n c : Nat) : SiteSnap :=
  let x := s.site n
  let k := s.slot? n c
  let mine (slot : Nat) : Bool :=
    x.seq.frames.any fun f => f.2.owner == c && decide (f.1 ≤ slot ∧ slot < f.1 + classSlots f.2.cls)
  { regs := s.cregs n c
    toks := match k with | some k => k.stopped ++ k.captured | none => []
    gens := (x.port.gens.filter fun g => g.2.who.ctx == c).map (·.2)
    sopens := x.port.sopens.filter fun r => r.who.ctx == c
    allocQ := x.seq.allocQ.filter fun r => r.ctx == c
    parkedDeps := x.seq.parkedDeps.filter fun p => mine p.1
    csw := match k with | some k => k.csw | none => false }

/-- The address of site `i`'s save segment, and its length (R287). -/
def State.segAt (s : State) (asid i : Nat) : Nat × Nat :=
  let sz := s.cdField asid 0x28 4 * 1024
  (s.cdField asid 0x20 8 + i * sz, sz)

/-- Write the segments of a launch's sites in turn; the first that would exceed its length ends the save and is named (R308). -/
def State.writeSegs (s : State) (l : Launch) (i : Nat) (sites : List Nat) : Except (Nat × State) State :=
  match sites with
  | [] => .ok s
  | n :: r =>
    let (seg, s) := s.segment n l (i = 0)
    let (pa, sz) := s.segAt l.asid i
    if sz < seg.length then .error (n, s)
    else (s.sysWrite coordSite pa seg).writeSegs l (i + 1) r

/-- Save copy 0 of a launch: the state, or the site whose segment is too long and the state with those before it written. -/
def State.save (s : State) (h : Nat) (l : Launch) : Except (Nat × State) State :=
  match s.writeSegs l 0 l.sites with
  | .error e => .error e
  | .ok s => .ok (s.modLaunch h fun l => { l with snap := l.sites.foldl (fun t n => Tbl.set t n (s.snapSite n l.ctx)) [] })

/-! ### Reading back -/

/-- What a record restores. -/
inductive SaveItem where
  | token (t : Token) (place : Nat)
  | frame (fp cls level : Nat) (pool : Bool) (slots : List Slot)
  | tile (d : Desc) (count : BitVec 16) (poison : Word) (gens : List (BitVec 5)) (bytes : List Byte)
  | matrix (c : MxCore) (g : Word)
  | stream (sdx pos replay : Nat)
  | group (k : Nat) (g : Group)
  deriving DecidableEq, Repr

def wordAt (l : List Byte) (off : Nat) : Word := BitVec.ofNat 64 (field l off 8)

def waiterAt (l : List Byte) (off : Nat) : Waiter :=
  let a := wordAt l off
  let b := wordAt l (off + 16)
  { site := wbits a 0 12, ctx := wbits a 12 3, asid := wbits a 16 12, gen := wbits a 32 16, psn := wbit a 48
    reply := { entry := wordAt l (off + 8), fp := BitVec.ofNat 17 (wbits b 0 17), itn := BitVec.ofNat 16 (wbits b 32 16) } }

/-- The record of a type with this body; none where it cannot be one of site `n`. -/
def saveItem (n typ : Nat) (l : List Byte) : Option SaveItem :=
  match typ with
  | 1 => if l.length = 24 then some (.token (Token.ofWords (wordAt l 0) (wordAt l 8)) (field l 16 1)) else none
  | 2 =>
    let f := field l 8 8
    let cls := f % 8
    if 16 ≤ l.length ∧ cls ≤ 5 ∧ l.length = 16 + 16 * classSlots cls ∧ field l 0 8 + classSlots cls ≤ 131072 then
      some (.frame (field l 0 8) cls (f / 8 % 8) (f / 64 % 2 == 1)
        ((List.range (classSlots cls)).map fun i => Slot.ofWords (wordAt l (16 + 16 * i)) (wordAt l (24 + 16 * i))))
    else none
  | 3 =>
    let d := Desc.of (wordAt l 0)
    if 24 ≤ l.length ∧ d.wellFormed ∧ d.site = n ∧ l.length = 24 + d.granules + d.size then
      some (.tile d (BitVec.ofNat 16 (field l 8 2)) (wordAt l 16)
        ((slice l 24 d.granules).map fun b => BitVec.ofNat 5 b.toNat) (slice l (24 + d.granules) d.size))
    else none
  | 4 =>
    match MxCore.ofImage (slice l 0 16384) (slice l 16384 16384) (slice l 32768 16384) (slice l 49152 16384) with
    | .ok (c, g) => if l.length = 65536 then some (.matrix c g) else none
    | .error _ => none
  | 5 => if l.length = 24 then some (.stream (field l 0 8) (field l 8 8) (field l 16 8)) else none
  | 6 =>
    if 16 ≤ l.length ∧ (l.length - 16) % 24 = 0 ∧ field l 0 2 < 64 then
      let a := wordAt l 0
      let b := wordAt l 8
      some (.group (wbits a 0 16)
        { asid := wbits a 16 12, ctx := wbits a 32 3, members := wbits b 0 8, arrived := wbits b 8 8, phase := BitVec.ofNat 16 (wbits b 16 16),
          poison := wbit b 32, waiters := (List.range ((l.length - 16) / 24)).map fun i => waiterAt l (16 + 24 * i), deps := [] })
    else none
  | _ => none

/-- Read records from `pa` up to the end record, within `lim` bytes. -/
def State.readSeg (s : State) (n pa lim fuel : Nat) : Option (List SaveItem) × State :=
  match fuel with
  | 0 => (none, s)
  | fuel + 1 =>
    if lim < 8 then (none, s)
    else
      let (hd, s) := s.readHbm pa 8
      match hd with
      | none => (none, s)
      | some hd =>
        let typ := field hd 0 2
        let len := field hd 4 4
        if typ = 0xFF then (some [], s)
        else if lim < 8 + len ∨ len = 0 then (none, s)
        else
          let (b, s) := s.readHbm (pa + 8) len
          match b.bind (saveItem n typ) with
          | none => (none, s)
          | some x =>
            let (r, s) := s.readSeg n (pa + 8 + len) (lim - 8 - len) fuel
            (r.map (x :: ·), s)

/-- Read every segment of a launch: the sites with what their segments hold. -/
def State.readSegs (s : State) (asid i : Nat) (sites : List Nat) : Option (List (Nat × List SaveItem)) × State :=
  match sites with
  | [] => (some [], s)
  | n :: r =>
    let (pa, sz) := s.segAt asid i
    let (x, s) := s.readSeg n pa sz (sz / 8)
    match x with
    | none => (none, s)
    | some x =>
      let (y, s) := s.readSegs asid (i + 1) r
      (y.map ((n, x) :: ·), s)

/-! ### Room for an image (R310, R318) -/

/-- The frames of an image take their places: none where one of them is in use. -/
def SeqUnit.placeFrames (q : SeqUnit) (c : Nat) (l : List SaveItem) : Option SeqUnit :=
  match l with
  | [] => some q
  | .frame fp cls level pool _ :: r =>
    if q.runFree fp (classSlots cls) then
      let o : FrameOrigin := if pool then .pool else .reserve c level
      ({ q with frames := Tbl.set q.frames fp { cls := cls, owner := c, origin := o } } : SeqUnit).placeFrames c r
    else none
  | _ :: r => q.placeFrames c r

/-- The granules that a tile of an image names are free, in banks that can serve the context. -/
def TileUnit.roomFor (u : TileUnit) (c : Nat) (d : Desc) : Bool :=
  !(u.held.any fun h => decide (h.1 < d.gran + d.granules ∧ d.gran < h.1 + h.2)) &&
  (List.range 8).all fun b =>
    let k := u.bankNext b
    decide ((b + 1) * 256 ≤ d.gran ∨ d.gran + d.granules ≤ b * 256) || (!k.pend && (k.shared || k.owner == c))

def State.roomAt (s : State) (n c : Nat) (l : List SaveItem) : Bool :=
  let x := s.site n
  (x.seq.placeFrames c l).isSome &&
  l.all fun i => match i with | .tile d .. => x.tile.roomFor c d | _ => true

/-- The reserve frames of each level that an image already holds. -/
def usedLevel (l : List SaveItem) (level : Nat) : Nat :=
  (l.filter fun i => match i with | .frame _ _ v pool _ => !pool && v == level | _ => false).length

/-! ### Restoring (R310 step 3) -/

def State.restoreItem (s : State) (n c : Nat) (snap : SiteSnap) (again : Bool) (i : SaveItem) : State :=
  match i with
  | .token .. => s
  | .frame fp cls level pool slots =>
    let o : FrameOrigin := if pool then .pool else .reserve c level
    let s := s.modSeq n fun q => { q with frames := Tbl.set q.frames fp { cls := cls, owner := c, origin := o } }
    slots.zipIdx.foldl (fun s v => s.setFslot n (fp + v.2) v.1) s
  | .tile d count poison gens bytes =>
    let t : Tile := { owner := c, kind := d.kind, shape := BitVec.ofNat 32 d.toWord.toNat, count := count, poison := poison, dying := none }
    let s := s.modTile n fun u =>
      { u with
        tiles := Tbl.set u.tiles d.gran t
        gens := gens.zipIdx.foldl (fun m g => Tbl.put m (d.gran + g.2) g.1 0) u.gens }
    s.sysWrite coordSite d.base bytes
  | .matrix m g => (s.modCore n fun _ => m).modCregs n c fun r => { r with gmat := g }
  | .stream sdx pos replay =>
    match snap.gens.find? fun g => g.sdx == sdx with
    | none => s
    | some g =>
      let p := (s.site n).port.gens
      let k := ((List.range (p.length + 1)).find? fun k => !Tbl.has p k).getD 0
      let g := { g with pos := pos, replayPos := if again then pos else replay, parked := false, beat := 0 }
      s.modPort n fun q => { q with gens := Tbl.set q.gens k g }
  | .group k g => if again || !Tbl.has (s.site n).seq.groups k then s.modSeq n fun q => { q with groups := Tbl.set q.groups k g } else s

/-- Restore a site of a context: its registers, the records, what is kept beside them. `again`: for a replay, whose base's
streams stand at their replay points; otherwise a group entry that is still there has stayed in use, and stays (R117, R309, R312; log entry
58). -/
def State.restoreSite (s : State) (n c : Nat) (snap : SiteSnap) (again : Bool) (l : List SaveItem) : State :=
  let s := s.modCregs n c fun _ => snap.regs
  let s := l.foldl (fun s i => s.restoreItem n c snap again i) s
  let s := s.modSeq n fun q =>
    { q with
      allocQ := q.allocQ ++ snap.allocQ
      parkedDeps := snap.parkedDeps.foldl (fun t p => Tbl.set t p.1 p.2) q.parkedDeps }
  let s := s.modPort n fun p => { p with sopens := p.sopens ++ snap.sopens }
  s.modCtx n c fun k => { k with csw := snap.csw }

/-- The saved tokens of a site, in saved order: as the records hold them, with the origins and causes kept for them. -/
def savedTokens (n asid gen : Nat) (snap : SiteSnap) (l : List SaveItem) : List Flight :=
  let toks := l.filterMap fun i => match i with | .token t 0 => some t | _ => none
  if toks.length = snap.toks.length then (snap.toks.zip toks).map fun x => { x.1 with tok := x.2 }
  else toks.map fun t =>
    { tok := t, src := n, dst := n, vn := vnetOf t.cls, org := engineOrigin, deps := [], asid := asid, gen := gen, step := false }

/-- A site's cistern slice is presented to its input in sequence order, and cleared (R234). -/
def State.cisternTokens (s : State) (n c asid : Nat) : List Flight × State :=
  let p := (s.site n).port
  let key := asid * 8 + c
  let (l, s) := (List.range (Tbl.getD p.cistCount key 0)).foldl
    (fun (x : List Flight × State) i =>
      let (b, s) := x.2.sysRead n (Tbl.getD p.cistBase key 0 + 32 * i) 16
      let t := Token.ofWords (wordAt b 0) (wordAt b 8)
      (x.1 ++ [{ tok := t, src := n, dst := n, vn := .reply, org := engineOrigin, deps := (Tbl.getD p.cistDeps key []).getD i [], asid := asid, gen := (s.gen asid).toNat,
                 step := false }], s))
    ([], s)
  (l, s.modPort n fun p => { p with cistCount := Tbl.erase p.cistCount key, cistDeps := Tbl.erase p.cistDeps key, cistFull := p.cistFull.filter (· ≠ key) })

end Sys2Proof.Machine
end

