-- ==== Sys2Proof/Machine/Rounds.lean ====
section
/-! DEFINITION. Waves and the end of a run (R302 to R304), freezing (R307), saving and vacating (R308), cuts (R309), resuming (R310) and the
fault time limit (R305). -/
namespace Sys2Proof.Machine

/-! ### Freezing (R307) -/

/-- The inputs of a router that lie within the region: 0 the local injection, 1 west, 2 east, 3 north, 4 south; with the site at the
other end. -/
def Launch.inputs (l : Launch) (n : Nat) : List (Nat × Nat) :=
  let near (b : Nat × Nat × Nat) : Option (List (Nat × Nat)) :=
    let sites := l.sitesAt b
    (sites.findIdx? (· == n)).map fun i =>
      let x := i % l.w
      let y := i / l.w
      (if 0 < x then [(1, sites.getD (i - 1) 0)] else []) ++ (if x + 1 < l.w then [(2, sites.getD (i + 1) 0)] else []) ++
      (if 0 < y then [(3, sites.getD (i - l.w) 0)] else []) ++ (if y + 1 < l.h then [(4, sites.getD (i + l.w) 0)] else [])
  match near l.base0 with
  | some x => x
  | none => (l.twin.bind near).getD []

/-- The input at which a token leaving by direction `i` arrives. -/
def opposite (i : Nat) : Nat := match i with | 1 => 2 | 2 => 1 | 3 => 4 | _ => 3

/-- Begin a freeze: the round number advances, and a marker is injected at every router on both networks (R307 steps 1 and 2). -/
def State.startFreeze (s : State) (h : Nat) (l : Launch) (why : FreezeFor) : State :=
  let ms := l.allSites.flatMap fun n => [false, true].map fun v => ({ handle := h, site := n, input := 0, reply := v } : Marker)
  (s.setLaunch h { l with freeze := some { why := why, marked := [] }, round := l.round + 1, quiet := none }).modPager fun p =>
    { p with markers := p.markers ++ ms }

/-- Freeze a launch that runs and is not being frozen. -/
def State.freezeFor (s : State) (h : Nat) (why : FreezeFor) : State :=
  match s.launch? h with
  | some l => if l.open_ then s.startFreeze h l why else s
  | none => s

/-- A marker reaches an input of a router: the first on its network goes on to every neighbour in the region, and the site freezes the
context once every input has had both. -/
def State.markerAt (s : State) (m : Marker) : State :=
  match s.launch? m.handle with
  | none => s
  | some l =>
    match l.freeze with
    | none => s
    | some f =>
      let x := (m.site, m.input, m.reply)
      if f.marked.contains x then s
      else
        let first := !(f.marked.any fun y => y.1 == m.site && y.2.2 == m.reply)
        let near := l.inputs m.site
        let on : List Marker :=
          if first then near.map fun y => { handle := m.handle, site := y.2, input := opposite y.1, reply := m.reply } else []
        let marked := f.marked ++ [x]
        let all := (0 :: near.map (·.1)).all fun i => marked.contains (m.site, i, false) && marked.contains (m.site, i, true)
        let s := (s.setLaunch m.handle { l with freeze := some { f with marked := marked } }).modPager fun p =>
          { p with markers := p.markers ++ on }
        if all then s.modCtx m.site l.ctx fun k => { k with frozen := true } else s

/-- RMK_ARRIVAL: a marker token that a program sent is discarded; beyond the mesh's tokens, a pager's own marker travels (R307). -/
def execRmkArrival (i : Nat) (s : State) : Out :=
  match s.mesh[i]? with
  | some f =>
    if !atHead s.mesh i || !inputOpen s f.dst || retryWaits s f.dst || arrivalKind s f.dst f ≠ .rmk then .next s else .next (s.takeFlight i f)
  | none =>
    match s.pager.markers[i - s.mesh.length]? with
    | none => .next s
    | some m => .next ((s.modPager fun p => { p with markers := listDrop1 p.markers (i - s.mesh.length) }).markerAt m)

/-! ### Sources restart (R307, R310) -/

/-- A context's freeze at a site ends: its captured tokens return to the input, the stopped ones first (R307, R428). -/
def State.thaw (s : State) (n c : Nat) : State :=
  match s.slot? n c with
  | none => s
  | some k =>
    let s := s.modCtx n c fun k => { k with frozen := false, captured := [], stopped := [] }
    s.represent n (k.stopped ++ k.captured)

/-- The state of a launch whose sources run. -/
def Launch.running (l : Launch) : LState := if l.inRun then .running else .idle

/-- Restart a frozen launch in place, with no save. -/
def State.unfreeze (s : State) (h : Nat) (l : Launch) : State :=
  let s := s.setLaunch h { l with state := l.running, freeze := none, quiet := none }
  l.allSites.foldl (fun s n => s.thaw n l.ctx) s

/-! ### Twin copies leave (R317, R323) -/

/-- Copy 1 goes: its sites are discarded, and nothing of it waits at the comparator any more. -/
def State.dropCopy (s : State) (h : Nat) (l : Launch) : State :=
  match l.twin with
  | none => s
  | some b =>
    let sites := l.sitesAt b
    let mine (x : TwinExit) : Bool := x.handle == h
    let freed := s.pager.twins.filterMap fun x =>
      match x.what with
      | .req id => if mine x && !x.copy then some id else none
      | .token _ => none
    let kept := s.pager.twins.filterMap fun x =>
      match x.what with
      | .token f => if mine x && !x.copy then some f else none
      | .req _ => none
    let lost := s.pager.twins.filterMap fun x => match x.what with | .req id => if mine x && x.copy then some id else none | .token _ => none
    let s := { s with reqs := s.reqs.filter fun r => !lost.contains r.id }
    let s := s.modPager fun p =>
      { p with
        twins := p.twins.filter fun x => !mine x
        twinNums := p.twinNums.filter fun x => x.1 / (32 * 4096 * 2) != h
        twinOk := p.twinOk ++ freed
        links := p.links ++ kept }
    (s.vacateNow l sites).setLaunch h { l with twin := none, twinOff := false }

/-- `twin.off` acts at an end of run, a cut or a freeze (R317). -/
def State.dropIfOff (s : State) (h : Nat) : State :=
  match s.launch? h with
  | some l => if l.twinOff then s.dropCopy h l else s
  | none => s

/-! ### The end of a freeze: what it was for -/

/-- `rmark` and `pevict` requests that a freeze answers. -/
def FreezeFor.req (w : FreezeFor) : Option SysReq :=
  match w with
  | .freeze r | .vacate r | .cut r => r
  | _ => none

def State.replyOpt (s : State) (r : Option SysReq) (v : Nat) (psn : Bool) : State :=
  match r with
  | some r => s.sysReply coordSite r (BitVec.ofNat 64 v) psn
  | none => s

/-- The save of a launch failed at a site: 0x050E, and the launch stays FROZEN and resident (R308). -/
def State.saveFailed (s : State) (h : Nat) (l : Launch) (r : Option SysReq) (n : Nat) : State :=
  let base := if l.base = .saved then .none else l.base
  let s := s.setLaunch h { l with state := .frozen, freeze := none, quiet := none, base := base }
  ((s.faultFor r l 0x050E n).notify 0x050E n h).replyOpt r 0 true

/-- Vacate a frozen launch: save copy 0, free its sites, and reply (R308, R323). An image whose segments hold no record is empty. -/
def State.vacate (s : State) (h : Nat) (l : Launch) (r : Option SysReq) : State :=
  match s.save h l with
  | .error (n, s) => s.saveFailed h l r n
  | .ok s =>
    match s.launch? h with
    | none => s
    | some l =>
      let s := match l.twin with | some _ => s.dropCopy h l | none => s
      match s.launch? h with
      | none => s
      | some l =>
        let eos := (s.sums l.ctx l.sites).eos4 + l.eosBase
        let kept := l.sites.any fun n => !s.nothingAt n l
        let clear (s : State) (n : Nat) : State :=
          let s := (s.freeFrames n l.ctx).freeTiles n l.ctx
          let s := s.modPort n fun p =>
            { p with gens := p.gens.filter fun g => g.2.who.ctx != l.ctx, sopens := p.sopens.filter fun r => r.who.ctx != l.ctx }
          s.modSeq n fun q => { q with allocQ := q.allocQ.filter fun r => r.ctx != l.ctx }
        let s := (l.sites.foldl clear s).leave l l.sites
        let s := s.setLaunch h { l with state := .evicted, freeze := none, quiet := none, saved := kept, eosBase := eos }
        s.replyOpt r h false

/-- A cut: the saved image becomes the replay base, the seed log is cleared, streams take new replay points, and the sources restart
at once (R231, R309). -/
def State.cutDone (s : State) (h : Nat) (l : Launch) (r : Option SysReq) : State :=
  match s.save h l with
  | .error (n, s) => s.saveFailed h l r n
  | .ok s =>
    match s.launch? h with
    | none => s
    | some l =>
      let s := l.allSites.foldl (fun s n => s.newReplayPoint l.ctx n) s
      let eos := (s.sums l.ctx l.sites).eos4 + l.eosBase
      let l := { l with base := .saved, log := [], logOver := false, windowOver := false, credSince := false, eosAtBase := eos,
                        baseRun := l.inRun }
      (s.unfreeze h l).replyOpt r l.round.toNat false

/-- The unmatched operands of a stopped launch, as type 4 records in order of site and slot (R428 step 4). -/
def State.listUnmatched (s : State) (h : Nat) : State :=
  match s.launch? h with
  | none => s
  | some l =>
    if !s.obs.listing.contains h then s
    else
      let s := { s with obs := { s.obs with listing := s.obs.listing.filter (· ≠ h) } }
      let frames (n : Nat) : List (Nat × Nat) :=
        ((s.site n).seq.frames.filter fun f => f.2.owner == l.ctx).flatMap fun f =>
          (List.range (classSlots f.2.cls)).map fun i => (f.1, i)
      let slots := ((List.range 2080).filter l.allSites.contains).flatMap fun n => (frames n).map fun x => (n, x)
      slots.foldl
        (fun s x =>
          let v := s.fslot x.1 (x.2.1 + x.2.2)
          if v.pres then s.traceRec 4 l.ctx x.1 0 0 x.2.1 (x.2.2 + b2n v.port * 2 ^ 8) v.value else s)
        s

/-- A freeze is confirmed (R307 step 4). -/
def State.freezeDone (s : State) (h : Nat) (why : FreezeFor) : State :=
  let s := s.listUnmatched h
  let s := match why with | .vacate _ => s | _ => s.dropIfOff h
  match s.launch? h with
  | none => s
  | some l =>
    let frozen := { l with state := .frozen, freeze := none, quiet := none }
    let s := match why with
      | .vacate r => s.vacate h l r
      | .cut r => s.cutDone h l r
      | .freeze r => (s.setLaunch h frozen).replyOpt r l.round.toNat false
      | .fault | .power | .stop => s.setLaunch h frozen
    s

/-! ### End of run (R304) -/

/-- A run ends: the residue's record, the end report, and what waits for an end of run. -/
def State.endRun (s : State) (h : Nat) (l : Launch) : State :=
  let parked := (l.sites.map fun n => s.parkedIn n l.ctx).foldl (· + ·) 0
  let s := s.setLaunch h { l with state := .idle, inRun := false, quiet := none, runs := l.runs + 1 }
  let s := if parked = 0 then s else s.launchFault l 0x050C parked
  let s := if l.endOn then
      let asid := s.asidOf l.endSite l.endCtx
      s.replyFrom coordSite l.endSite (some { entry := l.endEntry, fp := l.endFp, itn := 0 })
        (BitVec.ofNat 64 (h + Nat.min parked (2 ^ 32 - 1) * 2 ^ 32)) false [] asid (s.gen asid).toNat
    else s
  let s := s.dropIfOff h
  match s.launch? h with
  | some l => if l.evictAtEnd then s.startFreeze h l (.vacate none) else s
  | none => s

/-! ### Waves (R303, R304, R307) -/

/-- Every site of a launch has frozen its context, and no claim keeps the engine of one (R269, R307). -/
def State.allFrozen (s : State) (l : Launch) : Bool :=
  l.allSites.all fun n =>
    (match s.slot? n l.ctx with | some k => k.frozen | none => true) &&
    !((s.site n).mx.claim && (s.site n).mx.owner == some l.ctx)

/-! ### The fault time limit (R305) -/

/-- The oldest parked request of a context at a site, in clk. -/
def State.parkedAge (s : State) (n c : Nat) : Nat :=
  let reqs := s.reqs.map fun r =>
    match r.phase with
    | .parked .. => if r.who.site = n ∧ r.who.ctx = c then s.clk - r.since else 0
    | _ => 0
  let items := (s.site n).port.gens.map fun g => if g.2.parked ∧ g.2.who.ctx = c then s.clk - g.2.since else 0
  (reqs ++ items).foldl Nat.max 0

/-- FAULT_TIME_SAMPLE: the pager samples a site; a launch whose oldest parked request exceeds the limit is reported and frozen. -/
def execFaultTimeSample (n : Nat) (s : State) : Out :=
  let limit := s.pager.fltLimit
  let late := (s.site n).ctxs.filter fun k =>
    limit != 0 && decide (limit < s.parkedAge n k.1 / 1400) &&
    (match s.launch? k.2.handle with | some l => l.open_ | none => false)
  .next (late.foldl
    (fun s k =>
      match s.launch? k.2.handle with
      | some l => if l.open_ then ((s.launchFault l 0x0506 n).notify 0x0506 n k.2.handle).freezeFor k.2.handle .fault else s
      | none => s)
    s)

/-! ### Resuming (R310) -/

/-- How the sites of an evicted launch suit its saved image; `some bits` of 0x0510 when feature bits or busy granules and frames are
all that is wanting. -/
inductive ResumeFit where
  | ok | denied (detail : Nat) | no
  deriving DecidableEq, Repr

/-- An image's items as copy 1 takes them: its tiles lie at its own site. -/
def SaveItem.at_ (i : SaveItem) (n : Nat) : SaveItem :=
  match i with
  | .tile d count poison gens bytes => .tile { d with site := n } count poison gens bytes
  | i => i

/-- A saved image, site by site of each copy: the site, where it stands among its copy's, and its items as they go there (R310, R315). -/
def Launch.imageAt (l : Launch) (items : List (Nat × List SaveItem)) : List (Nat × Nat × List SaveItem) :=
  (l.base0 :: l.twin.toList).flatMap fun b =>
    (l.sitesAt b).zipIdx.map fun x => (x.1, x.2, ((items[x.2]?.map (·.2)).getD []).map (·.at_ x.1))

/-- Missing feature bits are reported whatever else is wanting: such a site can never conform. -/
def State.resumeFit (s : State) (l : Launch) (plans : List Plan) (items : List (Nat × List SaveItem)) : ResumeFit :=
  let bs := l.base0 :: l.twin.toList
  let placed := l.placedAt plans bs
  let image := l.imageAt items
  let itemsAt (n : Nat) : List SaveItem := match image.find? fun x => x.1 == n with | some x => x.2.2 | none => []
  let room := image.all fun x => s.roomAt x.1 l.ctx x.2.2
  let suits (n : Nat) (p : Plan) : Bool :=
    let x := s.site n
    let levels := p.page.levels.map fun v => (v.1, v.2.1, v.2.2 - usedLevel (itemsAt n) v.1)
    let pool := match x.seq.placeFrames l.ctx (itemsAt n) with | some q => (q.setAsideAll l.ctx levels).isSome | none => true
    s.dieReady n && !(decide (2 ≤ p.page.pcls) && x.mx.owner.isSome) && decide (s.pinned n + p.pins.length ≤ 48) && pool
  let miss := s.missing? l plans l.twin.isSome bs
  let rest := s.slotsFree l bs && (placed.all fun x => suits x.1 x.2) && (s.overdrawn placed).isNone
  if miss = 0 ∧ !rest then .no
  else if miss = 0 ∧ room then .ok
  else .denied (miss + if room then 0 else 256)

/-- The saved image of a launch returns to its sites, and to those of its copy 1: pages and frames, tiles, groups, engines, streams; then
the cistern and the saved tokens stand at the input, held until the wave (R310 steps 2 to 4, R315). -/
def State.restoreAll (s : State) (h : Nat) (l : Launch) (plans : List Plan) (items : List (Nat × List SaveItem)) : State :=
  let image := l.imageAt items
  let s := image.foldl (fun s x => s.modSeq x.1 fun q => (q.placeFrames l.ctx x.2.2).getD q) s
  let used (i level : Nat) : Nat := match items[i]? with | some x => usedLevel x.2 level | none => 0
  let s := s.load h l plans l.base0 false used
  let s := (match l.twin with | some b => s.load h l plans b true used | none => s).refreshBusy
  image.foldl
    (fun s x =>
      let n := x.1
      let home := l.sites.getD x.2.1 n
      let snap := (Tbl.get? l.snap home).getD (s.snapRegs l.ctx n)
      let s := s.restoreSite n l.ctx snap false x.2.2
      let (cist, s) := s.cisternTokens n l.ctx l.asid
      let s := s.represent n (cist ++ savedTokens n l.asid (s.gen l.asid).toNat snap x.2.2)
      s.newReplayPoint l.ctx n)
    s

/-- Report once that a waiting placement or resume is denied (R294, R310). -/
def State.denyOnce (s : State) (h : Nat) (l : Launch) (w : WaitPlace) (k detail : Nat) : State :=
  if w.denied then s
  else
    let s := (s.faultFor w.req l 0x0510 detail).notify 0x0510 coordSite h
    s.modPager fun p => { p with waiting := listUpd p.waiting k fun w => { w with denied := true } }

end Sys2Proof.Machine
end

