-- ==== Sys2Proof/Machine/Contain.lean ====
section
/-! DEFINITION. Containment and replay (R311 to R314), kill (R323), and the twin comparator (R316, R317). -/
namespace Sys2Proof.Machine

/-! ### What a containment puts back (R309, R312) -/

/-- The frames of a replay base take their places again; a reserve frame leaves its reserve. None where one is in use. -/
def SeqUnit.placeBack (q : SeqUnit) (c : Nat) (l : List SaveItem) : Option SeqUnit :=
  match l with
  | [] => some q
  | .frame fp cls level pool _ :: r =>
    let q : SeqUnit := if pool then q else
      { q with reserved := q.reserved.filter fun x => !(x.1 == fp && x.2.ctx == c && x.2.level == level) }
    if q.runFree fp (classSlots cls) then
      let o : FrameOrigin := if pool then .pool else .reserve c level
      ({ q with frames := Tbl.set q.frames fp { cls := cls, owner := c, origin := o } } : SeqUnit).placeBack c r
    else none
  | _ :: r => q.placeBack c r

/-- Is there room at a site for what the replay base put there? -/
def State.roomBack (s : State) (n c : Nat) (l : List SaveItem) : Bool :=
  ((s.site n).seq.placeBack c l).isSome &&
  l.all fun i => match i with | .tile d .. => (s.site n).tile.roomFor c { d with site := n } | _ => true

/-- Put the replay base back at one site: registers, and for a saved image its records and tokens; the slot is held until the wave. -/
def State.backAt (s : State) (l : Launch) (n : Nat) (snap : SiteSnap) (items : List SaveItem) : State :=
  let items := items.map (·.at_ n)
  let s := s.modSeq n fun q => (q.placeBack l.ctx items).getD q
  let s := s.modCtx n l.ctx fun k => { k with held := true }
  let s := s.restoreSite n l.ctx snap true items
  s.represent n (savedTokens n l.asid (s.gen l.asid).toNat snap items)

/-- The replay base of a launch: by region position, what its records and registers are. None when the image cannot be read. -/
def State.baseItems (s : State) (l : Launch) : Option (List (SiteSnap × List SaveItem)) × State :=
  let snap (n : Nat) : SiteSnap := (Tbl.get? l.snap n).getD (s.snapRegs l.ctx n)
  match l.base with
  | .none => (none, s)
  | .empty => (some (l.sites.map fun n => (snap n, [])), s)
  | .saved =>
    let (x, s) := s.readSegs l.asid 0 l.sites
    (x.map fun y => y.map fun z => (snap z.1, z.2), s)

/-! ### Containment (R311 to R313) -/

/-- Requests that a launch still owes an answer and can no longer carry out. -/
def Launch.owed (l : Launch) : List SysReq :=
  (match l.freeze with | some f => (match f.why.req with | some r => [r] | none => []) | none => []) ++ l.behind

/-- Drop what waits for a launch outside its sites: markers, twin exits with their requests. -/
def State.dropRounds (s : State) (h : Nat) : State :=
  let ids := s.pager.twins.filterMap fun x =>
    match x.what with
    | .req id => if x.handle = h then some id else none
    | .token _ => none
  let s := { s with reqs := s.reqs.filter (fun r => !ids.contains r.id), obs := { s.obs with listing := s.obs.listing.filter (· ≠ h) } }
  s.modPager fun p =>
    { p with
      markers := p.markers.filter fun m => m.handle != h
      twins := p.twins.filter fun x => x.handle != h
      twinNums := p.twinNums.filter fun x => x.1 / (32 * 4096 * 2) != h }

/-- A launch becomes FAILED: a containment that a program asked for is done, and what else waits for the launch cannot be (R289, R313,
R323). -/
def State.failLaunch (s : State) (h : Nat) (l : Launch) : State :=
  let s := s.setLaunch h { l with state := .failed, replies := [] }
  l.replies.foldl
    (fun s r =>
      match r.ins with
      | .pevictContain _ => s.sysReply coordSite r (BitVec.ofNat 64 h) false
      | _ => s.sysReply coordSite r 0 true)
    s

/-- Escalation: 0x0508, then the recovery engine takes the owner's launch, else it fails (R313, R391). -/
def State.escalate (s : State) (h : Nat) (l : Launch) (detail : Nat) : State :=
  let s := (s.launchFault l 0x0508 detail).notify 0x0508 coordSite h
  if s.rcv.en ∧ s.rcv.asid = l.asid then s.setLaunch h { l with state := .containing, escalated := true }
  else s.failLaunch h l

/-- Present the seed log in order (R312 step 6). -/
def State.presentLog (s : State) (h : Nat) (l : Launch) : State :=
  l.log.foldl
    (fun s x =>
      match x with
      | .seed x => (l.copies.foldl (fun s b => s.seedInto l x b) s).markBatch h l x.tag
      | .token f => l.copies.foldl (fun s b => s.linkInto l f b) s)
    s

/-- Contain a launch: stop and discard, put back its replay base, present its seed log; the wave restarts it. What cannot be replayed
escalates (R312, R313). -/
def State.contain (s : State) (h : Nat) (l : Launch) (cause : Nat) (req : Option SysReq) : State :=
  let s := (s.launchFault l 0x0507 cause).notify 0x0507 coordSite h
  let owed := l.owed
  let l := { l with state := .containing, freeze := none, behind := [], quiet := none,
                    replies := l.replies ++ (match req with | some r => [r] | none => []) }
  let s := (s.setLaunch h l).dropRounds h
  let s := owed.foldl (fun s r => s.refuse r 0x0505 (6 * 2 ^ 8 + opcOf r.ins)) s
  let s := l.allSites.foldl (fun s n => (s.discardAt n l.ctx).dropWalks n l.ctx) s
  let s := (s.collCancel h).reloadConfig h l
  if l.windowOver ∨ l.credSince then s.escalate h l 0
  else if l.logOver then s.escalate h l 1
  else
    let (x, s) := s.baseItems l
    match x with
    | none => s.escalate h l 2
    | some items =>
      let places := (l.copies.map l.sitesAt).flatMap fun ns => ns.zip items
      if !(s.missing l).isEmpty || !(places.all fun p => s.roomBack p.1 l.ctx p.2.2) then s.escalate h l 2
      else
        let s := places.foldl (fun s p => s.backAt l p.1 p.2.1 p.2.2) s
        let s := s.setLaunch h { l with inRun := true, eosBase := l.eosAtBase }
        s.presentLog h l

/-- The states in which a containment may begin (R289). -/
def LState.canContain (x : LState) : Bool := x == .idle || x == .running || x == .frozen

/-- CONTAINMENT_TRIGGER: an uncorrectable error in state that serves the context (cause 0), or a halted site of the region (cause 1);
the twin comparator and `pevict.contain` bring about causes 2 and 3 themselves (R311). -/
def execContainmentTrigger (h cause : Nat) (s : State) : Out :=
  match s.launch? h with
  | none => .next s
  | some l =>
    let halted := l.allSites.any fun n => (s.site n).seq.halt
    if l.state.canContain ∧ (cause = 0 ∨ (cause = 1 ∧ halted)) then .next (s.contain h l cause none) else .next s

/-! ### Kill (R323) -/

/-- A launch goes: its sites and queues are discarded, requests that wait for it fail, the binding may end (R287, R323). -/
def State.kill (s : State) (h : Nat) (l : Launch) : State :=
  let sites := l.allSites
  let wait := l.owed ++ l.replies
  let s := (s.dropRounds h).modPager fun p =>
    { p with waiting := p.waiting.filter fun w => w.handle != h }
  let here := sites.filter fun n => match s.slot? n l.ctx with | some k => k.handle == h | none => false
  let away := sites.filter fun n => !here.contains n
  let s := (s.vacateNow l here).collCancel h
  let s := { s with reqs := s.reqs.filter fun r => !(away.contains r.who.site && r.who.asid == l.asid && r.who.ctx == l.ctx) }
  let drop (s : State) (n : Nat) : State :=
    let s := s.modSeq n fun q => { q with groups := q.groups.filter fun g => !(g.2.asid == l.asid && g.2.ctx == l.ctx) }
    s.modPort n fun p =>
      { p with cistCount := Tbl.erase p.cistCount (l.asid * 8 + l.ctx), cistDeps := Tbl.erase p.cistDeps (l.asid * 8 + l.ctx), cistFull := p.cistFull.filter (· ≠ l.asid * 8 + l.ctx) }
  let s := sites.foldl drop s
  let s := (s.modPager fun p => { p with launches := Tbl.erase p.launches h }).unbind l.asid
  s.replyAll wait 0 true

/-! ### The twin comparator (R316, R317) -/

/-- The key of an exit as DETAIL of 0x0509 shows it. -/
def TwinExit.key (x : TwinExit) : Nat := x.pos + x.cls * 2 ^ 12 + x.num % 2 ^ 32 * 2 ^ 17

/-- A mismatch: the record, and both copies are contained. -/
def State.mismatch (s : State) (x : TwinExit) : State :=
  match s.launch? x.handle with
  | none => s.modPager fun p => { p with twins := p.twins.filter fun y => y.handle != x.handle }
  | some l =>
    let s := (s.launchFault l 0x0509 x.key).notify 0x0509 coordSite x.handle
    if l.state.canContain then s.contain x.handle l 2 none else s.dropRounds x.handle

/-- Two exits of one key match: copy 0's may go on, and copy 1's is dropped; copy 1's request stays beside copy 0's until that has
performed, and takes the same answer (R316). None while a token's launch has no room for it. -/
def State.matched (s : State) (x y : TwinExit) : Option State :=
  let (a, b) := if x.copy then (y, x) else (x, y)
  let s := s.modPager fun p => { p with twins := p.twins.filter fun z => z != x && z != y }
  match a.what, b.what with
  | .req i, .req j => some (s.modPager fun p => { p with twinOk := p.twinOk ++ [i], twinPairs := p.twinPairs ++ [(i, j)] })
  | .token f, _ => s.routeLink f
  | _, _ => some s

/-- TWIN_DIGEST: exit `i` is compared with the other copy's of the same key, when that has come. -/
def execTwinDigest (i : Nat) (s : State) : Out :=
  match s.pager.twins[i]? with
  | none => .next s
  | some x =>
    match s.pager.twins.find? fun y => y.handle == x.handle && y.copy != x.copy && y.pos == x.pos && y.cls == x.cls && y.num == x.num with
    | none => .next s
    | some y => .next (if x.digest = y.digest then (s.matched x y).getD s else s.mismatch x)

/-- TWIN_DIGEST_TIMEOUT: exit `i` has waited 65,536 clk for its partner. -/
def execTwinDigestTimeout (i : Nat) (s : State) : Out :=
  match s.pager.twins[i]? with
  | none => .next s
  | some x =>
    match x.since with
    | some c => .next (if c + 65536 ≤ s.clk then s.mismatch x else s)
    | none => .next s

end Sys2Proof.Machine
end

