-- ==== Sys2Proof/Machine/Pager.lean ====
section
/-! DEFINITION. The region pager's requests (R322 to R328), waiting placements (R294, R310), the configuration-complete wave's end (R295,
R309, R312), power and thermal steps (R299, R300). -/
namespace Sys2Proof.Machine

/-! ### Replies (R321) -/

/-- A base in the reply of `pplace` and `twin.on`. -/
def baseWord (h : Nat) (b : Nat × Nat × Nat) : Nat := h + b.1 * 2 ^ 32 + b.2.1 * 2 ^ 40

/-- What a request is answered when its launch has reached the state it waited for. -/
def Launch.answer (l : Launch) (h : Nat) (r : SysReq) : Nat :=
  match r.ins with
  | .pplace .. => baseWord h l.base0
  | .twinOn _ => match l.twin with | some b => baseWord h b | none => 0
  | _ => h

/-- Answer the requests that wait for a launch. -/
def State.answerAll (s : State) (h : Nat) : State :=
  match s.launch? h with
  | none => s
  | some l =>
    l.replies.foldl (fun s r => s.sysReply coordSite r (BitVec.ofNat 64 (l.answer h r)) false) (s.setLaunch h { l with replies := [] })

def State.stateRefused (s : State) (l : Launch) (r : SysReq) : State := s.refuse r 0x0505 (l.state.code * 2 ^ 8 + opcOf r.ins)

/-! ### `pplace` (R291 to R295, R322) -/

/-- The launch that a placement creates. -/
def newLaunch (h : Nat) (p : PlaceRead) (r : SysReq) : Launch :=
  let c := field p.record 0x10 1
  let flags := field p.record 0x11 1
  let e : Word := BitVec.ofNat 64 (field p.record 0x18 8)
  { state := .placing, imageKey := imageKey p.img, ctx := c, asid := h / 2 ^ 20, sys := c == 7, bx := 0, by_ := 0, w := imgWidth p.img,
    h := imgHeight p.img, io := 0, fixed := if flags % 2 = 1 then some (field p.record 0x12 1, field p.record 0x13 1) else none,
    twin := none, twinOff := false, round := 0, base := .none, seeds := [], links := [], log := [], logOver := false, windowOver := false,
    evictAtEnd := flags / 2 % 2 == 1, nsink := field p.record 0x14 2, endOn := wbit e 0, endEntry := BitVec.ofNat 64 (e.toNat / 2 ^ 20 * 2 ^ 20),
    endFp := BitVec.ofNat 17 (field p.record 0x20 4), endSite := r.who.site, endCtx := r.who.ctx, inRun := false, saved := false, snap := [],
    eosBase := 0, eosAtBase := 0, escalated := false, freeze := none, quiet := none, replies := [r], behind := [], runs := 0,
    credSince := false, cols := [] }

/-- An accepted placement: the descriptor bound (R287), the image in the cache, the launch in the table. -/
def State.acceptPlace (s : State) (h : Nat) (p : PlaceRead) (r : SysReq) : State :=
  let asid := h / 2 ^ 20
  let s := s.modPager fun q =>
    { q with
      binds := if (Tbl.get? q.binds asid).isSome then q.binds
        else Tbl.set q.binds asid { pa := p.descPa, seq := 0, lost := false, desc := p.desc }
      cache := ((q.keepImage p.img).getD q).cache }
  s.setLaunch h (newLaunch h p r)

/-- A placement that finds no base at once (R294). -/
def State.placeNone (s : State) (h : Nat) (r : SysReq) (f : Found) : State :=
  let s := (s.modPager fun p => { p with launches := Tbl.erase p.launches h }).unbind (h / 2 ^ 20)
  match f.power with
  | some (die, short) => s.refuse r 0x0503 (die * 2 ^ 32 + short)
  | none => s.refuse r 0x0504 0

def State.servePlace (s : State) (r : SysReq) (now : Bool) (recPa : Nat) : State :=
  let h := r.vd.toNat
  let (x, s) := s.placeChecks h recPa
  match x with
  | .error e => ((s.reqFault r 0x0502 (refusedDetail e)).notify 0x0502 r.who.site h).sysReply coordSite r 0 true
  | .ok p =>
    let s := s.acceptPlace h p r
    if !now then
      s.modPager fun q => { q with waiting := q.waiting ++ [{ what := .place, handle := h, req := some r, data := true, denied := false }] }
    else
      match s.launch? h with
      | none => s
      | some l =>
        let (x, s) := s.plans l
        let plans := x.getD []
        let f := s.search l plans false [] l.bases
        match f.base with
        | some b => s.settleAt h l plans b true fun _ _ => 0
        | none => s.placeNone h r f

/-! ### Waiting placements and resumes (R294, R310, R315) -/

/-- Put copy 1 of a resident launch at a base, as the replay base gives it (R315). -/
def State.placeCopy (s : State) (h : Nat) (l : Launch) (plans : List Plan) (b : Nat × Nat × Nat)
    (items : List (SiteSnap × List SaveItem)) : State :=
  let l := { l with twin := some b }
  let s := ((s.setLaunch h l).load h l plans b true fun i v => usedLevel (items.getD i ((s.snapRegs l.ctx 0), [])).2 v).refreshBusy
  let s := ((l.sitesAt b).zip items).foldl (fun s p => s.backAt l p.1 p.2.1 p.2.2) s
  if l.state = .frozen then (l.sitesAt b).foldl (fun s n => s.modCtx n l.ctx fun k => { k with frozen := true }) s else s

/-- The image from which copy 1 can begin, as copy 0 stands: of an EVICTED launch its saved or empty one; of an IDLE or FROZEN one an empty
one where nothing is held, else the replay base where nothing has happened since (R309, R315). -/
def State.canCopy (s : State) (l : Launch) : Bool :=
  l.state == .evicted ||
  ((l.state == .idle || l.state == .frozen) && l.freeze.isNone &&
   ((l.sites.all fun n => s.nothingAt n l) || (l.base != .none && l.log.isEmpty && !l.baseRun)))

/-- What copy 1 of a resident launch begins with, by region position. -/
def State.copyItems (s : State) (l : Launch) : Option (List (SiteSnap × List SaveItem)) × State :=
  if l.sites.all fun n => s.nothingAt n l then (some (l.sites.map fun n => (s.snapRegs l.ctx n, [])), s) else s.baseItems l

/-- A waiting entry is settled. -/
def State.settled (s : State) (k : Nat) : State := s.modPager fun p => { p with waiting := listDrop1 p.waiting k }

/-- A search has found no base: 0x0510 once, where feature bits alone are wanting. -/
def State.searchFails (s : State) (h : Nat) (l : Launch) (w : WaitPlace) (k : Nat) (f : Found) : Bool × State :=
  match f.feat with
  | some m => (false, s.denyOnce h l w k m)
  | none => (false, s)

/-- A placement that waits; the copies of a twin are placed together. -/
def State.tryPlace (s : State) (w : WaitPlace) (k : Nat) (l : Launch) (plans : List Plan) : Bool × State :=
  let f := s.search l plans l.twin.isSome l.twin.toList l.bases
  match f.base with
  | some b => (true, (s.settled k).settleAt w.handle l plans b w.data fun _ _ => 0)
  | none => s.searchFails w.handle l w k f

def State.tryResume (s : State) (w : WaitPlace) (k : Nat) (l : Launch) (plans : List Plan) : Bool × State :=
  let (y, s) := s.readSegs l.asid 0 l.sites
  match y with
  | none => (true, (s.settled k).escalate w.handle l 2)
  | some items =>
    match s.resumeFit l plans items with
    | .ok => (true, (s.settled k).restoreAll w.handle l plans items)
    | .denied d => (false, s.denyOnce w.handle l w k d)
    | .no => (false, s)

/-- `twin.on` that waits. An EVICTED launch has no site (R289): copy 1 gets its base, and its sites with copy 0's (log entry 119). -/
def State.tryTwin (s : State) (w : WaitPlace) (k : Nat) (l : Launch) (plans : List Plan) : Bool × State :=
  if !s.canCopy l then
    (true, match w.req with
      | some r =>
        let l := { l with replies := l.replies.filter fun q => q.seq != r.seq }
        ((s.settled k).setLaunch w.handle l).stateRefused l r
      | none => s.settled k)
  else
    let f := s.search l plans true [] l.twinBases
    match f.base, l.sites.any fun n => !(s.site n).feat.getLsbD 4 with
    | some b, false =>
      if l.state = .evicted then (true, ((s.settled k).setLaunch w.handle { l with twin := some b }).answerAll w.handle)
      else
        let (y, s) := s.copyItems l
        match y with
        | none => (true, (s.settled k).escalate w.handle l 2)
        | some items => (true, (s.settled k).placeCopy w.handle l plans b items)
    | some _, true => (false, s.denyOnce w.handle l w k 16)
    | none, _ => s.searchFails w.handle l w k f

/-- Try waiting entry `k`: the state when it is settled; else what the try has written, if anything. -/
def State.tryWait (s : State) (k : Nat) : Bool × State :=
  match s.pager.waiting[k]? with
  | none => (false, s)
  | some w =>
    match s.launch? w.handle with
    | none => (true, s.settled k)
    | some l =>
      let (x, s) := s.plans l
      match x, w.what with
      | none, _ => (false, s)
      | some plans, .place => s.tryPlace w k l plans
      | some plans, .resume => s.tryResume w k l plans
      | some plans, .twin => s.tryTwin w k l plans

/-- PLACEMENT_RETRY: waiting entry `k` is tried, when no entry before it can be settled (R294). -/
def execPlacementRetry (k : Nat) (s : State) : Out :=
  if (List.range k).any fun i => (s.tryWait i).1 then .next s else .next (s.tryWait k).2

/-! ### The end of the wave (R92, R295, R309, R312) -/

/-- The copies whose sites are loaded and await the wave. -/
def State.heldSites (s : State) (h : Nat) (l : Launch) : List Nat :=
  l.allSites.filter fun n => match s.slot? n l.ctx with | some k => k.handle == h && k.held | none => false

/-- CONFIG_WAVE_DONE: the wave has passed the launch's loaded sites and returned; a rollback contains a launch of the owner as it
reaches IDLE (R391). -/
def execConfigWaveDone (h : Nat) (s : State) : Out :=
  match s.launch? h with
  | none => .next s
  | some l =>
    let sites := s.heldSites h l
    if sites.isEmpty then .next s
    else
      let s := s.wave l sites
      let s := match l.state with
        | .placing =>
          let s := sites.foldl (fun (s : State) n => s.newReplayPoint l.ctx n) s
          let rolls := s.rcv.roll.isSome && l.asid == s.rcv.asid
          let l := { l with state := if rolls then .containing else .idle, base := .empty, log := [], logOver := false, windowOver := false, credSince := false,
                            snap := s.snapAll l.ctx l.sites, eosAtBase := 0, inRun := false, cols := [], baseRun := false }
          s.setLaunch h l
        | .resuming =>
          let l := { l with state := l.running, base := .saved, log := [], logOver := false, windowOver := false, credSince := false,
                            eosAtBase := l.eosBase, cols := [], baseRun := l.inRun }
          s.setLaunch h l
        | .containing => s.setLaunch h { l with state := .running }
        | _ => s
      .next (s.answerAll h)

/-! ### `pevict` and `rmark` (R323, R324) -/

/-- Serve a request that needs a freeze, or that acts on a frozen launch. -/
def State.serveRound (s : State) (r : SysReq) (h : Nat) (l : Launch) : State :=
  if l.freeze.isSome then s.setLaunch h { l with behind := l.behind ++ [r] }
  else
    let runs := l.state == .idle || l.state == .running
    match r.ins with
    | .pevictVacate _ =>
      if l.state = .frozen then s.vacate h l (some r)
      else if runs then s.startFreeze h l (.vacate (some r))
      else s.stateRefused l r
    | .rmarkCut _ => if runs then s.startFreeze h l (.cut (some r)) else s.stateRefused l r
    | .rmarkFreeze _ => if runs then s.startFreeze h l (.freeze (some r)) else s.stateRefused l r
    | _ => s

/-- What waits behind a freeze that has ended is taken up, one after another. -/
def State.takeBehind (s : State) (h fuel : Nat) : State :=
  match fuel with
  | 0 => s
  | fuel + 1 =>
    match s.launch? h with
    | none => s
    | some l =>
      match l.behind, l.freeze with
      | r :: rest, none => ((s.setLaunch h { l with behind := rest }).serveRound r h { l with behind := rest }).takeBehind h fuel
      | _, _ => s

/-- QUIESCENCE_WAVE: one wave over a launch's region. Two in a row that find it still, with one ΣSENT, end the run once ΣEOS4 has
reached PR_NSINK (R304), or confirm a freeze (R307). -/
def execQuiescenceWave (h : Nat) (s : State) : Out :=
  match s.launch? h with
  | none => .next s
  | some l =>
    let t := s.sums l.ctx l.allSites
    match l.freeze with
    | some f =>
      if !s.allFrozen l || !t.still false then .next (s.setLaunch h { l with quiet := none })
      else if l.quiet = some t.sent then .next ((s.freezeDone h f.why).takeBehind h (l.behind.length + 1))
      else .next (s.setLaunch h { l with quiet := some t.sent })
    | none =>
      let eos := (s.sums l.ctx l.sites).eos4 + l.eosBase
      if l.state ≠ .running ∨ eos < l.nsink then .next s
      else if !t.still true then .next (s.setLaunch h { l with quiet := none })
      else if l.quiet = some t.sent then .next (s.endRun h l)
      else .next (s.setLaunch h { l with quiet := some t.sent })

/-! ### `qry`, `lnch`, `pclaim`, `twin` (R325 to R328) -/

/-- The reply of `qry.state`. -/
def Launch.stateWord (l : Launch) : Word :=
  fieldsWord [(0, l.state.code), (4, b2n l.twin.isSome), (5, b2n (l.base != .none)), (16, l.round.toNat), (32, l.bx), (40, l.by_), (48, l.w - 1),
    (56, l.h - 1)]

/-- The reply of `qry.quiet`: both waves read the same counters here, one after the other. -/
def State.quietWord (s : State) (l : Launch) : Word :=
  let t := s.sums l.ctx l.allSites
  fieldsWord [(0, b2n (t.still true)), (1, b2n l.inRun), (32, t.recv % 2 ^ 32)]

/-- RP_PWR_USED of a die (R290). -/
def State.powerUsed (s : State) (die : Nat) : Word := fieldsWord [(0, s.resv die % 2 ^ 20), (32, s.claimOf die % 2 ^ 20)]

def State.serveLnch (s : State) (r : SysReq) (h : Nat) (l : Launch) (ctl : Bool) (entry : Nat) : State :=
  if imgEntries (s.image l) ≤ entry then s.refuse r 0x050D r.vd.toNat
  else
    let x : Seed :=
      { entry := entry, ctl := ctl, psn := false, itn := BitVec.ofNat 16 r.vb.toNat, payload := r.va, tag := none, deps := r.deps }
    match s.acceptSeed h l x with
    | some s => s.sysReply coordSite r (BitVec.ofNat 64 h) false
    | none => s

def State.serveClaim (s : State) (r : SysReq) (die : Nat) (up : Bool) : State :=
  let mw := r.va.toNat
  let set (s : State) (v : Nat) : State :=
    (s.modPager fun p => { p with claim := Tbl.put p.claim die v 0 }).sysReply coordSite r (BitVec.ofNat 64 v) false
  if 2 ^ 20 ≤ mw then s.refuse r 0x050D mw
  else if !up then set s (s.claimOf die - mw)
  else if s.powerShort die mw = 0 then set s (s.claimOf die + mw)
  else s.refuse r 0x0503 (die * 2 ^ 32 + s.powerShort die mw)

/-- `twin.on` of a launch that a second copy can match (R315, R328). -/
def State.serveTwinOn (s : State) (r : SysReq) (h : Nat) (l : Launch) : State :=
  if l.twin.isSome ∨ !s.canCopy l then s.stateRefused l r
  else
    (s.setLaunch h { l with replies := l.replies ++ [r] }).modPager fun p =>
      { p with waiting := p.waiting ++ [{ what := .twin, handle := h, req := some r, data := true, denied := false }] }

/-- Serve a request that names a launch. -/
def State.serveLaunch (s : State) (r : SysReq) : State :=
  let h := r.vd.toNat
  match s.launch? h with
  | none => s.refuse r 0x050D h
  | some l =>
    match r.ins with
    | .pevictVacate _ | .rmarkCut _ | .rmarkFreeze _ => s.serveRound r h l
    | .pevictKill _ => (s.kill h l).sysReply coordSite r r.vd false
    | .pevictContain _ => if l.state.canContain then s.contain h l 3 (some r) else s.stateRefused l r
    | .rmarkResume _ =>
      if l.freeze.isSome then s.stateRefused l r
      else if l.state = .frozen then (s.unfreeze h l).sysReply coordSite r r.vd false
      else if l.state = .evicted then s.recall h (some r)
      else s.stateRefused l r
    | .qryState _ => s.sysReply coordSite r l.stateWord false
    | .qryQuiet _ => s.sysReply coordSite r (s.quietWord l) false
    | .lnch ctl x => s.serveLnch r h l ctl (x.hi.toNat % 2 ^ 16)
    | .twinOn _ => s.serveTwinOn r h l
    | .twinOff _ =>
      let s := if l.twin.isSome then s.setLaunch h { l with twinOff := true } else s
      s.sysReply coordSite r 0 false
    | _ => s

/-- Serve one pager request. -/
def State.servePager (s : State) (r : SysReq) : State :=
  if r.psn then s.refuse r 0x050F r.word.toNat
  else
    match r.ins with
    | .pplace now _ => s.servePlace r now r.va.toNat
    | .pclaimClaim x => s.serveClaim r (x.hi.toNat % 8) true
    | .pclaimRelease x => s.serveClaim r (x.hi.toNat % 8) false
    | .qryPower x => s.sysReply coordSite r (s.powerUsed (x.hi.toNat % 8)) false
    | _ => s.serveLaunch r

/-- A `lnch` waits at the coordinator while its launch's seed queue is full (R301), and behind an earlier `lnch` of the launch. -/
def State.lnchWaits (s : State) (before : List SysReq) (r : SysReq) : Bool :=
  match r.ins with
  | .lnch .. =>
    (match s.launch? r.vd.toNat with
     | some l => !(l.state == .failed) && !(l.open_ && l.seeds.isEmpty) && decide (64 ≤ l.seeds.length)
     | none => false) ||
    before.any fun q => q.vd == r.vd && (match q.ins with | .lnch .. => true | _ => false)
  | _ => false

/-- The first request that the coordinator can take: every earlier MEM write of its context at its site has performed (R321). -/
def State.pagerNext (s : State) : Option Nat :=
  (List.range s.pager.queue.length).find? fun i =>
    match s.pager.queue[i]? with
    | some r => !s.memWritesBefore r && !s.lnchWaits (s.pager.queue.take i) r
    | none => false

/-- The coordinator serves its next request. -/
def State.pagerServe (s : State) : State :=
  match s.pagerNext with
  | none => s
  | some i =>
    match s.pager.queue[i]? with
    | none => s
    | some r => ((s.carryBefore r).modPager fun p => { p with queue := listDrop1 p.queue i }).servePager r

/-! ### Power and heat (R299, R300) -/

/-- POWER_WINDOW: a site's window of 1,024 clk closes; each context whose measured class exceeds its page's is reported once. -/
def execPowerWindow (n : Nat) (s : State) : Out :=
  let recs := (s.site n).obs.power
  let s := s.modSite n fun x => { x with obs := { x.obs with power := [] } }
  .next (recs.foldl
    (fun s r =>
      match s.slot? n r.1, r.2.who with
      | some k, some w =>
        let pcls := match k.page with | some p => p.pcls | none => 0
        if r.2.cls ≤ pcls then s
        else
          let clk := 1 + Config.clkCount s.free % 1024
          let s := s.bumpFree.logPort w 0x0501 (r.2.cls + pcls * 2 ^ 4 + clk * 2 ^ 16) 0 0 0
          if s.pager.pcFreeze then s.freezeFor k.handle .power else s
      | _, _ => s)
    s)

/-- THERMAL_DUTY_STEP: every 10 µs, DUTY of a die moves by 16 against its threshold. -/
def execThermalDutyStep (die : Nat) (s : State) : Out :=
  if s.clk < Tbl.getD s.pager.dutyAt die 0 + 14000 then .next s
  else
    let t := (Config.temperature s.free die).toNat
    let limit := Tbl.getD s.pager.tlim die 95
    let d := Tbl.getD s.pager.duty die 0
    let d' := if limit ≤ t then Nat.min 240 (d + 16) else if t + 5 ≤ limit then d - 16 else d
    .next (s.bumpFree.modPager fun p =>
      { p with duty := Tbl.put p.duty die d' 0, temp := Tbl.put p.temp die t 0, dutyAt := Tbl.set p.dutyAt die s.clk })

end Sys2Proof.Machine
end

