-- ==== Sys2Proof/Machine/Experts.lean ====
section
/-! DEFINITION. The expert placement engine: pages (R360 to R362), routing (R359), versions (R357), retiring and failure (R365, R366),
grafting (R363, R364), counters (R358, R376). -/
namespace Sys2Proof.Machine

/-- The site of the engine's register block (R373). -/
def xpSite : Nat := 2064

def State.modXp (s : State) (f : XpState → XpState) : State := { s with xp := f s.xp }

def State.modRep (s : State) (k : Nat) (f : Replica → Replica) : State :=
  match Tbl.get? s.xp.reps k with
  | some r => s.modXp fun x => { x with reps := Tbl.set x.reps k (f r) }
  | none => s

def XpState.row (x : XpState) (e : Nat) : List Nat := Tbl.getD x.rows e []

def XpState.live (x : XpState) : Nat := (x.reps.filter fun p => p.2.state == .live).length

/-! ### Replies and faults (R374, R375) -/

def State.xpReply (s : State) (r : SysReq) (v : Word) : State := s.sysReply xpSite r v false

/-- A request that fails: the record, then payload 0 and PSN 1. -/
def State.xpFail (s : State) (r : SysReq) (code detail : Nat) : State := (s.logFault r.who code detail).sysReply xpSite r 0 true

/-- A request that fails with a record in context 7's ring. -/
def State.xpFail7 (s : State) (r : SysReq) (code detail : Nat) : State := (s.sysFault xpSite code detail).sysReply xpSite r 0 true

/-! ### Memory (R65, R356, R369) -/

/-- The engine's own accesses. -/
def State.xpAgent (s : State) : Agent × State :=
  let (q, s) := s.takeSeq
  ({ path := 5, site := xpSite, ctx := 7, seq := q, obs := deviceWide xpSite, strong := true }, s)

def DispEntry.who (d : DispEntry) : Who := d.req.who

/-- Translate a range in the owner's map to HBM. -/
def State.ownerMap (s : State) (w : Bool) (va n : Nat) : Except Nat (List Xlat) × State :=
  s.mapParts xpSite s.xp.asid [0] w (cut (2 ^ 21) va n)

/-- Write bytes of the owner's map; a page that does not translate is reported (R374). The flag says whether they were written. -/
def State.ownerWrite (s : State) (g : Agent) (who : Who) (va : Nat) (l : List Byte) : Bool × State :=
  let (x, s) := s.ownerMap true va l.length
  match x with
  | .ok x => (true, s.writePieces g (xlatPieces x va l.length) l)
  | .error a => (false, s.logFault who 0x0707 a)

/-- Read bytes of the owner's map for a request, or its failure: code and DETAIL. -/
def State.ownerRead (s : State) (r : SysReq) (va n : Nat) : Except (Nat × Nat) (List Byte) × State :=
  let (x, s) := s.ownerMap false va n
  match x with
  | .error a => (.error (0x0707, a), s)
  | .ok x =>
    let (l, s) := s.readRange 5 r x va n
    match l.bad with
    | [] => (.ok l.bytes, s)
    | b :: _ => (.error (0x070C, va + b.1), s)

/-- A fence of the engine: before-set XPE, after-set all paths, device scope (R361, R363). Answers its number, which is a cause of what
follows it. -/
def State.xpFence (s : State) : Nat × State := s.engineFence (pathBit 5) (deviceWide xpSite)

/-- The fences of a page's release: the engine's (R361), and that of a record with AFTER set (R88). -/
def State.releaseFence (s : State) : Nat × State := s.engineFence (pathBit 5 ||| pathBit 7) (deviceWide xpSite)

/-! ### Pages (R360 to R362) -/

def XpState.pageVa (x : XpState) (p : Nat) : Nat := x.pool + 1024 * p

/-- The page that a replica of expert `e` would open: the lowest free shared page, or the reserved one. -/
def XpState.freePage (x : XpState) (e : Nat) : Option Nat :=
  match ((List.range (x.pooln - x.nexp)).map (x.nexp + ·)).find? fun p => !Tbl.has x.pages p with
  | some p => some p
  | none => if Tbl.has x.pages e then none else some e

/-- XP_STATUS.FREE. -/
def XpState.freeShared (x : XpState) : Nat := x.pooln - x.nexp - (x.pages.filter fun p => decide (x.nexp ≤ p.1)).length

/-- Close the open page of a replica for `who`, whose access it is (R369): its bytes from 0x200 on, and into the entry queue (R360, R361).
The flag says whether the bytes were written. -/
def State.closePage (s : State) (g : Agent) (who : Who) (k : Nat) : Bool × State :=
  match Tbl.get? s.xp.reps k with
  | none => (true, s)
  | some r =>
    match r.openPage with
    | none => (true, s)
    | some p =>
      let pg := Tbl.getD s.xp.pages p { rows := [], stamp := 0, closed := false }
      let l := toBytes r.word.toNat 8 ++ toBytes pg.stamp.toNat 2 ++ toBytes pg.rows.length 1 ++ List.replicate 501 0
      let (ok, s) := s.ownerWrite g who (s.xp.pageVa p + 0x200) l
      let s := s.modXp fun x => { x with pages := Tbl.set x.pages p { pg with closed := true } }
      (ok, s.modRep k fun r => { r with openPage := none, queue := r.queue ++ [p] })

/-- The engine closes a page on its own account. -/
def State.closeOwn (s : State) (k : Nat) : State :=
  let (g, s) := s.xpAgent
  (s.closePage g { Who.zero with site := xpSite, ctx := 7 } k).2

/-- The fullest open page: its replica, ties to the lowest id (R362). -/
def XpState.fullest (x : XpState) : Option Nat :=
  (x.reps.foldl
    (fun (a : Option (Nat × Nat)) p =>
      match p.2.openPage with
      | none => a
      | some g =>
        let n := (Tbl.getD x.pages g { rows := [], stamp := 0, closed := false }).rows.length
        match a with
        | some (_, m) => if m < n then some (p.1, n) else a
        | none => some (p.1, n))
    none).map (·.1)

/-- The pool watchdog closes the fullest open page (R362), for the entry that finds no page. -/
def State.watchdog (s : State) (d : DispEntry) : State :=
  match s.xp.fullest with
  | some k => (s.closePage (s.reqAgent 5 d.req) d.who k).2.modXp fun x => { x with forced := x.forced + 1 }
  | none => s

/-- Write an entry into the page of replica `k`, opening one; none when no page can be had (R359, R360). The flag says whether the page's
writes found their page of memory: where they do not, the entry is lost (R374). -/
def State.putEntry (s : State) (k : Nat) (d : DispEntry) : Option (Bool × State) :=
  match Tbl.get? s.xp.reps k with
  | none => none
  | some r =>
    match r.openPage.or (s.xp.freePage d.expert) with
    | none => none
    | some p =>
      let pg := match r.openPage with
        | some p => Tbl.getD s.xp.pages p { rows := [], stamp := 0, closed := false }
        | none => { rows := [], stamp := 0, closed := false }
      let g := s.reqAgent 5 d.req
      let (ok, s) := s.ownerWrite g d.who (s.xp.pageVa p + 8 * pg.rows.length) (toBytes d.payload.toNat 8)
      if !ok then some (false, s)
      else
        let pg := { pg with rows := pg.rows ++ [d.payload], stamp := s.xp.ver }
        let s := s.modXp fun x => { x with pages := Tbl.set x.pages p pg }
        let s := s.modRep k fun r => { r with openPage := some p }
        some (if r.batch ≤ pg.rows.length then s.closePage g d.who k else (true, s))

/-- Writes of this device to itself, through its own inbound windows, that have not performed (R88). -/
def State.homeStores (s : State) : Bool :=
  s.reqs.any fun r =>
    r.ins.writes && r.answer.isNone && (r.pieces?.getD []).any fun p => p.typ == 4 && s.isSelf p.dev && typeOfPa p.pa != 9

/-- PAGE_RELEASE: the next page of a replica's entry queue is released, while its redo log has room, earlier STOREs of this device to itself
have performed (R88), and the launch takes the seed (R361). -/
def execPageRelease (k : Nat) (s : State) : Out :=
  match Tbl.get? s.xp.reps k with
  | none => .next s
  | some r =>
    match r.queue with
    | [] => .next s
    | p :: rest =>
      if 64 ≤ r.redo.length ∨ s.homeStores = true then .next s
      else
        let pg := Tbl.getD s.xp.pages p { rows := [], stamp := 0, closed := true }
        let (q, t) := s.releaseFence
        let t := t.modRep k fun r => { r with queue := rest, redo := r.redo ++ [(p, 0)] }
        let x : Seed :=
          { entry := r.entry, ctl := false, psn := false, itn := pg.stamp, payload := BitVec.ofNat 64 (pg.rows.length * 2 ^ 56 + s.xp.pageVa p),
            tag := some p, deps := [q], io := 1 }
        match t.launch? r.handle with
        | none => .next (t.linkFault xpSite 0x0902 r.handle)
        | some l => .next ((t.acceptSeed r.handle l x).getD s)

/-- A retiring replica without pages is drained, and its request answered (R365). -/
def State.checkDrained (s : State) (k : Nat) : State :=
  match Tbl.get? s.xp.reps k with
  | none => s
  | some r =>
    if r.state = .retiring ∧ r.queue.isEmpty ∧ r.redo.isEmpty ∧ r.openPage.isNone then
      let s := s.modRep k fun r => { r with state := .drained, drainReq := none }
      match r.drainReq with
      | some q => s.xpReply q (BitVec.ofNat 64 k)
      | none => s
    else s

/-- PAGE_RETIRE: the pages of a replica whose run has ended become free (R361). -/
def execPageRetire (k : Nat) (s : State) : Out :=
  match Tbl.get? s.xp.reps k with
  | none => .next s
  | some r =>
    match s.launch? r.handle with
    | none => .next s
    | some l =>
      let done (x : Nat × Nat) : Bool := x.2 != 0 && decide (x.2 ≤ l.runs)
      let gone := (r.redo.filter done).map (·.1)
      let s := s.modRep k fun r => { r with redo := r.redo.filter fun x => !done x }
      let s := s.modXp fun x => { x with pages := x.pages.filter fun p => !gone.contains p.1 }
      .next (s.checkDrained k)

/-! ### Versions and rows (R357, R359, R378) -/

/-- The version advances, and the `xver.wait` requests that it satisfies are answered. -/
def verReached (ver want : BitVec 16) : Bool := decide ((ver - want).toNat < 2 ^ 15)

def State.nextVersion (s : State) : State :=
  let v := s.xp.ver + 1
  let ok (r : SysReq) : Bool := verReached v (BitVec.ofNat 16 r.va.toNat)
  let out := s.xp.verWait.filter ok
  let s := s.modXp fun x => { x with ver := v, verWait := x.verWait.filter fun r => !ok r }
  out.foldl (fun s r => s.xpReply r (v.setWidth 64)) s

/-- 0x0706, once while a row is empty (R359). -/
def State.noteNoReplica (s : State) (e : Nat) : State :=
  if s.xp.noRep.contains e then s
  else ((s.sysFault xpSite 0x0706 e).notify 0x0706 xpSite 0).modXp fun x => { x with noRep := x.noRep ++ [e] }

/-- A replica leaves its row, and the version advances. -/
def State.leaveRow (s : State) (k e : Nat) : State :=
  let row := (s.xp.row e).filter (· ≠ k)
  let had := (s.xp.row e).contains k
  let s := s.modXp fun x => { x with rows := Tbl.put x.rows e row [] }
  let s := s.nextVersion
  if had && row.isEmpty then s.noteNoReplica e else s

/-- Pages without a replica go to the replicas of a row in turn (R366 step 3). -/
def State.redirect (s : State) (e : Nat) : State :=
  let row := s.xp.row e
  if row.isEmpty then s
  else
    let mine := s.xp.orphans.filter (·.1 == e)
    let s := s.modXp fun x => { x with orphans := x.orphans.filter (·.1 ≠ e) }
    mine.zipIdx.foldl (fun s p => s.modRep (row.getD (p.2 % row.length) 0) fun r => { r with queue := r.queue ++ [p.1.2] }) s

/-! ### Routing (R359, R362) -/

/-- The replica that an entry goes to. -/
def XpState.replicaFor (x : XpState) (d : DispEntry) : Option Nat :=
  let row := x.row d.expert
  if row.isEmpty then none else row[d.key % row.length]?

/-- Can the entry be written now? -/
def XpState.canPut (x : XpState) (d : DispEntry) : Bool :=
  match x.replicaFor d with
  | none => false
  | some k => match Tbl.get? x.reps k with | some r => r.openPage.isSome || (x.freePage d.expert).isSome | none => false

def State.countEntry (s : State) (e n : Nat) : State :=
  s.modXp fun x => { x with counters := Tbl.put x.counters e (BitVec.ofNat 32 (Nat.min ((Tbl.getD x.counters e 0).toNat + n) (2 ^ 32 - 1))) 0 }

/-- The first waiting entry that satisfies `f` and has no earlier one of its expert before it. -/
def XpState.waitingWhere (x : XpState) (f : DispEntry → Bool) : Option (Nat × DispEntry) :=
  (x.waiting.zipIdx.find? fun p => f p.1 && !((x.waiting.take p.2).any fun d => d.expert == p.1.expert)).map fun p => (p.2, p.1)

/-- What became of the entry at the head of the dispatch: routed to a replica, waiting, or skipped. -/
inductive Routed where
  | to (k : Nat)
  | waits
  | skipped
  deriving DecidableEq, Repr

/-- The dispatch moves on past an entry; its reply follows the last (R375, R377). -/
def State.routedOne (s : State) (c : Dispatch) (rest : List DispEntry) (w : Routed) : State :=
  let done := c.done + (match w with | .skipped => 0 | _ => 1)
  let ver := s.xp.ver.toNat
  match rest with
  | _ :: _ => s.modXp fun x => { x with cur := some { c with rest := rest, done := done } }
  | [] =>
    let s := s.modXp fun x => { x with cur := none }
    match c.req.ins with
    | .xdspOne _ =>
      let v := match w with
        | .to k => fieldsWord [(0, ver), (16, k % 1024)]
        | .waits => fieldsWord [(0, ver), (26, 1)]
        | .skipped => fieldsWord [(0, ver)]
      s.xpReply c.req v
    | _ => s.xpReply c.req (fieldsWord [(0, done % 2 ^ 32), (32, ver)])

/-- A dispatch whose write found no page of memory fails: its entries go no further (R374). -/
def State.dispatchFails (s : State) (c : Dispatch) : State := (s.modXp fun x => { x with cur := none }).sysReply xpSite c.req 0 true

/-- The entry at the head joins the waiting list, and has been counted; it stays where it is when the list is full (R359). -/
def State.headWaits (s : State) (c : Dispatch) (d : DispEntry) (rest : List DispEntry) : State :=
  if 256 ≤ s.xp.waiting.length then s
  else ((s.countEntry d.expert 1).modXp fun x => { x with waiting := x.waiting ++ [d] }).routedOne c rest .waits

/-- Route the entry at the head of the dispatch; behind waiting entries of its expert it waits as they do (R359). -/
def State.routeHead (s : State) (c : Dispatch) : State :=
  match c.rest with
  | [] => s
  | d :: rest =>
    if s.xp.nexp ≤ d.expert then (s.logFault d.who 0x0704 (d.index * 2 ^ 16 + d.expert % 2 ^ 16)).routedOne c rest .skipped
    else
      match s.xp.replicaFor d with
      | none => (s.noteNoReplica d.expert).headWaits c d rest
      | some k =>
        if s.xp.waiting.any fun w => w.expert == d.expert then s.headWaits c d rest
        else
          match s.putEntry k d with
          | some (true, s) => (s.countEntry d.expert 1).routedOne c rest (.to k)
          | some (false, s) => (s.countEntry d.expert 1).dispatchFails c
          | none => (s.watchdog d).headWaits c d rest

/-- ROUTE_ENTRY: one entry is routed: a waiting one that can be, else the head of the dispatch; or, by a free choice, a waiting entry that
finds no page calls the watchdog (R359, R362). -/
def execRouteEntry (s : State) : Out :=
  match s.xp.waitingWhere s.xp.canPut with
  | some (i, d) =>
    match s.xp.replicaFor d with
    | none => .next s
    | some k => .next (((s.putEntry k d).map (·.2)).getD s |>.modXp fun x => { x with waiting := listDrop1 x.waiting i })
  | none =>
    let stuck := if s.xp.fullest.isSome then (s.xp.waitingWhere fun d => (s.xp.replicaFor d).isSome).map (·.2) else none
    match s.xp.cur, stuck with
    | some c, some d => if Config.pick s.free % 2 == 0 then .next (s.bumpFree.watchdog d) else .next (s.bumpFree.routeHead c)
    | some c, none => .next (s.bumpFree.routeHead c)
    | none, some d => .next (s.watchdog d)
    | none, none => .next s

/-! ### Requests (R376 to R378, R381) -/

/-- Count a list of ids: those that are no expert are reported (R376). -/
def State.countIds (s : State) (r : SysReq) (l : List Byte) (n : Nat) : Nat × State :=
  (List.range n).foldl
    (fun (a : Nat × State) i =>
      let e := field l (4 * i) 4
      if 2 ^ 16 ≤ e ∨ a.2.xp.nexp ≤ e then (a.1, a.2.logFault r.who 0x0704 (i * 2 ^ 16 + e % 2 ^ 16))
      else (a.1 + 1, a.2.countEntry e 1))
    (0, s)

/-- Write the histogram; `.take` clears the counters in the same instant (R376). -/
def State.histogram (s : State) (r : SysReq) (take : Bool) : State :=
  let vals := (List.range s.xp.nexp).map fun e => (Tbl.getD s.xp.counters e 0).toNat
  let va := r.va.toNat
  let (x, s) := s.ownerMap true va (4 * s.xp.nexp)
  match x with
  | .error a => s.xpFail r 0x0707 a
  | .ok x =>
    let s := s.writeRange 5 r x va (vals.flatMap fun v => toBytes v 4)
    let s := if take then s.modXp fun x => { x with counters := [] } else s
    s.xpReply r (BitVec.ofNat 64 (vals.foldl (· + ·) 0))

/-- Begin a dispatch: its entries, or the failure of its list (R377). -/
def State.beginDispatch (s : State) (r : SysReq) : State :=
  let start (s : State) (l : List DispEntry) : State := s.modXp fun x => { x with cur := some { req := r, rest := l, done := 0 } }
  match r.ins with
  | .xdspOne _ =>
    start s [{ expert := r.vd.toNat, payload := r.va, key := r.vb.toNat % 2 ^ 16, index := 0, req := r }]
  | .xdspArr _ =>
    let n := r.vb.toNat
    let (x, s) := s.ownerRead r r.va.toNat (4 * n)
    match x with
    | .error f => s.xpFail r f.1 f.2
    | .ok l =>
      start s ((List.range n).map fun i =>
        { expert := field l (4 * i) 4, payload := r.vd + BitVec.ofNat 64 i, key := i % 2 ^ 16, index := i, req := r })
  | _ =>
    let ks := (s.xp.reps.filter fun p => p.2.openPage.isSome).map (·.1)
    let (ok, s) := ks.foldl (fun (x : Bool × State) k => let (ok, s) := x.2.closePage (x.2.reqAgent 5 r) r.who k; (x.1 && ok, s)) (true, s)
    if ok then s.xpReply r (BitVec.ofNat 64 ks.length) else s.sysReply xpSite r 0 true

def RepState.code (x : RepState) : Nat :=
  match x with
  | .free => 0 | .live => 1 | .retiring => 2 | .drained => 3 | .failed => 4

def State.repState (s : State) (k : Nat) : RepState := match Tbl.get? s.xp.reps k with | some r => r.state | none => .free

/-- `xret.drain` (R365). -/
def State.drain_ (s : State) (r : SysReq) (k : Nat) : State :=
  match Tbl.get? s.xp.reps k with
  | none => s.xpFail7 r 0x0709 k
  | some p =>
    if p.state ≠ .live then s.xpFail7 r 0x0709 (k + p.state.code * 2 ^ 16)
    else if (s.xp.row p.expert).length ≤ 1 then s.xpFail7 r 0x0703 k
    else
      let s := (s.leaveRow k p.expert).modRep k fun x => { x with state := .retiring, drainReq := some r }
      (s.closePage (s.reqAgent 5 r) r.who k).2.checkDrained k

/-- `xret.free` (R365). -/
def State.freeRep (s : State) (r : SysReq) (k : Nat) : State :=
  match Tbl.get? s.xp.reps k with
  | none => s.xpFail7 r 0x0709 k
  | some p =>
    if p.state ≠ .drained ∧ p.state ≠ .failed then s.xpFail7 r 0x0709 (k + p.state.code * 2 ^ 16)
    else
      let s := match s.launch? p.handle with
        | some l => s.kill p.handle l
        | none => s
      (s.modXp fun x => { x with reps := Tbl.erase x.reps k }).xpReply r (BitVec.ofNat 64 k)

/-- REPLICA_FAILED: a fault of R366, or a failed launch (R371), fails a live or retiring replica: its pages go to its expert's other
replicas. -/
def execReplicaFailed (k : Nat) (s : State) : Out :=
  match Tbl.get? s.xp.reps k with
  | none => .next s
  | some r =>
    let lost := match s.launch? r.handle with | some l => l.state == .failed | none => false
    if (r.state ≠ .live ∧ r.state ≠ .retiring) ∨ !(lost || s.xp.hurt.contains r.handle) then .next s
    else
      let s := s.modXp fun x => { x with hurt := x.hurt.filter (· ≠ r.handle) }
      let s := (s.modRep k fun x => { x with state := .failed, drainReq := none }).leaveRow k r.expert
      let s := match s.launch? r.handle with
        | some l => s.kill r.handle l
        | none => s
      let s := s.closeOwn k
      let queue := match Tbl.get? s.xp.reps k with | some x => x.queue | none => []
      let pages := r.redo.map (·.1) ++ queue
      let s := s.modRep k fun x => { x with redo := [], queue := [] }
      let stamp (s : State) (p : Nat) : State :=
        let (g, s) := s.xpAgent
        let pg := Tbl.getD s.xp.pages p { rows := [], stamp := 0, closed := true }
        let s := s.modXp fun x => { x with pages := Tbl.set x.pages p { pg with stamp := x.ver } }
        (s.ownerWrite g { Who.zero with site := xpSite, ctx := 7 } (s.xp.pageVa p + 0x208) (toBytes s.xp.ver.toNat 2)).2
      let s := pages.foldl stamp s
      let s := (s.modXp fun x => { x with orphans := x.orphans ++ pages.map fun p => (r.expert, p) }).redirect r.expert
      let s := (s.sysFault xpSite 0x0705 (k + pages.length * 2 ^ 16)).notify 0x0705 xpSite 0
      match r.drainReq with
      | some q => .next (s.sysReply xpSite q 0 true)
      | none => .next s

/-! ### Grafting (R363, R364) -/

/-- The bytes of a range that a failed copy leaves undefined (R247; log entry 8). -/
def State.bytesUndefined (s : State) (g : Agent) (pa n : Nat) : State :=
  s.bumpFree.writeMem g pa ((List.range n).map fun i => Config.wsUndefined s.free (pa + i))

/-- The contents of the whole bank of a weight-store address become undefined (R364; log entry 8). -/
def State.bankUndefined (s : State) (pa : Nat) : State :=
  { s.bumpFree with mem := { s.mem with wild := Tbl.set s.mem.wild ((pa - 0x8000000000) / 2 ^ 27) s.free } }

/-- A graft fails at a stage: the launch that stage 4 placed is killed, and the bank of a copy that has begun is undefined. -/
def State.graftFail (s : State) (g : Graft) (code : Nat) : State :=
  let h := field g.desc 0x30 4
  let s := if g.placing then (match s.launch? h with | some l => s.kill h l | none => s) else s
  let s := if 3 ≤ g.stage ∨ code = 0x030E then s.bankUndefined (field g.desc 8 8) else s
  let s := s.modXp fun x => { x with graft := none }
  ((s.sysFault xpSite 0x0702 (g.stage + code * 2 ^ 8)).notify 0x0702 xpSite 0).sysReply xpSite g.req 0 true

/-- The first bad field of a graft descriptor (R363). -/
def graftBad (owner : Nat) (l : List Byte) : Bool :=
  let dst := field l 8 8
  let n := field l 0x10 4
  let b := field l 0x16 1
  field l 0 8 % 1024 != 0 || dst % 1024 != 0 || paTarget dst != .weight || n == 0 || n % 1024 != 0 ||
  decide (dst / 2 ^ 27 ≠ (dst + n - 1) / 2 ^ 27) || b == 0 || decide (64 < b) || field l 0x17 1 != 0 || field l 0x30 4 / 2 ^ 20 != owner ||
  !zeroBytes l 0x36 10

/-- Is the bank of a weight-store address mapped for reading (R212)? -/
def State.bankMapped (s : State) (pa : Nat) : Bool :=
  (Tbl.getD s.mem.wsBusy ((pa - 0x8000000000) / 2 ^ 31) 0).getLsbD ((pa - 0x8000000000) / 2 ^ 27 % 16)

/-- The graft moves to its next stage. -/
def State.graftNext (s : State) (g : Graft) : State := s.modXp fun x => { x with graft := some { g with stage := g.stage + 1 } }

/-- Stage 1: the descriptor, the expert, its row, a free record. -/
def State.graft1 (s : State) (g : Graft) : State :=
  let (x, s) := s.mapRange g.req [0] false g.req.va.toNat 64
  match x with
  | .error _ => s.graftFail g 0x0707
  | .ok x =>
    let (l, s) := s.readRange 5 g.req x g.req.va.toNat 64
    let g := { g with desc := l.bytes }
    let e := field l.bytes 0x14 2
    if !l.bad.isEmpty then s.graftFail g 0x070C
    else if graftBad s.xp.asid l.bytes then s.graftFail g 0x0708
    else if s.xp.nexp ≤ e then s.graftFail g 0x0704
    else if 8 ≤ (s.xp.row e).length ∨ 1024 ≤ s.xp.reps.length then s.graftFail g 0
    else s.graftNext g

/-- Stage 2: the copy, as `wsld` (R212, R247). -/
def State.graft2 (s : State) (g : Graft) : State :=
  let src := field g.desc 0 8
  let dst := field g.desc 8 8
  let n := field g.desc 0x10 4
  let a := s.reqAgent 5 g.req
  if s.bankMapped dst then s.graftFail g 0x0308
  else
    let (x, s) := s.mapRange g.req [0, 1, 2] false src n
    match x with
    | .error _ => s.graftFail g 0x0707
    | .ok x =>
      let (l, s) := s.readRange 5 g.req x src n
      if !l.bad.isEmpty then s.graftFail g 0x030E
      else (s.writeMem a dst l.bytes).graftNext g

/-- Stage 3: the bytes read back. -/
def State.graft3 (s : State) (g : Graft) : State :=
  let dst := field g.desc 8 8
  let n := field g.desc 0x10 4
  let (l, s) := s.readRun { s.reqAgent 5 g.req with strong := true } dst n 64
  if !l.bad.isEmpty then s.graftFail g 0x030E else if crc64 l.bytes != field g.desc 0x18 8 then s.graftFail g 0 else s.graftNext g

/-- Stage 4: the launch is placed as by `pplace.wait`, and stands. -/
def State.graft4 (s : State) (g : Graft) : State :=
  let h := field g.desc 0x30 4
  if !g.placing then
    let (x, s) := s.placeChecks h (field g.desc 0x20 8)
    match x with
    | .error _ => s.graftFail g 0x0502
    | .ok p =>
      let r := { g.req with target := none }
      (s.acceptPlace h p r).modXp (fun x => { x with graft := some { g with placing := true } }) |>.modPager fun q =>
        { q with waiting := q.waiting ++ [{ what := .place, handle := h, req := some r, data := true, denied := false }] }
  else
    match s.launch? h with
    | none => s.graftFail g 0
    | some l => if l.state = .failed then s.graftFail g 0x050A else if l.state = .placing then s else s.graftNext g

/-- Stage 6, the publication. -/
def State.graft6 (s : State) (g : Graft) : State :=
  let e := field g.desc 0x14 2
  match (List.range 1024).find? fun k => !Tbl.has s.xp.reps k with
  | none => s.graftFail g 0
  | some k =>
    let r : Replica :=
      { state := .live, handle := field g.desc 0x30 4, entry := field g.desc 0x34 2, expert := e, word := BitVec.ofNat 64 (field g.desc 0x28 8),
        batch := field g.desc 0x16 1, openPage := none, queue := [], redo := [], drainReq := none }
    let s := s.modXp fun x =>
      { x with
        reps := Tbl.set x.reps k r
        rows := Tbl.set x.rows e (x.row e ++ [k])
        graft := none
        noRep := x.noRep.filter (· ≠ e)
        hurt := x.hurt.filter (· ≠ r.handle) }
    let s := s.nextVersion.redirect e
    s.xpReply g.req (fieldsWord [(0, k), (16, s.xp.ver.toNat)])

/-- GRAFT_STAGE_DONE: the graft's next stage (R363). A bank in refresh makes a copy wait (R213). -/
def execGraftStageDone (s : State) : Out :=
  match s.xp.graft with
  | none => .next s
  | some g =>
    match g.stage with
    | 1 => .next (s.graft1 g)
    | 2 => if s.mem.refreshing (field g.desc 8 8) then .next s else .next (s.graft2 g)
    | 3 => if s.mem.refreshing (field g.desc 8 8) then .next s else .next (s.graft3 g)
    | 4 => .next (s.graft4 g)
    | 5 =>
      let (q, s) := s.xpFence
      .next (s.graftNext { g with req := { g.req with deps := q :: g.req.deps } })
    | _ => .next (s.graft6 g)

end Sys2Proof.Machine
end

