-- ==== Sys2Proof/Machine/Layer.lean ====
section
/-! DEFINITION. The expert placement engine's layer plans (R367) and gradient merge (R368), and how it takes its requests (R356, R359,
R375). -/
namespace Sys2Proof.Machine

/-! ### Per-layer resizing (R367) -/

/-- The fields of a layer plan. -/
structure LayerPlan where
  handle : Nat
  first : Nat
  n : Nat
  min : Nat
  cols : Nat
  img : Nat
  share : Nat
  deriving DecidableEq, Repr

def LayerPlan.of (l : List Byte) : LayerPlan :=
  { handle := field l 0 4, first := field l 4 2, n := field l 6 1, min := field l 7 1, cols := field l 8 1, img := field l 0x10 8,
    share := field l 0x18 8 }

/-- The first bad field of a plan, given its launch. -/
def LayerPlan.bad (p : LayerPlan) (raw : List Byte) (x : XpState) (l : Option Launch) (hbm : Bool) : Option Nat :=
  let checks : List (Nat × Bool) :=
    [(0x00, p.handle / 2 ^ 20 == x.asid && l.isSome),
     (0x04, decide (p.first + p.n ≤ x.nexp)),
     (0x06, decide (1 ≤ p.n ∧ p.n ≤ 64)),
     (0x08, match l with | some l => decide (p.cols ≤ l.w) | none => false),
     (0x09, zeroBytes raw 9 7),
     (0x10, p.img % 8 == 0 && hbm),
     (0x20, zeroBytes raw 0x20 32)]
  (checks.find? fun c => !c.2).map (·.1)

/-- The shares of R367, when the spare columns suffice. -/
def shares (w m : Nat) (c : List Nat) : Option (List Nat) :=
  let n := c.length
  if w < n * m then none
  else
    let spare := w - n * m
    let c := if c.foldl (· + ·) 0 = 0 then List.replicate n 1 else c
    let total := c.foldl (· + ·) 0
    let base := c.map fun x => spare * x / total
    let left := spare - base.foldl (· + ·) 0
    let rem := (c.map fun x => spare * x % total).zipIdx
    /- how many experts come before expert `i` when the larger remainder goes first, ties to the lower id -/
    let rank (r i : Nat) : Nat := (rem.filter fun q => decide (r < q.1) || (q.1 == r && decide (q.2 < i))).length
    some (base.zipIdx.map fun p => m + p.1 + b2n (decide (rank ((rem.getD p.2 (0, 0)).1) p.2 < left)))

/-- The expert of each column. -/
def columnsOf (first : Nat) (sh : List Nat) : List Nat := sh.zipIdx.flatMap fun p => List.replicate p.1 (first + p.2)

/-- An image by its PA, from the configuration cache where it is there (R295). -/
def State.cachedImage (s : State) (pa : Nat) : Option (List Byte) × State :=
  let (hd, s) := s.readHbm pa 64
  match hd with
  | none => (none, s)
  | some x =>
    match Tbl.get? s.pager.cache (imageKey x) with
    | some c => (some c.bytes, s)
    | none =>
      let n := imgLength x
      let (im, s) := if 64 ≤ n then s.readHbm pa n else (none, s)
      match im with
      | none => (none, s)
      | some l => (some l, s.modPager fun p => (p.keepImage l).getD p)

/-- The partial configurations of the experts whose columns change: expert, image, pages. None where one is bad (R367). -/
def State.partials (s : State) (p : LayerPlan) (l : Launch) (es : List Nat) : Option (List (Nat × List Plan)) × State :=
  match es with
  | [] => (some [], s)
  | e :: rest =>
    let (a, s) := s.readHbm (p.img + 8 * (e - p.first)) 8
    let (im, s) := match a with | some b => s.cachedImage (ofBytes b) | none => (none, s)
    match im with
    | none => (none, s)
    | some im =>
      if imgWidth im ≠ 1 ∨ imgHeight im ≠ l.h ∨ (imageFails im l.ctx (s.cdField l.asid 4 4)).isSome then (none, s)
      else
        let (x, s) := s.plansFrom (s.cdField l.asid 8 8) im (List.range (imgPages im))
        let (y, s) := s.partials p l rest
        match x, y with
        | some x, some y => (some ((e, x) :: y), s)
        | _, _ => (none, s)

/-- Give one site of a resident region another page; its counters stand. None where the site does not conform (R293). -/
def State.reload (s : State) (h : Nat) (l : Launch) (b : Nat × Nat × Nat) (n : Nat) (plan : Option Plan) : Option State :=
  let counts := (s.site n).counts
  let base := Tbl.getD (s.site n).port.cistBase (l.asid * 8 + l.ctx) 0
  let len := Tbl.getD (s.site n).port.cistLen (l.asid * 8 + l.ctx) 0
  let s := s.leaveSite l.ctx n
  let ok := match plan with
    | none => true
    | some p =>
      s.suits n l.ctx p && s.lacks n p.page l.twin.isSome == 0 && (decide (8 ≤ dieOf n) || s.powerShort (dieOf n) (pageDraw p.page.pcls) == 0)
  if ok then
    let levels := match plan with | some p => p.page.levels | none => []
    some ((s.loadSite h l b n plan base len levels).modSite n fun x => { x with counts := counts })
  else none

/-- The sites of a column, with the page that an expert's partial configuration has for each. -/
def Launch.columnSites (l : Launch) (b : Nat × Nat × Nat) (plans : List Plan) (x : Nat) : List (Nat × Option Plan) :=
  (List.range l.h).filterMap fun y => (l.siteIn b x y).map fun n => (n, plans.find? fun p => p.dy == y)

def State.reloadAll (s : State) (h : Nat) (l : Launch) (b : Nat × Nat × Nat) (ns : List (Nat × Option Plan)) : Option State :=
  match ns with
  | [] => some s
  | n :: r =>
    match s.reload h l b n.1 n.2 with
    | some s => s.reloadAll h l b r
    | none => none

/-- Does a context hold a frame or a tile at a site? -/
def State.holdsAny (s : State) (n c : Nat) : Bool :=
  ((s.site n).seq.frames.any fun f => f.2.owner == c) || ((s.site n).tile.tiles.any fun t => t.2.owner == c)

/-- `xver.resize` (R367). -/
def State.resize (s : State) (r : SysReq) : State :=
  let (x, s) := s.ownerRead r r.va.toNat 64
  match x with
  | .error f => s.xpFail r f.1 f.2
  | .ok raw =>
    let p := LayerPlan.of raw
    match p.bad raw s.xp (s.launch? p.handle) (s.isHbm p.img), s.launch? p.handle with
    | some off, _ => s.xpFail r 0x0708 off
    | none, none => s.xpFail r 0x0708 0
    | none, some l =>
      let c := (List.range p.n).map fun i => (Tbl.getD s.xp.counters (p.first + i) 0).toNat
      match shares p.cols p.min c with
      | none => s.xpFail r 0x070D 1
      | some sh =>
        if l.state ≠ .idle ∨ l.freeze.isSome then s.xpFail r 0x070D 2
        else
          let cols := columnsOf p.first sh
          let changed := (cols.zipIdx.filter fun q => l.cols[q.2]? != some q.1).map fun q => (q.2, q.1)
          let sites := l.copies.map fun b => (b, changed.flatMap fun q => (l.columnSites b [] q.1).map (·.1))
          if sites.any fun q => q.2.any fun n => s.holdsAny n l.ctx then s.xpFail r 0x070D 3
          else
            let (y, s) := s.partials p l (changed.map (·.2)).eraseDups
            match y with
            | none => s.xpFail r 0x0708 0x10
            | some parts =>
              let plansFor (e : Nat) : List Plan := match parts.find? (·.1 == e) with | some q => q.2 | none => []
              let loaded := l.copies.foldl
                (fun (a : Option State) b =>
                  a.bind fun s => s.reloadAll p.handle l b (changed.flatMap fun q => l.columnSites b (plansFor q.2) q.1))
                (some s)
              match loaded with
              | none => s.xpFail r 0x070D 4
              | some s =>
                let s := s.refreshBusy.wave l (s.heldSites p.handle l)
                let s := s.setLaunch p.handle { l with cols := cols ++ l.cols.drop cols.length }
                let (ok, s) := s.ownerWrite (s.reqAgent 5 r) r.who p.share (sh.map fun v => BitVec.ofNat 8 v)
                if ok then s.xpReply r (BitVec.ofNat 64 changed.length) else s.sysReply xpSite r 0 true

/-! ### Gradient merge (R368) -/

/-- A merge descriptor, as the collective descriptor whose results it shares (R341, R342), with its sources. -/
structure MergeDesc where
  dst : Nat
  aux : Nat
  count : Nat
  nsrc : Nat
  mode : Nat
  outef : Nat
  anchor : Int
  srcs : List Nat
  deriving DecidableEq, Repr

def MergeDesc.of (l : List Byte) : MergeDesc :=
  { dst := field l 0 8, aux := field l 8 8, count := field l 0x10 4, nsrc := field l 0x14 1, mode := field l 0x15 1, outef := field l 0x16 1,
    anchor := (BitVec.ofNat 16 (field l 0x18 2)).toInt, srcs := (List.range (Nat.min (field l 0x14 1) 8)).map fun k => field l (0x40 + 8 * k) 8 }

def MergeDesc.isFloat (d : MergeDesc) : Bool := d.mode % 2 == 1

def MergeDesc.bad (d : MergeDesc) (raw : List Byte) : Option Nat :=
  let rnd := d.mode / 4 % 8
  let checks : List (Nat × Bool) :=
    [(0x00, d.dst % 8 == 0),
     (0x08, d.aux % 8 == 0 && (d.isFloat || d.aux == 0)),
     (0x10, decide (1 ≤ d.count ∧ d.count ≤ 2 ^ 28)),
     (0x14, decide (1 ≤ d.nsrc ∧ d.nsrc ≤ 8)),
     (0x15, d.mode / 2 % 2 == 0 && decide (d.mode < 32) && rnd != 5 && rnd != 7),
     (0x16, isPlainFloat d.outef || (!d.isFloat && EF.ofCode d.outef == some .i64)),
     (0x17, zeroBytes raw 0x17 1),
     (0x1A, zeroBytes raw 0x1A 38)] ++
    (List.range 8).map fun k =>
      (0x40 + 8 * k, if k < d.nsrc then field raw (0x40 + 8 * k) 8 % 8 == 0 else zeroBytes raw (0x40 + 8 * k) 8)
  (checks.find? fun c => !c.2).map (·.1)

/-- The collective descriptor whose results these are. -/
def MergeDesc.coll (d : MergeDesc) : CollDesc :=
  { src := 0, sscl := 0, dst := d.dst, marks := 0, aux := d.aux, count := d.count, inef := if d.isFloat then EF.code .f32 else EF.code .i64,
    flags := 0, outef := d.outef, mode := if d.isFloat then 1 else 2, rnd := d.mode / 4 % 8, top := 0,
    anchor := d.anchor, root := 0 }

/-- Read every source: its codes with their damage; a damaged read is reported. -/
def State.mergeSources (s : State) (r : SysReq) (x : List Xlat) (w count : Nat) (srcs : List Nat) : List (List (Nat × Bool)) × State :=
  match srcs with
  | [] => ([], s)
  | a :: rest =>
    let (l, bad, s) := s.readPlane 5 r x a w 0 count
    let s := match bad with | some va => s.logFault r.who 0x070C va | none => s
    let (m, s) := s.mergeSources r x w count rest
    (l :: m, s)

/-- Translate several ranges of the owner's map. -/
def State.ownerMaps (s : State) (l : List (Bool × Nat × Nat)) : Except Nat (List Xlat) × State :=
  match l with
  | [] => (.ok [], s)
  | q :: rest =>
    let (x, s) := s.ownerMap q.1 q.2.1 q.2.2
    match x with
    | .error a => (.error a, s)
    | .ok x =>
      let (y, s) := s.ownerMaps rest
      match y with
      | .error a => (.error a, s)
      | .ok y => (.ok (x ++ y), s)

/-- The merged elements: result, flags, poison; and in float mode the exponent of each block, with its poison (R341, R342). A damaged
source feeds every element of its block there, through the exponent (R368). -/
def mergeResults (d : CollDesc) (vals : List (List (Nat × Bool))) : List (Nat × Exc × Bool) × List (CollVal × Bool) :=
  let k := Combine.of d 0 false
  if d.mode = 1 then
    let block (b : Nat) : List (Nat × Bool) := vals.flatMap fun l => (l.drop (24 * b)).take 24
    let exps := (List.range (ceilDiv d.count 24)).map fun b =>
      (blockExp ((block b).map fun p => codeVal .f32 p.1), (block b).any (·.2))
    let exp (i : Nat) : Option Int := match exps[i / 24]? with | some v => if v.1.nan then none else some v.1.s | none => none
    let hurt (i : Nat) : Bool := match exps[i / 24]? with | some v => v.2 | none => false
    let parts := vals.map fun l => l.zipIdx.map fun p => toFixed (codeVal .f32 p.1.1) (exp p.2) p.1.2
    let sum := match parts with | [] => [] | a :: r => r.foldl (joinLists k) a
    (sum.zipIdx.map fun p => let q := collResult d 0 (exp p.2) p.1; (q.1, q.2, p.1.psn || hurt p.2), exps)
  else
    let parts := vals.map fun l => l.map fun p => rawVal p.1 p.2
    let sum := match parts with | [] => [] | a :: r => r.foldl (joinLists k) a
    (sum.map fun v => let q := collResult d 0 none v; (q.1, q.2, v.psn), [])

/-- Write the block exponents of a merge; a line that a damaged source feeds is poisoned (R341, R368). -/
def State.mergeAux (s : State) (r : SysReq) (x : List Xlat) (va : Nat) (exps : List (CollVal × Bool)) : State :=
  let l := exps.flatMap fun v => toBytes (if v.1.nan then 0x8000 else (v.1.s % 2048).toNat) 2
  (cut 64 va l.length).foldl
    (fun s p =>
      let off := p.1 - va
      let pieces := xlatPieces x p.1 p.2
      let s := s.writePieces (s.reqAgent 5 r) pieces (slice l off p.2)
      if ((exps.drop (off / 2)).take (ceilDiv (off + p.2) 2 - off / 2)).any (·.2) then s.poisonLines pieces else s)
    s

/-- Write the merged lines under the %exc policy (R368): the state, and whether INV, OVF and poison arose. -/
def State.mergeWrite (s : State) (r : SysReq) (x : List Xlat) (d : CollDesc) (res : List (Nat × Exc × Bool)) : State × Bool × Bool × Bool :=
  let w := d.wo / 8
  let bytes := res.flatMap fun q => toBytes q.1 w
  let c := r.who.ctx
  (cut 64 d.dst bytes.length).foldl
    (fun (a : State × Bool × Bool × Bool) p =>
      let (s, i, o, z) := a
      let off := p.1 - d.dst
      let els := (res.drop (off / w)).take (ceilDiv (off + p.2) w - off / w)
      let inv := els.any (·.2.1.inv)
      let ovf := els.any (·.2.1.ovf)
      let bad := els.any (·.2.2) || (inv && policy r.exc 0 == 2) || (ovf && policy r.exc 1 == 2)
      let raise (on : Bool) (k : Nat) : BitVec 32 := if on && policy r.exc k == 1 then BitVec.ofNat 32 (2 ^ (4 * c + k)) else 0
      let s := s.modXp fun q => { q with sticky := q.sticky ||| raise inv 0 ||| raise ovf 1 }
      let pieces := xlatPieces x p.1 p.2
      let s := s.writePieces (s.reqAgent 5 r) pieces (slice bytes off p.2)
      (if bad then s.poisonLines pieces else s, i || inv, o || ovf, z || bad))
    (s, false, false, false)

/-- `xmrg` (R368, R379). -/
def State.merge (s : State) (r : SysReq) : State :=
  let (x, s) := s.ownerRead r r.va.toNat 128
  match x with
  | .error f => s.xpFail r f.1 f.2
  | .ok raw =>
    let m := MergeDesc.of raw
    match m.bad raw with
    | some off => s.xpFail r 0x0708 off
    | none =>
      let d := m.coll
      let ranges := (m.srcs.map fun a => (false, a, m.count * d.w / 8)) ++ [(true, m.dst, m.count * d.wo / 8)] ++
        (if m.isFloat then [(true, m.aux, ceilDiv m.count 24 * 2)] else [])
      let (y, s) := s.ownerMaps ranges
      match y with
      | .error a => s.xpFail r 0x0707 a
      | .ok y =>
        let (vals, s) := s.mergeSources r y d.w m.count m.srcs
        let (res, exps) := mergeResults d vals
        let s := if m.isFloat then s.mergeAux r y m.aux exps else s
        let (s, i, o, z) := s.mergeWrite r y d res
        s.xpReply r (fieldsWord [(0, b2n i), (1, b2n o), (2, b2n z)])

/-! ### Taking requests (R356, R359, R375) -/

/-- Serve a request other than `xdsp`. -/
def State.serveExpert (s : State) (r : SysReq) : State :=
  match r.ins with
  | .xcntAdd _ =>
    let e := r.vd.toNat
    if s.xp.nexp ≤ e then s.xpFail r 0x0704 e
    else
      let s := s.countEntry e r.va.toNat
      s.xpReply r ((Tbl.getD s.xp.counters e 0).setWidth 64)
  | .xcntArr _ =>
    let n := r.vb.toNat
    let (x, s) := s.ownerRead r r.va.toNat (4 * n)
    match x with
    | .error f => s.xpFail r f.1 f.2
    | .ok l => let (k, s) := s.countIds r l n; s.xpReply r (BitVec.ofNat 64 k)
  | .xcntHist _ => s.histogram r false
  | .xcntTake _ => s.histogram r true
  | .xverGet _ => s.xpReply r (fieldsWord [(0, s.xp.ver.toNat), (16, s.xp.live)])
  | .xverWait _ =>
    if verReached s.xp.ver (BitVec.ofNat 16 r.va.toNat) then s.xpReply r (s.xp.ver.setWidth 64)
    else s.modXp fun x => { x with verWait := x.verWait ++ [r] }
  | .xverResize _ => s.resize r
  | .xmrg _ => s.merge r
  | .xrep _ => s.modXp fun x => { x with grafts := x.grafts ++ [r] }
  | .xretDrain _ => s.drain_ r (r.vd.toNat % 1024)
  | .xretFree _ => s.freeRep r (r.vd.toNat % 1024)
  | _ => s

/-- A request that the engine does not carry out (R356, R375): code and DETAIL. -/
def State.xpRefuses (s : State) (r : SysReq) : Option (Nat × Nat) :=
  if !s.xp.en || (r.who.ctx != 7 && r.who.asid != s.xp.asid) then some (0x0701, r.who.asid)
  else if r.psn then some (0x070B, r.word.toNat)
  else none

/-- An `xcnt` waits for the `xdsp` requests that its context committed earlier at its site (R359). -/
def State.xcntWaits (s : State) (r : SysReq) : Bool :=
  let before (q : SysReq) : Bool := q.who.site == r.who.site && q.who.ctx == r.who.ctx && decide (q.seq < r.seq)
  match r.ins with
  | .xcntAdd _ | .xcntArr _ | .xcntHist _ | .xcntTake _ =>
    s.xp.disp.any before || (match s.xp.cur with | some d => before d.req | none => false)
  | _ => false

/-- What the engine can take up: the next `xdsp`, the next other request, the next graft. -/
inductive XpAct where
  | dispatch | other | graft
  deriving DecidableEq, Repr

def State.xpActs (s : State) : List XpAct :=
  (match s.xp.disp, s.xp.cur with | r :: _, none => if s.engineReady 5 r then [.dispatch] else [] | _, _ => []) ++
  (match s.xp.other with | r :: _ => if s.engineReady 5 r && !s.xcntWaits r then [.other] else [] | [] => []) ++
  (match s.xp.grafts, s.xp.graft with | _ :: _, none => [.graft] | _, _ => [])

/-- The engine takes up one request, by a free choice among those it can (log entry 2). -/
def State.xpServe (s : State) : State :=
  let acts := s.xpActs
  match acts[Config.pick s.free % acts.length]? with
  | none => s
  | some .dispatch =>
    match s.xp.disp with
    | [] => s
    | r :: rest =>
      let s := s.bumpFree.modXp fun x => { x with disp := rest }
      match s.xpRefuses r with
      | some f => s.xpFail r f.1 f.2
      | none => s.beginDispatch r
  | some .other =>
    match s.xp.other with
    | [] => s
    | r :: rest =>
      let s := s.bumpFree.modXp fun x => { x with other := rest }
      match s.xpRefuses r with
      | some f => s.xpFail r f.1 f.2
      | none => s.serveExpert r
  | some .graft =>
    match s.xp.grafts with
    | [] => s
    | r :: rest =>
      s.bumpFree.modXp fun x => { x with grafts := rest, graft := some { req := r, stage := 1, desc := [], placing := false } }

end Sys2Proof.Machine
end

