-- ==== Sys2Proof/Machine/Recovery.lean ====
section
/-! DEFINITION. The recovery engine: point slots and the undo log (R385 to R388), sealing (R389, R390), rollback (R391), resilvering (R384)
and the scan (R394). -/
namespace Sys2Proof.Machine

def State.modRcv (s : State) (f : RecState → RecState) : State := { s with rcv := f s.rcv }

/-! ### Replies and faults (R397, R398) -/

def State.recReply (s : State) (r : SysReq) (v : Word) : State := s.sysReply coordSite r v false

def State.recFail (s : State) (r : SysReq) (code detail : Nat) : State := (s.reqFault r code detail).sysReply coordSite r 0 true

/-- A fault that goes to context 7 and notifies. -/
def State.recFault (s : State) (code detail : Nat) : State := (s.sysFault coordSite code detail).notify code coordSite 0

/-- Why every request of the engine may be refused: code and DETAIL (R398). -/
def State.recRefuses (s : State) (r : SysReq) : Option (Nat × Nat) :=
  if !s.rcv.en || (r.who.ctx != 7 && r.who.asid != s.rcv.asid) then some (0x0801, r.who.asid)
  else if r.psn then some (0x0809, r.word.toNat)
  else none

/-- The engine's accesses for a request count as committed by the issuing context (R393). -/
def State.recAgentOf (s : State) (r : SysReq) : Agent :=
  s.sysReqAgent r 6 9

/-! ### Point slots (R386) -/

/-- What a seal restarts from: handle, entry, iteration, payload. -/
structure Restart where
  handle : Nat
  entry : Nat
  itn : Nat
  payload : Nat
  deriving DecidableEq, Repr

def Restart.none : Restart := { handle := 0, entry := 0, itn := 0, payload := 0 }

/-- The 64 B of a point slot. -/
def slotBytes (state n nent digest : Nat) (x : Restart) : List Byte :=
  let b := toBytes 0x50524358 4 ++ toBytes state 1 ++ toBytes 0 3 ++ toBytes n 4 ++ toBytes nent 4 ++ toBytes digest 8 ++
           toBytes x.handle 4 ++ toBytes x.entry 2 ++ toBytes x.itn 2 ++ toBytes x.payload 8 ++ List.replicate 16 0
  b ++ toBytes (if state = 3 then crc64 b else 0) 8

/-- A slot as read: PS_MAGIC is right, PS_STATE, PS_SEQ, PS_RCRC matches, and the restart fields. -/
structure SlotView where
  magic : Bool
  state : Nat
  n : Nat
  crcOk : Bool
  restart : Restart
  deriving DecidableEq, Repr

def slotView (l : List Byte) : SlotView :=
  { magic := field l 0 4 == 0x50524358, state := field l 4 1, n := field l 8 4, crcOk := field l 0x38 8 == crc64 (l.take 0x38),
    restart := { handle := field l 0x18 4, entry := field l 0x1C 2, itn := field l 0x1E 2, payload := field l 0x20 8 } }

def SlotView.valid (v : SlotView) : Bool := v.magic && v.state == 3 && v.crcOk

/-- Read a point slot; one that cannot be read is like an empty one. -/
def State.readSlot (s : State) (j : Nat) : SlotView × State :=
  let (x, s) := s.recGet (logPa s.rcv (64 * j)) 64
  (slotView (x.getD (List.replicate 64 0)), s)

def State.writeSlot (s : State) (g : Agent) (n : Nat) (l : List Byte) : State := s.recWrite g (logPa s.rcv (64 * (n % 2))) l

/-- The highest valid point of two slots (R391 step 3, R394). -/
def highestValid (a b : SlotView) : Nat := Nat.max (if a.valid then a.n else 0) (if b.valid then b.n else 0)

/-! ### Undo entries (R387) -/

structure Entry128 where
  pa : Nat
  point : Nat
  index : Nat
  data : List Byte
  bytes : List Byte
  deriving DecidableEq, Repr

/-- Undo entry `i`, when its ECRC holds. -/
def State.logEntry (s : State) (i : Nat) : Option Entry128 × State :=
  let (x, s) := s.recGet (logPa s.rcv (0x1000 + 128 * i)) 128
  match x with
  | none => (none, s)
  | some l =>
    if field l 0x10 8 = crc64 (l.take 16 ++ l.drop 64) then
      (some { pa := field l 0 8, point := field l 8 4, index := field l 12 4, data := l.drop 64, bytes := l }, s)
    else (none, s)

/-- The entries `i`, `i + 1`, ... up to `n` of them in index order: all their bytes, or none if an ECRC fails (R389 step 3). -/
def State.logBytes (s : State) (i n : Nat) : Option (List Byte) × State :=
  match n with
  | 0 => (some [], s)
  | n + 1 =>
    let (e, s) := s.logEntry i
    match e with
    | none => (none, s)
    | some e =>
      let (r, s) := s.logBytes (i + 1) n
      (r.map (e.bytes ++ ·), s)

/-- How many entries of point `p` stand in the log from index `i`: up to the first that fails its ECRC, or that is an entry of another point
or index (R394, log entry 120). -/
def State.countEntries (s : State) (p i fuel : Nat) : Nat × State :=
  match fuel with
  | 0 => (i, s)
  | fuel + 1 =>
    let (e, s) := s.logEntry i
    match e with
    | none => (i, s)
    | some e => if e.point = p ∧ e.index = i then s.countEntries p (i + 1) fuel else (i, s)

/-! ### Opening a point (R393, R399) -/

/-- The log regions that hold the slots and the first `n` entries. -/
def logRegions (r : RecState) (n : Nat) : List Nat :=
  (List.range (ceilDiv (0x1000 + 128 * n) (2 ^ 21))).map (r.logFirst + ·)

/-- The request as a release of its context at scope 9 (R393). -/
def State.recRelease (s : State) (r : SysReq) : Agent := s.sysReqAgent r 3 9

/-- The release set of a request. -/
def State.recSet (s : State) (r : SysReq) : List Nat := s.releaseSet (s.recRelease r)

/-- The release set of a request has performed at both mirrors, and at the log (R80, R384). -/
def State.recWhole (s : State) (r : SysReq) : Bool :=
  s.setPerformed (s.recRelease r) && s.durable fun q => (s.recSet r).contains q

/-- The PCIe read that the release set's writes to host memory wait for, where it has such writes (R75). -/
def State.recFlush (s : State) (r : SysReq) : Option State := s.flushGate r.seq ((s.recRelease r).postedBefore (s.recSet r))

/-- That read has still to be issued. -/
def State.mustFlush (s : State) (r : SysReq) : Bool :=
  s.recWhole r && (s.recFlush r).isSome && !(s.mem.flushes.any fun x => x.1 == r.seq)

/-- The release set of a request has performed at scope 9 (R75, R80, R393). -/
def State.recReleased (s : State) (r : SysReq) : Bool := s.recWhole r && (s.recFlush r).isNone

/-- A release at scope 9 performs: its set is carried to every observer (R77, R393). -/
def State.recCarry (s : State) (r : SysReq) : State := s.carry (s.recSet r) (s.recAgentOf r).obs

def pointDetail (r : RecState) (n : Nat) : Nat := r.openState * 2 ^ 32 + n

/-- May point `n` be opened (R399)? -/
def RecState.mayOpen (r : RecState) (n : Nat) : Bool := r.openState == 0 && n == r.sealedSeq + 1

def State.openPoint (s : State) (r : SysReq) : State :=
  let n := r.va.toNat
  if !s.rcv.mayOpen n then s.recFail r 0x0803 (pointDetail s.rcv n)
  else
    let s := (s.recCarry r).writeSlot (s.recAgentOf r) n (slotBytes 1 n 0 0 Restart.none)
    (s.modRcv fun x => { x with openState := 1, nent := 0, openSeq := n }).recReply r (BitVec.ofNat 64 n)

/-! ### Sealing (R389, R390, R400) -/

/-- The restart fields of an `rseal`. -/
def SysReq.restart (r : SysReq) : Restart :=
  let entry : Nat := match r.ins with | .rseal x => x.hi.toNat % 2 ^ 16 | _ => 0
  { handle := r.vd.toNat % 2 ^ 32, entry := entry, itn := r.vb.toNat % 2 ^ 16, payload := r.va.toNat }

/-- May the open point be sealed with these restart fields (R400)? -/
def State.maySeal (s : State) (x : Restart) : Bool :=
  s.rcv.openState == 1 &&
  (x.handle == 0 ||
   match s.launch? x.handle with
   | some l => l.asid == s.rcv.asid && decide (x.entry < imgEntries (s.image l))
   | none => false)

/-- Step 1 of a seal. -/
def State.beginSeal (s : State) (r : SysReq) : State :=
  let n := s.rcv.openSeq
  if !s.maySeal r.restart then s.recFail r 0x0803 (pointDetail s.rcv n)
  else
    let s := s.writeSlot (s.recAgentOf r) n (slotBytes 2 n 0 0 r.restart)
    s.modRcv fun x => { x with openState := 2, sealing := some { req := r, point := n, lost := false } }

/-- The drain of a seal is done: its release set and every entry have performed at scope 9 (R389 step 2, R384). -/
def State.drained (s : State) (x : Seal) : Bool :=
  s.recReleased x.req && (logRegions s.rcv s.rcv.nent).all (regionWhole s.rcv)

/-- The seal is abandoned: the point is torn (R390). -/
def State.abandonSeal (s : State) (x : Seal) (cause : Nat) : State :=
  let s := s.modRcv fun r => { r with openState := 3, sealing := none }
  (s.recFault 0x0804 (x.point + cause * 2 ^ 32)).recReply x.req (BitVec.ofNat 64 (x.point + 2 ^ 32))

/-- Steps 3 to 5 of a seal whose entries are whole. -/
def State.finishSeal (s : State) (x : Seal) (digest : Nat) : State :=
  let s := (s.writeSlot (s.recAgentOf x.req) x.point (slotBytes 3 x.point s.rcv.nent digest x.req.restart)).recCarry x.req
  let s := s.modRcv fun r => { r with openState := 0, nent := 0, openSeq := 0, sealedSeq := x.point, sealing := none }
  s.recReply x.req (BitVec.ofNat 64 x.point)

/-- SEAL_ABANDONED: a die reset has discarded a write of the seal's release set (cause 2), or an entry fails its ECRC once the drain is
done (cause 3) (R390). -/
def execSealAbandoned (cause : Nat) (s : State) : Out :=
  match s.rcv.sealing with
  | none => .next s
  | some x =>
    if cause = 2 ∧ x.lost then .next (s.abandonSeal x 2)
    else if cause = 3 ∧ !x.lost ∧ s.drained x then
      let (e, t) := s.logBytes 0 s.rcv.nent
      .next (match e with | none => t.abandonSeal x 3 | some _ => s)
    else .next s

/-! ### Rollback (R391) -/

/-- Step 1 for one launch: it stops where it stands, and its sites are discarded; what is placed already keeps its sites. -/
def State.rollContain (s : State) (h : Nat) (l : Launch) : State :=
  let stop : State :=
    let owed := l.owed
    let s := (s.setLaunch h { l with state := .containing, freeze := none, behind := [], quiet := none, inRun := false }).dropRounds h
    let s := owed.foldl (fun s r => s.refuse r 0x0505 (6 * 2 ^ 8 + opcOf r.ins)) s
    let s := l.allSites.foldl (fun s n => (s.discardAt n l.ctx).dropWalks n l.ctx) s
    let s := (s.collCancel h).reloadConfig h l
    l.allSites.foldl (fun s n => s.modCtx n l.ctx fun k => { k with held := false }) s
  match l.state with
  | .placing | .failed => s
  | .evicted => s.setLaunch h { l with saved := false, snap := [] }
  | .resuming =>
    if s.resident h l then stop
    else
      (s.setLaunch h { l with state := .placing, saved := false, snap := [] }).modPager fun p =>
        { p with waiting := p.waiting.map fun w => if w.handle = h then { w with what := .place, denied := false } else w }
  | _ => stop

/-- The owner's launches. -/
def State.owned (s : State) : List (Nat × Launch) := s.pager.launches.filter fun p => p.2.asid == s.rcv.asid

def State.rollStop (s : State) : State :=
  s.owned.foldl (fun s p => match s.launch? p.1 with | some l => s.rollContain p.1 l | none => s) s

/-- A rollback begins, or a request joins the one in progress. -/
def State.beginRoll (s : State) (r : Option SysReq) : State :=
  match s.rcv.roll with
  | some l => s.modRcv fun x => { x with roll := some (l ++ r.toList) }
  | none => (s.modRcv fun x => { x with roll := some r.toList, rollFrom := s.seq }).rollStop

def isDst (i : Instr) : Bool := match i with | .dst _ => true | _ => false

/-- A `dst` that an activation has committed, among the effects still to be carried out. -/
def Activation.owesDst (a : Activation) (before : Nat) : Bool :=
  match a.committing with
  | none => false
  | some (base, next) =>
    (a.effects.zipIdx base).any fun p =>
      decide (next ≤ p.2 ∧ p.2 < before) && (match p.1 with | .mem i .. => isDst i | _ => false)

/-- Step 2: no cellar write committed before step 1 is unperformed at either mirror, a peer's that has arrived included, and every launch
of the owner that holds sites has stopped. -/
def State.rollReady (s : State) : Bool :=
  !(s.reqs.any fun r =>
    isDst r.ins && decide (r.id < s.rcv.rollFrom) && (match r.phase with | .remote _ => false | _ => true)) &&
  !(s.sites.any fun (x : Nat × Site) => x.2.seq.acts.any fun a => a.2.owesDst s.rcv.rollFrom) &&
  !(s.link.inbound.any fun r => match r.kind with | .write .dst _ => true | _ => false) &&
  !(s.rcv.mirrors.any fun m => decide (m.seq < s.rcv.rollFrom)) && decide ((s.link.inq.getD 0 []).length < 256) &&
  !(s.owned.any fun p => (p.2.state == .placing && s.resident p.1 p.2) || (p.2.state == .containing && !s.reloadable p.2))

/-- Step 4: the entries below `i` undone in descending order: how many, and the state. -/
def State.undo (s : State) (g : Agent) (target i : Nat) : Nat × State :=
  match i with
  | 0 => (0, s)
  | i + 1 =>
    let (e, s) := s.logEntry i
    match e with
    | none => s.undo g target i
    | some e =>
      if e.pa < 0x20000000000 ∨ s.rcv.nreg ≤ cellarRegion e.pa then s.undo g target i
      else
        let s := (s.recWrite g e.pa e.data).modRcv fun x =>
          { x with tags := Tbl.set x.tags ((e.pa - 0x20000000000) / 64) (BitVec.ofNat 32 target) }
        let (n, s) := s.undo g target i
        (n + 1, s)

/-- Step 6 for one launch: it stays IDLE, as it was placed; with no target it fails. -/
def State.rollRelease (s : State) (failed : Bool) (h : Nat) : State :=
  match s.launch? h with
  | none => s
  | some l =>
    if l.state != .containing then s
    else if failed then s.failLaunch h { l with escalated := false }
    else
      let s := l.allSites.foldl (fun (s : State) n => s.newReplayPoint l.ctx n) s
      let l := { l with state := .idle, base := .empty, log := [], logOver := false, windowOver := false, credSince := false,
                        escalated := false, snap := s.snapAll l.ctx l.sites, eosBase := 0, eosAtBase := 0 }
      (s.setLaunch h l).answerAll h

/-- The seal that a rollback interrupts replies that it is abandoned (R390). -/
def State.dropSeal (s : State) : State :=
  match s.rcv.sealing with
  | none => s
  | some x => (s.modRcv fun r => { r with sealing := none }).recReply x.req (BitVec.ofNat 64 (x.point + 2 ^ 32))

/-- The agent of a rollback's writes: those of the `rbak` that began it (R393), or the engine's own. -/
def State.rollAgent (s : State) : Agent :=
  match s.rcv.roll with
  | some (r :: _) => s.recAgentOf r
  | _ => recAgent s.seq

/-- Steps 3 to 7. -/
def State.finishRoll (s : State) : State :=
  let g := s.rollAgent
  let s := s.takeSeq.2.rollStop
  let (a, s) := s.readSlot 0
  let (b, s) := s.readSlot 1
  let target := highestValid a b
  let r := s.rcv
  let v := if r.openSeq % 2 = 0 then a else b
  let s :=
    if r.openState ≠ 0 ∧ r.openState ≠ 3 ∧ !(v.valid && v.n == r.openSeq) then
      s.recFault 0x0804 (r.openSeq + (if v.state = 3 then 2 ^ 32 else 0))
    else s
  let (undone, s) := if r.openState = 0 then (0, s) else s.undo g target r.nent
  let s := if r.openState = 0 then s else s.recWrite g (logPa r (64 * (r.openSeq % 2))) (List.replicate 64 0)
  let s := s.dropSeal
  let waiting := (s.rcv.roll.getD []).map fun q => (q, target)
  let s := s.modRcv fun x =>
    { x with openState := 0, nent := 0, openSeq := 0, sealedSeq := target, roll := none, owed := x.owed ++ waiting }
  let s := s.owned.foldl (fun (s : State) p => s.rollRelease (target = 0) p.1) s
  if target = 0 then s.recFault 0x080B 0
  else
    let (q, s) := s.engineFence (pathBit 6) (deviceWide coordSite)
    let x := (if target % 2 = 0 then a else b).restart
    let seed : Seed :=
      { entry := x.entry, ctl := false, psn := false, itn := BitVec.ofNat 16 x.itn, payload := BitVec.ofNat 64 x.payload, tag := none,
        deps := [] }
    let rec_ : HeadRec := { src := none, off := 0, data := seed.record x.handle, need := 0, req := none, tag := 0, deps := [q] }
    let s := if x.handle = 0 then s else { s with link := { s.link with inq := listUpd s.link.inq 0 fun q => q ++ [rec_] } }
    let ctx : Nat := match s.launch? x.handle, s.owned with | some l, _ => l.ctx | none, p :: _ => p.2.ctx | none, [] => 0
    let who : Who := { Who.zero with site := coordSite, ctx := ctx, asid := s.rcv.asid }
    (s.logFault who 0x0807 (target + undone * 2 ^ 32)).notify 0x0807 coordSite x.handle

/-- ESCALATED_ROLLBACK: the pager's escalation of a launch of the owner starts a rollback (R313, R391). -/
def execEscalatedRollback (h : Nat) (s : State) : Out :=
  match s.launch? h with
  | none => .next s
  | some l =>
    if l.escalated && l.state == .containing && l.asid == s.rcv.asid && s.rcv.roll.isNone && !s.rcv.scan then .next (s.beginRoll none)
    else .next s

/-! ### Resilvering (R384) -/

/-- Replace `n` bytes of storage at `dst` by those at `src`, with their marks. -/
def MemState.moveCopy (m : MemState) (src dst n : Nat) : MemState :=
  let inR (a x : Nat) : Bool := decide (a ≤ x ∧ x < a + n)
  let cells := (m.cells.filter fun c => inR src c.1).foldl (fun t c => Tbl.set t (c.1 - src + dst) c.2)
    (m.cells.filter fun c => !inR dst c.1)
  let lines := (m.lines.filter fun c => inR src (c.1 * 64)).foldl (fun t c => Tbl.set t (c.1 - src / 64 + dst / 64) c.2)
    (m.lines.filter fun c => !inR dst (c.1 * 64))
  { m with cells := cells, lines := lines }

/-- Every write of a region reaches the other mirror. -/
def State.settleRegion (s : State) (k : Nat) : State :=
  let here (m : MirrorWrite) : Bool := cellarRegion m.pa == k
  let s := (s.rcv.mirrors.filter here).foldl (fun s m => s.applyMirror m) s
  s.modRcv fun r => { r with mirrors := r.mirrors.filter fun m => !here m }

/-- A dirty region with one stale copy, whose two stacks are both there. -/
def mendable (r : RecState) (k : Nat) : Bool :=
  (staleOf r k == 1 || staleOf r k == 2) && !r.held.getLsbD (k % 8) && !r.held.getLsbD ((k + 4) % 8)

/-- RESIL: the returned stacks with a stale copy of a dirty region (R396). -/
def RecState.resilver (r : RecState) : RecState :=
  let stale (x : Nat) : Bool := r.dirty.any fun p =>
    (p.2.getLsbD 0 && p.1 % 8 == x) || (p.2.getLsbD 1 && (p.1 + 4) % 8 == x)
  { r with resil := BitVec.ofNat 8 ((List.range 8).foldl (fun a x => a + (if stale x && !r.held.getLsbD x then 2 ^ x else 0)) 0) }

/-- RESILVER_REGION: the lowest dirty region that can be mended is copied from its live copy; it is clean then. -/
def execResilverRegion (k : Nat) (s : State) : Out :=
  if (s.rcv.dirty.find? fun p => mendable s.rcv p.1).map (·.1) ≠ some k then .next s
  else
    let base := 0x20000000000 + k * 2 ^ 21
    let s := s.settleRegion k
    let a := cellarPrimary s.rcv base
    let b := cellarSecondary s.rcv base
    let mem := if staleOf s.rcv k = 1 then s.mem.moveCopy b a (2 ^ 21) else s.mem.moveCopy a b (2 ^ 21)
    .next (({ s with mem := mem }).modRcv fun r => ({ r with dirty := Tbl.erase r.dirty k }).resilver)

/-! ### The scan (R394) -/

/-- SLOT_SCAN: the engine sets its registers from the slots and the log. -/
def execSlotScan (s : State) : Out :=
  if !s.rcv.scan || s.pkg.wiping.contains 8 then .next s
  else
    let (a, s) := s.readSlot 0
    let (b, s) := s.readSlot 1
    let top := highestValid a b
    let above (v : SlotView) : Bool := v.magic && decide (top < v.n) && (v.state == 1 || v.state == 2 || v.state == 3)
    let v? := if above a && (!above b || decide (b.n ≤ a.n)) then some a else if above b then some b else none
    let s := s.modRcv fun r => { r with scan := false, sealedSeq := top, openState := 0, nent := 0, openSeq := 0 }
    let s := match v? with
      | none => s
      | some v =>
        let (n, s) := s.countEntries v.n 0 (logCap s.rcv)
        let s := s.modRcv fun r => { r with openState := if v.state = 1 then 1 else 3, nent := n, openSeq := v.n }
        if v.state = 1 then s else s.recFault 0x0804 (v.n + (if v.state = 3 then 2 ^ 32 else 0))
    match s.rcv.roll with
    | none => .next s
    | some l => .next ((s.modRcv fun r => { r with roll := some l, rollFrom := s.seq }).rollStop)

/-! ### `rrdp` (R401) -/

def State.readPoint (s : State) (r : SysReq) : State :=
  match r.ins with
  | .rrdpStat _ =>
    s.recReply r (fieldsWord [(0, s.rcv.sealedSeq), (32, s.rcv.openState), (40, s.rcv.nent % 2 ^ 24)])
  | _ =>
    let n := r.va.toNat
    let (v, s) := s.readSlot (n % 2)
    let code : Nat :=
      if !v.magic || v.n != n then 0
      else if v.state = 3 then (if v.crcOk then 1 else 4)
      else if s.rcv.openState = 3 ∧ s.rcv.openSeq = n then 4
      else if v.state = 1 then 2
      else if v.state = 2 then 3
      else 0
    s.recReply r (BitVec.ofNat 64 code)

/-! ### Service -/

/-- What the engine may do next: take request `i`, issue the PCIe read that a request waits for, finish the seal, finish the rollback, or
answer a finished one. -/
inductive RecAct where
  | take (i : Nat) | flush (r : SysReq) | close | roll | answer
  deriving DecidableEq, Repr

def isPointOp (i : Instr) : Bool := match i with | .rpnt _ | .rseal _ => true | _ => false

/-- May the engine take this request? `rpnt` and `rseal` keep their order, and wait for a rollback (R391). -/
def State.recTakes (s : State) (before : List SysReq) (r : SysReq) : Bool :=
  s.engineReady 6 r &&
  ((s.recRefuses r).isSome ||
   (!isPointOp r.ins ||
    (s.rcv.roll.isNone && !(before.any fun q => isPointOp q.ins) &&
     (match r.ins with
      | .rpnt _ => !s.rcv.mayOpen r.va.toNat || (s.recReleased r && regionWhole s.rcv s.rcv.logFirst)
      | _ => true))))

def State.sealGood (s : State) (x : Seal) : Bool :=
  !x.lost && s.drained x && s.rcv.roll.isNone && (s.logBytes 0 s.rcv.nent).1.isSome

def State.recActs (s : State) : List RecAct :=
  if s.rcv.scan || s.pkg.wiping.contains 8 then []
  else
    ((((s.rcv.queue.filter fun r => match r.ins with | .rpnt _ => true | _ => false) ++ s.rcv.sealing.toList.map (·.req)).filter
      s.mustFlush).map .flush) ++
    ((s.rcv.queue.zipIdx.filter fun p => s.recTakes (s.rcv.queue.take p.2) p.1).map fun p => .take p.2) ++
    (match s.rcv.sealing with | some x => if s.sealGood x then [.close] else [] | none => []) ++
    (if s.rcv.roll.isSome && s.rollReady then [.roll] else []) ++
    (if !s.rcv.owed.isEmpty && regionWhole s.rcv s.rcv.logFirst then [.answer] else [])

def State.serveRecovery (s : State) (r : SysReq) : State :=
  match s.recRefuses r with
  | some f => s.recFail r f.1 f.2
  | none =>
    match r.ins with
    | .rpnt _ => s.openPoint r
    | .rseal _ => s.beginSeal r
    | .rbak _ => s.beginRoll (some r)
    | _ => s.readPoint r

/-- The recovery engine moves. -/
def State.recServe (s : State) : State :=
  let acts := s.recActs
  match acts[Config.pick s.free % acts.length]? with
  | none => s
  | some (.take i) =>
    match s.rcv.queue[i]? with
    | none => s
    | some r => (s.bumpFree.modRcv fun x => { x with queue := listDrop1 x.queue i }).serveRecovery r
  | some (.flush r) => s.bumpFree.recFlush r |>.getD s
  | some .close =>
    match s.rcv.sealing with
    | none => s
    | some x =>
      let (e, s) := s.bumpFree.logBytes 0 s.rcv.nent
      match e with
      | some l => s.finishSeal x (crc64 l)
      | none => s
  | some .roll => s.bumpFree.finishRoll
  | some .answer =>
    let owed := s.rcv.owed
    let s := s.bumpFree.modRcv fun x => { x with owed := [] }
    owed.foldl (fun s p => s.recReply p.1 (BitVec.ofNat 64 p.2)) s

end Sys2Proof.Machine
end

