-- ==== Sys2Proof/Machine/Links.lean ====
section
/-! DEFINITION. Ports (R403, R404), the headgate (R410, R411, R88), interrupts to the host (R413) and time transport (R414). -/
namespace Sys2Proof.Machine

def State.modLink (s : State) (f : LinkState → LinkState) : State := { s with link := f s.link }

/-- The register block of an I/O die (R415). -/
def linkSite (die : Nat) : Nat := 2048 + 16 * die

/-! ### Ports (R403, R404) -/

/-- The messages that a port had not delivered: those of COLL are discarded, the others have no port any more (R404). -/
def LinkState.losePort (l : LinkState) (p : Nat) : LinkState :=
  { l with unacked := (l.unacked.filter fun m => !(m.cls == 4 && m.port == some p)).map fun m =>
      if m.port = some p then { m with port := none } else m }

/-- A port goes down; what it had not delivered is sent again elsewhere, ahead of later messages (R404). -/
def State.portDown (s : State) (p : Nat) : State :=
  match s.link.ports[p]? with
  | none => s
  | some x =>
    if !x.up then s
    else
      let down (l : LinkState) : LinkState := { l with ports := listUpd l.ports p fun x => { x with up := false, tries := 0 } }
      ((s.modLink fun l => (down l).losePort p).resend).linkFault (linkSite (p / 9)) 0x0905 p

/-- FLIT_REPLAY: a flit that failed its CRC is replayed, `again` when it has been replayed before; the eighth replay of one flit takes
the port down. -/
def execFlitReplay (p : Nat) (again : Bool) (s : State) : Out :=
  match s.link.ports[p]? with
  | none => .next s
  | some x =>
    if !x.up then .next s
    else
      let tries := if again then x.tries + 1 else 1
      let s := s.modLink fun l => { l with ports := listUpd l.ports p fun x => { x with replays := x.replays + 1, tries := tries } }
      .next (if 8 ≤ tries then s.portDown p else s)

/-- The receiver has acknowledged message `i` of those outstanding: it is done with, and its way has been measured (R403, R404, R429). -/
def State.ackMessage (s : State) (i : Nat) : State :=
  match s.link.unacked[i]? with
  | none => s
  | some m =>
    match m.port with
    | none => s
    | some p => (s.modLink fun l => { l with unacked := listDrop1 l.unacked i }).measure 1 p (s.clk - m.since)

/-- PORT_DOWN: the port has lost its lanes. -/
def execPortDown (p : Nat) (s : State) : Out := .next (s.portDown p)

/-- PORT_TRAIN: a training that LK_PORTp.TRAIN started ends; `done` when it succeeded. -/
def execPortTrain (p : Nat) (done : Bool) (s : State) : Out :=
  .next (s.modLink fun l => { l with ports := listUpd l.ports p fun x =>
    if x.train then { x with train := false, up := x.up || done, tries := 0 } else x }).resend

/-! ### The headgate (R88, R410, R411) -/

/-- The source of a record in DETAIL of 0x0901. -/
def HeadRec.source (r : HeadRec) : Nat := r.src.getD 0xFFF

/-- The flags of a record. -/
def HeadRec.flags (r : HeadRec) : Nat := field r.data 6 2

def HeadRec.handle (r : HeadRec) : Nat := field r.data 0 4

/-- Its seed, at the I/O die of arrival (R28), causally after `deps`. -/
def HeadRec.seed (r : HeadRec) (die : Nat) (deps : List Nat) : Seed :=
  { entry := field r.data 4 2, ctl := r.flags / 2 % 2 == 1, psn := r.flags / 4 % 2 == 1, itn := BitVec.ofNat 16 (field r.data 8 2),
    payload := BitVec.ofNat 64 (field r.data 16 8), tag := none, deps := deps, io := die }

/-- The byte at which the first field of a record that breaks the table of R410 begins. -/
def State.badField? (s : State) (r : HeadRec) : Option Nat :=
  if r.off % 32 ≠ 0 ∨ r.data.length ≠ 32 then some 0
  else
    let known : Bool := match s.launch? r.handle with | some l => decide (imgEntries (s.image l) ≤ field r.data 4 2) | none => false
    if known then some 4
    else if 16 ≤ r.flags ∨ (r.flags / 8 % 2 = 1 ∧ r.flags % 2 = 0) then some 6
    else if field r.data 10 6 ≠ 0 then some 10
    else if field r.data 24 8 ≠ 0 then some 24
    else none

/-- A record's write completes at its source: code 0, or the code of its refusal (R222, R411). -/
def State.headDone (s : State) (r : HeadRec) (code : Nat) : State :=
  match r.req with
  | some id =>
    match s.reqs.find? fun q => q.id == id with
    | some q => if code = 0 then s.finishReq q q.vd false [] else s.failReq q 0x030B (peerDetail code) q.ea
    | none => s
  | none =>
    match r.src with
    | some d => s.sendPod d 3 (.answer (some d) r.tag code [])
    | none => s

/-- A record is discarded: 0x0901 or 0x0902 (R410). -/
def State.headDiscard (s : State) (die code detail : Nat) : State :=
  (s.modLink fun l => { l with discard := listUpd l.discard die (· + 1) }).linkFault (linkSite die) code detail

/-- Give a record's seed to its launch, or discard it where there is none: none while the launch's seed queue is full (R301, R411). -/
def State.headSeed (s : State) (die : Nat) (r : HeadRec) (deps : List Nat) : Option State :=
  match s.launch? r.handle with
  | some l => s.acceptSeed r.handle l (r.seed die deps)
  | none => some (s.headDiscard die 0x0902 r.handle)

/-- A die can take no more records: its queue or its hold table is full (R411). -/
def State.headFull (s : State) (die : Nat) : Bool :=
  decide (256 ≤ (s.link.inq.getD die []).length) || decide (64 ≤ (s.link.hold.getD die []).length)

/-- A record joins a die's queue; what follows it from its source has a higher number. -/
def State.headPut (s : State) (die : Nat) (r : HeadRec) : State :=
  let (q, s) := s.takeSeq
  s.modLink fun l => { l with inq := listUpd l.inq die fun x => x ++ [{ r with num := q }] }

/-- An earlier record of its source is still queued or held, at either die (R407, R411). -/
def State.headBehind (s : State) (r : HeadRec) : Bool :=
  (s.link.inq ++ s.link.hold).any fun l => l.any fun x => x.src == r.src && decide (x.num < r.num)

/-- Check record `i` of a die's queue: discarded, held, or released. None while it must wait: behind an earlier record of its source,
for room in the hold table, or for its launch's seed queue (R411). -/
def State.headCheck (s : State) (die i : Nat) : Option State :=
  match (s.link.inq.getD die [])[i]? with
  | none => none
  | some r =>
    if s.headBehind r then none
    else
      let s := s.modLink fun l => { l with inq := listUpd l.inq die fun x => listDrop1 x i }
      match s.badField? r with
      | some b => some ((s.headDiscard die 0x0901 (b + r.source * 2 ^ 8)).headDone r 0x0901)
      | none =>
        if (s.launch? r.handle).isNone then some ((s.headDiscard die 0x0902 r.handle).headDone r 0x0902)
        else if r.flags % 2 = 1 then
          if 64 ≤ (s.link.hold.getD die []).length then none
          else some ((s.headDone r 0).modLink fun l => { l with hold := listUpd l.hold die fun x => x ++ [r] })
        else (s.headSeed die r r.deps).map fun s => s.headDone r 0

/-- SEED_RECORD: the die checks the first record of its queue that need not wait. -/
def execSeedRecord (die : Nat) (s : State) : Out :=
  .next (((List.range (s.link.inq.getD die []).length).findSome? fun i => s.headCheck die i).getD s)

/-- Every earlier STORE of a record's source has performed (R88). -/
def State.storesDone (s : State) (r : HeadRec) : Bool :=
  decide (r.need ≤ Tbl.getD s.link.stores (match r.src with | some d => d + 1 | none => 0) 0) && !(r.deps.any s.pending)

/-- The scope of an AFTER record's fence: the device's, or with flag bit 3 the system's. -/
def HeadRec.fenceScope (r : HeadRec) (die : Nat) : Observers :=
  { deviceWide (linkSite die) with scope := if r.flags / 8 % 2 = 1 then 8 else 5 }

/-- Release the AFTER record `i` of a die: the PCIe read behind the writes to host memory where the record asks for it, the fence from LNK
to every path, then the seed, which follows the fence. None while it must wait. -/
def State.afterRelease (s : State) (die i : Nat) : Option State :=
  match (s.link.hold.getD die [])[i]? with
  | none => none
  | some r =>
    if !s.storesDone r then none
    else
      let gate := if r.flags / 8 % 2 = 1 then s.flushGate r.num fun p => p.who.path == 7 else none
      match gate with
      | some s => some s
      | none =>
        let (q, s) := s.engineFence (pathBit 7) (r.fenceScope die)
        (s.modLink fun l => { l with hold := listUpd l.hold die fun x => listDrop1 x i }).headSeed die r [q]

/-- AFTER_RELEASE: the held AFTER seed `n` of a die. -/
def execAfterRelease (die n : Nat) (s : State) : Out := .next ((s.afterRelease die n).getD s)

/-! ### The host (R413) and time transport (R414) -/

/-- A write of LK_IRQ sends an MSI-X vector, unless the host has masked it (log entry 37). -/
def State.irq (s : State) (v : Word) : State :=
  let vec := wbits v 0 5
  if Config.msixMasked s.free vec then s.bumpFree else ({ s with out := s.out ++ [OutMsg.msix vec] } : State).bumpFree

/-- LK_IRQ_WRITE. -/
def execLkIrqWrite (v : Word) (s : State) : Out := .next (s.irq v)

/-- TIME_EVENT_MESSAGE: an event message leaves with the time base in its second word, or arrives and has its first word's bits 62:0
replaced. Any other SYS message passes as it is. -/
def execTimeEventMessage (egress : Bool) (w0 w1 : Word) (s : State) : Out :=
  let t := s.obs.time
  let m : Word × Word :=
    if !wbit w0 63 then (w0, w1)
    else if egress then (w0, t)
    else (BitVec.ofNat 64 (2 ^ 63 + t.toNat % 2 ^ 63), w1)
  .next { s with out := s.out ++ [.time m.1 m.2] }

end Sys2Proof.Machine
end

