-- ==== Sys2Proof/Machine/Observation.lean ====
section
/-! DEFINITION. The observation engine: the sweeper (R419), the time base (R422), walks (R425), stops (R428), monitors (R429), injection
(R430), and its requests (R433). -/
namespace Sys2Proof.Machine

def State.modObs (s : State) (f : ObsState → ObsState) : State := { s with obs := f s.obs }

/-! ### Counters (R418 to R420) -/

/-- The address of a counter's total. -/
def totalPa (o : ObsState) (n e : Nat) : Nat := o.swBase + 8 * (64 * n + e)

/-- Move one counter into its total: it is read and cleared, then added. -/
def State.sweepOne (s : State) (n e : Nat) : State :=
  let v := Tbl.getD (s.site n).obs.ev e 0
  let s := s.modSite n fun x => { x with obs := { x.obs with ev := Tbl.erase x.obs.ev e } }
  let (t, s) := s.sysField coordSite (totalPa s.obs n e) 8
  s.sysWrite coordSite (totalPa s.obs n e) (toBytes ((t + v.toNat) % 2 ^ 64) 8)

/-- The site that the sweeper visits now: the 2,080 sites in ascending order, evenly over each period (log entry 121). -/
def State.sweepDue (s : State) : Option Nat :=
  if s.obs.swEn ∧ s.obs.swFrom + s.obs.swSite * (s.obs.period * 1400000) / 2080 ≤ s.clk then some s.obs.swSite else none

/-- The sweeper goes on to the next site, or to the next period. -/
def ObsState.sweepOn (o : ObsState) : ObsState :=
  if o.swSite + 1 < 2080 then { o with swSite := o.swSite + 1 }
  else { o with swSite := 0, swFrom := o.swFrom + o.period * 1400000 }

/-- SWEEP_VISIT: the sweeper reaches a site at its time. -/
def execSweepVisit (n : Nat) (s : State) : Out :=
  if s.sweepDue = some n then .next ((((s.site n).obs.ev.map (·.1)).foldl (fun s e => s.sweepOne n e) s).modObs (·.sweepOn)) else .next s

/-! ### The time base (R422) -/

/-- A write of OB_TADJ: a positive δ at once, a negative one by withholding. -/
def State.adjust (s : State) (v : Word) : State :=
  s.modObs fun o => if v.msb then { o with withhold := 2 ^ 64 - v.toNat } else { o with time := o.time + v, withhold := 0 }

/-- OB_TADJ_WRITE. -/
def execObTadjWrite (v : Word) (s : State) : Out := .next (s.adjust v)

/-! ### Replies (R433) -/

def State.obsReply (s : State) (r : SysReq) (v : Word) : State := s.sysReply coordSite r v false

def State.obsRefuse (s : State) (r : SysReq) (code detail : Nat) : State := (s.reqFault r code detail).sysReply coordSite r 0 true

/-! ### Walks (R424, R425) -/

/-- A firing's wait. -/
def HistEntry.wait (e : HistEntry) : Nat := if e.single then 0 else (e.clk - e.stamp).toNat

/-- WALK_STEP: walk `i` writes the record of its entry, numbered from 1 (log entry 38), and ends or moves along the last-arrival edge. -/
def execWalkStep (i : Nat) (s : State) : Out :=
  match s.obs.walks[i]? with
  | none => .next s
  | some w =>
    let done (s : State) (steps end_ : Nat) : State :=
      (s.modObs fun o => { o with walks := listDrop1 o.walks i }).obsReply w.req (fieldsWord [(0, steps), (8, end_)])
    match Tbl.get? (s.site w.site).obs.hist w.idx with
    | none => .next (done s w.steps 2)
    | some e =>
      let steps := w.steps + 1
      let o := e.org
      let s := s.traceRec 2 e.ctx w.site e.ip.toNat e.itn.toNat e.fp.toNat (e.wait + steps * 2 ^ 16)
        (fieldsWord [(16, o.site), (8, o.idx), (0, o.gen)])
      if w.depth ≤ steps then .next (done s steps 0)
      else if o.site = 0xFFF then .next (done s steps 1)
      else
        match Tbl.get? (s.site o.site).obs.hist o.idx with
        | some x =>
          if x.gen = o.gen then
            .next (s.modObs fun b =>
              { b with walks := listUpd b.walks i fun w => { w with steps := steps, site := o.site, idx := o.idx, gen := o.gen } })
          else .next (done s steps 2)
        | none => .next (done s steps 2)

/-! ### Stops (R428) -/

/-- Can a token hit at its site's input now (R103, R107, R428)? -/
def State.stopHere (s : State) (j : Nat) : Bool :=
  match s.mesh[j]? with
  | some f => atHead s.mesh j && inputOpen s f.dst && !retryWaits s f.dst && arrivalKind s f.dst f == .stop
  | none => false

/-- The flights that stop together with flight `i`: those that hit in the same clk, at most one at each site's input (R103), which the
order of the model's steps leaves to a free choice (log entry 39); in ascending order of site. -/
def State.stopSet (s : State) (i : Nat) : List Nat :=
  let at_ (j n : Nat) : Bool := match s.mesh[j]? with | some f => f.dst == n | none => false
  let may (j : Nat) : Bool :=
    j == i || (s.stopHere j && Config.pick (s.free + j) % 2 == 1 &&
      match s.mesh[j]? with | some f => (s.site f.dst).seq.inAt != some s.clk | none => false)
  let l := (List.range s.mesh.length).filter may
  (List.range 2080).filterMap fun n => if at_ i n then some i else l.find? fun j => at_ j n

/-- STOP_HIT: flight `i` hits the armed condition: it is withheld, recorded, and its launch freezes. -/
def execStopHit (i : Nat) (s : State) : Out :=
  match s.mesh[i]? with
  | none => .next s
  | some _ =>
    if !s.stopHere i then .next s
    else
      let h := s.obs.stopHandle.toNat
      let ids := s.stopSet i
      let fs := ids.filterMap fun j => s.mesh[j]?
      let s := { s with mesh := (s.mesh.zipIdx.filter fun (p : Flight × Nat) => !ids.contains p.2).map (fun (p : Flight × Nat) => p.1) }
      let s := fs.foldl
        (fun s f =>
          let c := f.tok.ctx.toNat
          (((s.countRecv f.dst c false).innerTaken f.dst).modCtx f.dst c fun k => { k with stopped := k.stopped ++ [f] }).traceRec 3 c f.dst f.tok.ip.toNat
            f.tok.itn.toNat f.tok.fp.toNat (b2n f.tok.port) f.tok.payload)
        s
      let s := s.bumpFree.modObs fun o => { o with stopArmed := false, listing := o.listing ++ [h] }
      let s := s.freezeFor h .stop
      .next ((s.sysFault coordSite 0x0A03 h).notify 0x0A03 coordSite h)

/-! ### Latency monitors (R429) -/

/-- The bucket of a sample. -/
def bucketOf (v : Nat) : Nat := if v ≤ 1 then 0 else if v < 2 ^ 15 then Nat.log2 v else 15

def satInc (b : BitVec 32) : BitVec 32 := if b = BitVec.allOnes 32 then b else b + 1

def Monitor.sample (m : Monitor) (v : Nat) : Monitor :=
  let x := BitVec.ofNat 32 (Nat.min v (2 ^ 32 - 1))
  { m with max := if m.max < x then x else m.max, min := if x < m.min then x else m.min,
           buckets := listUpd m.buckets (bucketOf v) satInc }

/-- MONITOR_SAMPLE: an enabled monitor takes a sample. -/
def execMonitorSample (m v : Nat) (s : State) : Out :=
  .next (s.modObs fun o =>
    { o with mons := listUpd o.mons m fun x => if x.en then x.sample v else x, samples := o.samples.erase (m, v) })

/-- A write of OB_LMSELm selects a source and clears the monitor. -/
def State.selectMonitor (s : State) (m : Nat) (v : Word) : State :=
  s.modObs fun o =>
    { o with
      mons := listUpd o.mons m fun _ => { Monitor.reset with src := BitVec.ofNat 12 (wbits v 4 12), en := wbit v 0 }
      samples := o.samples.filter fun x => x.1 != m }

/-- OB_LMSEL_WRITE. -/
def execObLmselWrite (m : Nat) (v : Word) (s : State) : Out := .next (s.selectMonitor m v)

/-! ### Error injection (R430) -/

/-- The storage address of an injection: of a cellar address, that of its primary copy. -/
def State.injectAt (s : State) (pa : Nat) : Nat := if paTarget pa = .cellar then cellarPrimary s.rcv pa else pa

/-- The mark of an injection's kind. -/
def injectMark (kind : Nat) : Mark := if kind = 1 then .correctable else if kind = 2 then .uncorrectable else .poison

def mayInject (pa kind : Nat) : Bool :=
  match paTarget pa with
  | .hbm | .cellar => true
  | .weight | .tile => kind != 3
  | _ => false

def State.armInjection (s : State) (r : SysReq) : State :=
  let pa := r.vd.toNat
  let kind := wbits r.va 0 2
  if !mayInject pa kind then s.obsRefuse r 0x0A02 pa
  else
    let s := { s with mem := { s.mem with inj := some (s.injectAt pa, injectMark kind) } }
    (s.modObs fun o => { o with einjPa := pa, einjKind := kind }).obsReply r 1

/-- INJECTION_HIT: a read reaches the line or unit of the armed injection: it meets it, and the injection is disarmed. -/
def execInjectionHit (pa : Nat) (s : State) : Out :=
  let a := s.injectAt pa
  match s.mem.inj with
  | none => .next s
  | some (b, _) =>
    if (if paTarget b = .tile then a / 8 = b / 8 else a / 64 = b / 64) then .next (s.settle (a / 8 * 8) 8) else .next s

/-! ### Requests (R433) -/

/-- In contexts 0 to 6 a counter's site lies in the issuing region. -/
def State.mayCount (s : State) (r : SysReq) (n : Nat) : Bool :=
  r.who.ctx == 7 ||
  match s.region? r.who.site r.who.ctx r.who.asid with
  | some k => k.covers r.who.site n
  | none => false

def State.serveObs (s : State) (r : SysReq) : State :=
  if r.psn then s.obsRefuse r 0x0A06 r.word.toNat
  else
    match r.ins with
    | .omrkWalk x =>
      s.modObs fun o =>
        { o with walks := o.walks ++
            [{ req := r, depth := x.hi.toNat % 128, steps := 0, site := r.who.site, idx := r.hist / 256, gen := r.hist % 256 }] }
    | .octrRead _ | .octrTotal _ =>
      let n := wbits r.va 0 12
      let e := wbits r.va 12 6
      if !s.mayCount r n then s.obsRefuse r 0x0A01 r.va.toNat
      else
        let v := (Tbl.getD (s.site n).obs.ev e 0).toNat
        match r.ins with
        | .octrTotal _ =>
          let (t, s) := s.sysField coordSite (totalPa s.obs n e) 8
          s.obsReply r (BitVec.ofNat 64 (t + v))
        | _ => s.obsReply r (BitVec.ofNat 64 v)
    | .otrc _ => s.bumpFree.obsReply r (match r.traced with | some seq => seq.setWidth 64 | none => Config.openPayload s.free)
    | .oinjArm _ => s.armInjection r
    | .oinjOff _ => { s with mem := { s.mem with inj := none } }.obsReply r 1
    | .ostpArm _ =>
      (s.modObs fun o =>
        { o with stopArmed := true, stopHandle := BitVec.ofNat 32 r.vd.toNat, stop1 := r.va &&& 0xFFFFFFFF00000FFF }).obsReply r 1
    | .ostpOff _ => (s.modObs fun o => { o with stopArmed := false }).obsReply r 1
    | _ => s

/-- The engine takes the request at the head of its queue; it does nothing while its die is wiped (R439). -/
def State.obsServe (s : State) : State :=
  if s.pkg.wiping.contains 8 then s
  else
  match s.obs.queue with
  | [] => s
  | r :: rest => (s.modObs fun o => { o with queue := rest }).serveObs r

end Sys2Proof.Machine
end

