-- ==== Sys2Proof/Machine/Package.lean ====
section
/-! DEFINITION. The package: resets and wipes (R434, R437 to R440), calibration (R436), boot and verification (R441), attestation (R442),
the life cycle (R443). -/
namespace Sys2Proof.Machine

def State.modPkg (s : State) (f : PkgState → PkgState) : State := { s with pkg := f s.pkg }

/-! ### Wiping (R437, R438) -/

/-- Memory whose addresses `lost` names reads zero again, without marks. -/
def MemState.wipe (m : MemState) (lost : Nat → Bool) : MemState :=
  { m with
    cells := m.cells.filter fun c => !lost c.1
    lines := m.lines.filter fun c => !lost (c.1 * 64)
    units := m.units.filter fun c => !lost (c.1 * 8)
    recs := m.recs.filter fun w => !lost (w.unit * 8)
    wild := m.wild.filter fun b => !lost (0x8000000000 + b.1 * 2 ^ 27) }

/-- The bytes that a compute die's reset wipes: its stack outside the cellar range, its weight store, its tile stores. -/
def dieBytes (r : RecState) (d a : Nat) : Bool :=
  match paTarget a with
  | .hbm => a / 2 ^ 36 == d && !inCellarRange r a
  | .weight => (a - 0x8000000000) / 2 ^ 31 == d
  | .tile => dieOf ((a - 0xC000000000) / 2 ^ 21) == d
  | _ => false

/-- Sites that `p` names are as after reset, and what they had sent or were waiting for is gone; what the engines still do for them finds
no target (R437). -/
def State.wipeSites (s : State) (p : Nat → Bool) : State :=
  let mute (r : SysReq) : SysReq := if p r.who.site then { r with target := none } else r
  let s := s.mapEngines mute
  { s with
    sites := s.sites.filter fun x => !p x.1
    mesh := s.mesh.filter fun f => !p f.dst
    groupReqs := s.groupReqs.filter fun r => !p r.src
    handleReqs := s.handleReqs.filter fun r => !p r.src
    reqs := s.reqs.filter fun r => !p r.who.site
    fences := s.fences.filter fun f => !p f.site
    mem := { s.mem with frames := s.mem.frames.filter fun x => !p (x.1 / 131072) }
    pager := { s.pager with
      markers := s.pager.markers.filter fun m => !p m.site
      walks := s.pager.walks.filter fun w => !p w.1 } }

/-! ### Compute dies (R384, R390, R437) -/

/-- A second mirror of a dirty region is lost when the other copy was stale (R384). -/
def RecState.holdStack (r : RecState) (d : Nat) : RecState :=
  let lose (x : Nat × BitVec 2) : Nat × BitVec 2 :=
    if (x.1 % 8 = d ∧ x.2.getLsbD 1) ∨ ((x.1 + 4) % 8 = d ∧ x.2.getLsbD 0) then (x.1, 3) else x
  ({ r with held := r.held ||| BitVec.ofNat 8 (2 ^ d), dirty := r.dirty.map lose }).resilver

/-- The pieces of a translated request that a die serves. -/
def State.onDie (s : State) (r : MemReq) (d : Nat) : Bool :=
  let pieces : List Piece := match r.phase with
    | .ready x => r.ranges.flatMap fun (g : Nat × Nat) => r.piecesOf x g.1 g.2
    | _ => []
  pieces.any fun p =>
    dieOfPa p.typ p.pa == some d ||
    (p.typ == 5 && (cellarPrimary s.rcv p.pa / 2 ^ 36 == d || cellarSecondary s.rcv p.pa / 2 ^ 36 == d))

/-- An access of the open seal's release set. -/
def State.inSeal (s : State) (id : Nat) : Bool :=
  match s.rcv.sealing with
  | some x => (s.recSet x.req).contains id
  | none => false

/-- The open seal has lost a write of its release set (R390). -/
def State.sealLost (s : State) : State := s.modRcv fun r => { r with sealing := r.sealing.map fun x => { x with lost := true } }

/-- Requests queued at the die's controllers are discarded (R93, R384); which of them had got there is a free choice: 0 not yet, 1 the
request is lost, 2 a mirror's part of it is lost (log entry 40). -/
def State.dropQueued (s : State) (d : Nat) : State :=
  let ids := (s.reqs.filter fun r => s.onDie r d).map (·.id)
  ids.foldl
    (fun s id =>
      let k := Config.pick s.free % 3
      let s := if k ≠ 0 ∧ s.inSeal id then s.sealLost else s
      let s := s.bumpFree
      if k = 1 then { s with reqs := s.reqs.filter fun r => r.id != id } else s)
    s

/-- Writes of the open seal's release set that the sites of a die have committed and that have not performed go with the die (R390). -/
def State.dropOwn (s : State) (d : Nat) : State :=
  match s.rcv.sealing with
  | none => s
  | some x =>
    let g := s.recRelease x.req
    let gone (p : Pend) : Bool :=
      p.writes && p.path == 3 && dieOf p.site == d &&
      (g.deps.contains p.id || (p.site == g.site && p.ctx == g.ctx && p.asid == g.asid && decide (p.id < g.seq)))
    if s.allPending.any gone then s.sealLost else s

/-- A cellar write whose other mirror has not acknowledged it when a die with one of its two mirrors is reset (R383, R384, R390). On its way
to that die it is discarded there. On its way from it a free choice tells: 0 it is lost, as R383 allows, and 2 the part queued at the die
is discarded while the other mirror has it; 1 both have it (log entry 40). `a` and `b` are its copies in storage, `k` its region. -/
def State.resetMirror (s : State) (d : Nat) (m : MirrorWrite) : State :=
  let k := cellarRegion m.pa
  let a := cellarPrimary s.rcv m.pa
  let b := cellarSecondary s.rcv m.pa
  let to_ := if m.second then b else a
  let from_ := if m.second then a else b
  let keep (s : State) : State := s.modRcv fun r => { r with mirrors := r.mirrors ++ [m] }
  let stale (s : State) (second : Bool) : State :=
    s.modRcv fun r => { r with dirty := Tbl.set r.dirty k (staleOf r k ||| (if second then 2 else 1)) }
  let torn (s : State) : State := if s.inSeal m.seq then s.sealLost else s
  if to_ / 2 ^ 36 = d then stale (torn s) m.second
  else if from_ / 2 ^ 36 ≠ d then keep s
  else
    let o := Config.pick s.free % 3
    let s := s.bumpFree
    if o = 0 then
      let s := torn s
      let lost (w : WriteRec) : Bool := w.who.seq == m.seq && decide (a / 8 ≤ w.unit ∧ w.unit ≤ (a + m.data.length - 1) / 8)
      (stale { s with mem := { s.mem with recs := s.mem.recs.filter fun w => !lost w } } (!m.second))
    else if o = 1 then s.applyMirror m
    else stale (torn (s.applyMirror m)) (!m.second)

/-- The cellar writes that have not reached both mirrors, as the reset of a die finds them. -/
def State.resetMirrors (s : State) (d : Nat) : State :=
  let l := s.rcv.mirrors
  l.foldl (fun s m => s.resetMirror d m) (s.modRcv fun r => { r with mirrors := [] })

def State.resetDie (s : State) (d : Nat) : State :=
  let s := ((s.dropQueued d).dropOwn d).resetMirrors d
  let s := s.wipeSites fun n => dieOf n == d
  let weight (b : Nat) : Bool := b / 16 == d
  let m := s.mem.wipe (dieBytes s.rcv d)
  let s := { s with
    mem := { m with
      refresh := m.refresh.filter fun b => !weight b
      wsNext := m.wsNext.filter fun x => !weight x.1
      wsBusy := Tbl.erase m.wsBusy d }
    pager := { s.pager with
      budget := Tbl.erase s.pager.budget d, claim := Tbl.erase s.pager.claim d, tlim := Tbl.erase s.pager.tlim d
      temp := Tbl.erase s.pager.temp d, duty := Tbl.erase s.pager.duty d }
    pkg := { s.pkg with
      recov := s.pkg.recov ||| BitVec.ofNat 8 (2 ^ d)
      wiping := if s.pkg.wiping.contains d then s.pkg.wiping else s.pkg.wiping ++ [d] } }
  if s.rcv.nreg = 0 then s else (s.modRcv fun r => r.holdStack d).recFault 0x0806 d

/-- COMPUTE_DIE_RESET; ignored while a device reset is in progress. -/
def execComputeDieReset (d : Nat) (s : State) : Out :=
  if d < 8 ∧ s.pkg.boot ≠ .wiping then .next (s.resetDie d) else .next s

/-- CALIBRATION_END: a returned die rejoins the single clock, its %clk restarts, and its stack's cellar range is released (R384, R436). -/
def execCalibrationEnd (d : Nat) (s : State) : Out :=
  if 8 ≤ d ∨ !s.pkg.recov.getLsbD d ∨ s.pkg.wiping.contains d then .next s
  else
    let bit : BitVec 8 := BitVec.ofNat 8 (2 ^ d)
    let s := s.modPkg fun k => { k with recov := k.recov &&& ~~~bit, dieClk := Tbl.set k.dieClk d s.clk }
    .next (s.modRcv fun r => ({ r with held := r.held &&& ~~~bit }).resilver)

/-! ### I/O dies (R416, R437, R438) -/

def FreezeFor.noReq (w : FreezeFor) : FreezeFor :=
  match w with
  | .freeze _ => .freeze none
  | .vacate _ => .vacate none
  | .cut _ => .cut none
  | w => w

/-- The requests that a launch table entry holds. -/
def Launch.requests (l : Launch) : List SysReq :=
  l.replies ++ l.behind ++ (match l.freeze with | some f => f.why.req.toList | none => [])

def Launch.noReqs (l : Launch) : Launch :=
  { l with replies := [], behind := [], freeze := l.freeze.map fun f => { f with why := f.why.noReq } }

/-- The collective requests of engine `e`. -/
def CollState.requests (c : CollState) (e : Nat) : List SysReq :=
  (c.queue.filter fun r => r.vd.toNat % 2 == e) ++
  (c.groups.filter fun g => g.gtag % 2 == e).flatMap fun g => g.waiting.map (·.req) ++ (match g.cur with | some o => [o.req] | none => [])

def XpState.requests (x : XpState) : List SysReq :=
  x.disp ++ x.other ++ x.grafts ++ x.verWait ++ (match x.cur with | some d => [d.req] | none => []) ++
  (match x.graft with | some g => [g.req] | none => []) ++ x.reps.filterMap fun p => p.2.drainReq

def RecState.requests (r : RecState) : List SysReq :=
  r.queue ++ (match r.sealing with | some x => [x.req] | none => []) ++ r.roll.getD [] ++ r.owed.map (·.1)

/-- The requests that the engines of I/O die `i` hold unanswered. -/
def State.dieRequests (s : State) (i : Nat) : List SysReq :=
  s.coll.requests i ++
  (if i = 0 then
    s.pager.queue ++ s.pager.waiting.filterMap (·.req) ++ s.pager.launches.flatMap (fun p => p.2.requests) ++ s.rcv.requests ++
    s.obs.queue ++ s.obs.walks.map (·.req)
  else s.xp.requests)

/-- The collective engine of an I/O die is as after reset (R349). -/
def CollState.resetEngine (c : CollState) (e : Nat) : CollState :=
  { c with
    queue := c.queue.filter fun r => r.vd.toNat % 2 != e
    groups := c.groups.filter fun g => g.gtag % 2 != e
    held := listUpd c.held e fun _ => []
    stall := listUpd c.stall e fun _ => 1400000
    sticky := listUpd c.sticky e fun _ => 0
    ltBase := if e = 0 then 0 else c.ltBase
    ltLen := if e = 0 then 0 else c.ltLen
    ltVer := if e = 0 then 0 else c.ltVer }

/-- The ports and the headgate of an I/O die (R416, R438): records whose write had not completed fail. -/
def State.resetPorts (s : State) (i : Nat) : State :=
  let s := (List.range 9).foldl (fun s p => s.portDown (9 * i + p)) s
  let fail (s : State) (r : HeadRec) : State :=
    match r.req, r.src with
    | some id, _ => (match s.reqs.find? fun q => q.id == id with | some q => s.finishReq q 0 true [] | none => s)
    | none, some d => s.sendPod d 3 (.answer (some d) r.tag 0x0903 [])
    | none, none => s
  let s := (s.link.inq.getD i []).foldl fail s
  let die (r : Inbound) : Nat := match r.src with | none => 0 | some _ => r.port / 9
  s.modLink fun l =>
    { l with
      ports := l.ports.zipIdx.map fun p => if p.2 / 9 = i then PortState.reset else p.1
      inq := listUpd l.inq i fun _ => []
      hold := listUpd l.hold i fun _ => []
      discard := listUpd l.discard i fun _ => 0
      inbound := l.inbound.filter fun r => die r != i
      windows := if i = 0 then LinkState.reset.windows else l.windows
      hostBase := if i = 0 then 0 else l.hostBase }

/-- What I/O die 0 alone holds: the coordinator, the recovery engine, the observation engine; the always-on domain stays (R438). -/
def State.resetCentre (s : State) : State :=
  { s with
    pager := { s.pager with
      queue := []
      waiting := s.pager.waiting.map fun w => { w with req := none }
      launches := s.pager.launches.map fun p => (p.1, p.2.noReqs)
      fltLimit := 50, notify := 0, pcFreeze := false }
    rcv := { s.rcv with
      openState := 0, nent := 0, openSeq := 0, sealedSeq := 0, scan := true, roll := s.rcv.roll.map fun _ => []
      owed := [], queue := [], sealing := none }
    obs := { ObsState.reset with time := s.obs.time, withhold := s.obs.withhold, timeFrac := s.obs.timeFrac }
    mem := { s.mem with inj := none } }

/-- An I/O die's configuration cache is wiped; with the other die's copy gone too, the launch table and the images are lost (R28, R437,
log entry 122). -/
def State.loseTables (s : State) (i : Nat) : State :=
  let left := s.pager.copies.filter (· ≠ i)
  let s := s.modPager fun p => { p with copies := left }
  if left.isEmpty then
    let s := s.modPkg fun k => { k with fw := none }
    s.modPager fun p =>
      { p with
        launches := [], waiting := [], cache := [], links := [], markers := [], twins := [], twinNums := [], twinOk := [], twinPairs := [] }
  else s

/-- The firmware's launch waits to be placed again on the I/O die that lost it (R438). -/
def State.loseFirmware (s : State) : State :=
  match s.pkg.fw with
  | none => s
  | some (h, _) => s.modLaunch h fun l => if l.io = 0 then { l with state := .placing, inRun := false, freeze := none, quiet := none } else l

def State.resetIo (s : State) (i : Nat) : State :=
  let lost := (s.dieRequests i).map fun r => (8 + i, r)
  let s := s.resetPorts i
  let s := { s with coll := s.coll.resetEngine i }
  let s := (if i = 0 then s.resetCentre.loseFirmware else { s with xp := XpState.reset }).loseTables i
  let s := s.modPkg fun k =>
    { k with
      unanswered := k.unanswered ++ lost
      wiping := if k.wiping.contains (8 + i) then k.wiping else k.wiping ++ [8 + i] }
  let s := s.wipeSites fun n => dieOf n == 8 + i
  { s with mem := s.mem.wipe (dieBytes s.rcv (8 + i)) }

/-- IO_DIE_1_RESET; ignored while a device reset is in progress. -/
def execIoDie1Reset (s : State) : Out := .next (if s.pkg.boot = .wiping then s else s.resetIo 1)

/-- IO_DIE_0_RESET; ignored while a device reset is in progress. -/
def execIoDie0Reset (s : State) : Out := .next (if s.pkg.boot = .wiping then s else s.resetIo 0)

/-! ### The device (R434, R440, R443) -/

/-- A device reset: everything is as after reset; fuses keep their values, and the life cycle moves on when LADV was set. The model's own
counters and what it has sent outside go on. -/
def State.freshReset (s : State) : State :=
  let life := if s.pkg.ladv ∧ s.pkg.life < 3 then s.pkg.life + 1 else s.pkg.life
  { State.reset with
    pkg := { PkgState.reset with life := life, svn := s.pkg.svn }
    seq := s.seq, free := s.free, inputs := s.inputs, out := s.out }

/-- INPUT_LOSS: the input has stayed below 40 V for 10 µs. -/
def execInputLoss (s : State) : Out := .next s.freshReset

/-- DEVICE_RESET; ignored while a device reset is in progress. -/
def execDeviceReset (s : State) : Out := .next (if s.pkg.boot = .wiping then s else s.freshReset)

/-- LADV: the life cycle advances at the next device reset; without effect in the returned state. -/
def State.advanceLife (s : State) : State := if s.pkg.life < 3 then s.modPkg fun k => { k with ladv := true } else s

/-- LIFE_CYCLE_ADVANCE. -/
def execLifeCycleAdvance (s : State) : Out := .next s.advanceLife

/-- The resets that PK_CTL.RST asks for take effect together (R438, R445). -/
def State.requestResets (s : State) (v : Word) : State :=
  if s.pkg.boot = .wiping then s
  else if wbit v 9 then s.freshReset
  else
    let s := (List.range 8).foldl (fun s d => if wbit v d then s.resetDie d else s) s
    let s := if wbit v 8 then s.resetIo 1 else s
    if wbit v 10 then s.resetIo 0 else s

/-! ### Boot (R440, R441) -/

/-- The length of a signature and a public key. -/
def sigBytes : Nat := 29792
def keyBytes : Nat := 64

def fwGraph (l : List Byte) : List Byte := l.take (l.length - sigBytes - keyBytes)

/-- The checks of R441 on an image with its signature and key. -/
def State.fwVerified (s : State) (l : List Byte) : Bool :=
  let graph := fwGraph l
  let sig := slice l graph.length sigBytes
  let key := slice l (graph.length + sigBytes) keyBytes
  decide (sigBytes + keyBytes ≤ l.length) && Config.slhVerify key graph sig &&
  Config.shake256 key Config.fusedKeyDigest.length == Config.fusedKeyDigest && decide (s.pkg.svn ≤ Config.imageVersion graph)

/-- A seed of the boot ROM for the firmware's entry 0. -/
def bootSeed (v : Nat) : Seed := { entry := 0, ctl := false, psn := false, itn := 0, payload := BitVec.ofNat 64 v, tag := none, deps := [] }

/-- The launch of the firmware's system graph (log entry 41). -/
def bootLaunch (asid : Nat) (img : List Byte) : Launch :=
  { state := .placing, imageKey := imageKey img, ctx := 7, asid := asid, sys := true, bx := 0, by_ := 0, w := imgWidth img,
    h := imgHeight img, io := 0, fixed := none, twin := none, twinOff := false, round := 0, base := .none, seeds := [bootSeed 0],
    links := [], log := [], logOver := false, windowOver := false, evictAtEnd := false, nsink := 0, endOn := false, endEntry := 0,
    endFp := 0, endSite := coordSite, endCtx := 7, inRun := false, saved := false, snap := [], eosBase := 0, eosAtBase := 0,
    escalated := false, freeze := none, quiet := none, replies := [], behind := [], runs := 0, credSince := false, cols := [] }

/-- The address of context 7's descriptor in the boot window. -/
def bootCd : Nat := 0x0FFFFFC0

/-- PK_BOOT: verify the image of LEN bytes at PA 0; on acceptance name context 7's descriptor and place the firmware's graph. A graph that
the coordinator would not place counts as a failed image (log entry 41). -/
def State.bootImage (s : State) (len : Nat) : State :=
  if !s.pkg.bootWin then s
  else
    let (l, s) := s.sysRead coordSite 0 len
    let graph := fwGraph l
    let (cd, s) := s.sysRead coordSite bootCd 64
    if !s.fwVerified l || !s.descriptorOk cd || (imageFails graph 7 (field cd 4 4)).isSome then
      s.modPkg fun k => { k with bootFail := true }
    else
      let asid := field cd 0 2
      let h := asid * 2 ^ 20
      let s := (s.modPkg fun k => { k with bootWin := false, bootFail := false, boot := .running, fw := some (h, l) }).bindSys bootCd
      let s := s.modPager fun p =>
        { p with
          binds := Tbl.set p.binds asid { pa := bootCd, seq := 0, lost := false, desc := cd }
          cache := ((p.keepImage graph).getD p).cache
          waiting := p.waiting ++ [{ what := .place, handle := h, req := none, data := true, denied := false }] }
      s.setLaunch h (bootLaunch asid graph)

/-- PK_BOOT_WRITE. -/
def execPkBootWrite (v : Word) (s : State) : Out := .next (s.bootImage (wbits v 0 32))

/-! ### The end of a wipe (R438 to R440) -/

/-- I/O die 0 has left reset: the firmware is verified again, placed at its old base from the empty image, and told so. -/
def State.restartFirmware (s : State) : State :=
  match s.pkg.fw with
  | none => if s.pkg.boot = .running then s.modPkg fun k => { k with bootFail := true } else s
  | some (h, l) =>
    if !s.fwVerified l then s.modPkg fun k => { k with bootFail := true }
    else
      match s.launch? h with
      | none => s
      | some x =>
        if x.state = .placing then
          (s.setLaunch h { x with fixed := some (x.bx, x.by_), pinIo := true, saved := false, seeds := bootSeed 1 :: x.seeds }).modPager fun p =>
            { p with waiting := (p.waiting.filter fun w => w.handle != h) ++
                [{ what := .place, handle := h, req := none, data := false, denied := false }] }
        else (s.acceptSeed h x (bootSeed 1)).getD s

/-- WIPE_COMPLETE: the wipe of a die ends: 0 to 7 the compute dies, 8 and 9 the I/O dies. The last one of a device reset opens the boot
window; an I/O die that leaves reset answers the requests its engines lost. -/
def execWipeComplete (dom : Nat) (s : State) : Out :=
  if !s.pkg.wiping.contains dom then .next s
  else
    let s := s.modPkg fun k => { k with wiping := k.wiping.filter (· ≠ dom) }
    if s.pkg.boot = .wiping then
      .next (if s.pkg.wiping.isEmpty then s.modPkg fun k => { k with boot := .waiting, bootWin := true } else s)
    else if dom < 8 then .next s
    else
      let back : PagerState → PagerState := fun p => { p with copies := if p.copies.contains (dom - 8) then p.copies else p.copies ++ [dom - 8] }
      let s := s.modPager back
      let lost := (s.pkg.unanswered.filter fun x => x.1 == dom).map (·.2)
      let s := s.modPkg fun k => { k with unanswered := k.unanswered.filter fun x => x.1 != dom }
      let s := s.replyAll lost 0 true
      .next (if dom = 8 then s.restartFirmware else s)

/-! ### Attestation (R442) -/

/-- Context 7 can ask the boot ROM for a report: its firmware has been accepted and its launch stands, and the boot ROM's site is not being
wiped; a key exists (R442). -/
def State.attests (s : State) : Bool :=
  (s.pkg.life == 1 || s.pkg.life == 2) && s.pkg.boot == .running && !s.pkg.wiping.contains 8 &&
  match s.pkg.fw with
  | some (h, _) => (match s.launch? h with | some l => l.ctx == 7 && l.state != .placing && l.state != .failed | none => false)
  | none => false

/-- ATTESTATION_REPORT: a report of the firmware's digest, the security version, the life cycle, the device number and every %feat, signed
with the identity key, when context 7 asks for it: none in the blank and the returned state, and none while no firmware runs (log entry
42). -/
def execAttestationReport (s : State) : Out :=
  if !s.attests then .next s
  else
    let image : List Byte := match s.pkg.fw with | some (_, l) => l | none => []
    let body := Config.shake256 image 64 ++ toBytes s.pkg.svn 4 ++ toBytes s.pkg.life 1 ++ toBytes s.link.devno 2 ++
                (List.range 2080).flatMap fun n => toBytes (s.site n).feat.toNat 1
    let key := Config.shake256 (Config.fusedSecret ++ toBytes s.pkg.life 1) 96
    .next { s with out := s.out ++ [.report (body ++ Config.slhSign key body)] }

end Sys2Proof.Machine
end

