-- ==== Sys2Proof/Machine/Registers.lean ====
section
/-! DEFINITION. The register blocks (R4, R210): what a read of a register gives and what a write does. Reserved bits and offsets that no
rule names read zero and ignore writes (log entry 43). -/
namespace Sys2Proof.Machine

/-- Clear the bits of a W1C field that a write names. -/
def w1c {w : Nat} (old : BitVec w) (v : Word) : BitVec w := old &&& ~~~(BitVec.ofNat w v.toNat)

/-- A field of a value kept in place: bits `lo + len - 1` down to `lo`. -/
def kept (v : Word) (lo len : Nat) : Nat := wbits v lo len * 2 ^ lo

/-! ### Every site: sequencer, vector engine, matrix engine, memory port (R124, R182, R236, R271) -/

/-- SQ_STATUS. -/
def SeqUnit.status (q : SeqUnit) : Word :=
  fieldsWord [(0, b2n q.trapBad), (1, b2n q.halt), (8, (q.acts.foldl (fun a p => a + 2 ^ p.1) 0) % 2 ^ 8),
    (16, 16 - (q.frames.filter fun p => decide (p.1 < 128)).length), (24, q.trapQ.length % 2 ^ 8)]

/-- The free slots of the pool (R124): neither in a frame, nor set aside for a reserve, nor of the system reserve. -/
def SeqUnit.poolFree (q : SeqUnit) : Nat :=
  let used := (q.frames.filter fun p => decide (128 ≤ p.1)).foldl (fun a p => a + classSlots p.2.cls) 0
  130944 - used - q.reserved.foldl (fun a p => a + classSlots p.2.cls) 0

def SeqUnit.framesReg (q : SeqUnit) : Word :=
  fieldsWord [(0, q.poolFree), (32, Nat.min q.allocQ.length 255), (40, q.retryQ.length % 2 ^ 8)]

def handlerReg (ip : BitVec 11) (en : Bool) : Word := fieldsWord [(0, ip.toNat), (16, b2n en)]

def Bank.cfg (k : Bank) : Word := fieldsWord [(0, k.owner % 8), (4, b2n k.pend), (5, b2n k.shared), (6, k.grp % 4)]

def MatrixUnit.ownerReg (m : MatrixUnit) : Word :=
  match m.owner with
  | some c => fieldsWord [(0, c % 8), (3, 1)]
  | none => 0

/-- MP_STATUS. -/
def State.portStatus (s : State) (n : Nat) : Word :=
  let old := ((List.range 8).map fun c => s.parkedAge n c).foldl Nat.max 0
  fieldsWord [(0, ((s.site n).port.gens.foldl (fun a p => a + 2 ^ p.1) 0) % 2 ^ 8), (29, Nat.min (s.parkedReqs n) 256),
    (38, Nat.min (s.outstanding n) 512), (48, Nat.min (old / 1400) 65535)]

def Extent.va (e : Extent) (mig : Bool) : Word :=
  fieldsWord [(0, e.npg % 2 ^ 12), (21, e.vpn % 2 ^ 35), (56, b2n mig), (57, b2n e.pin), (58, e.ctx % 8), (61, b2n e.r), (62, b2n e.w),
    (63, 1)]

def Extent.pa (e : Extent) : Word := fieldsWord [(0, e.typ % 8), (21, e.frame % 2 ^ 27), (48, e.dev % 2 ^ 12)]

/-- The key of the slice that MP_CISTc and MP_CISTNc show. -/
def PortUnit.cistKey (p : PortUnit) (c : Nat) : Nat := Tbl.getD p.cistAsid c 0 * 8 + c

/-- MP_CISTc. -/
def PortUnit.cistReg (p : PortUnit) (c : Nat) : Word :=
  BitVec.ofNat 64 (Tbl.getD p.cistBase (p.cistKey c) 0 + Tbl.getD p.cistLen (p.cistKey c) 0 * 2 ^ 48)

/-- MP_WSREFb (R213, R236). -/
def State.wsRef (s : State) (n b : Nat) : Word :=
  fieldsWord [(0, Tbl.getD s.mem.wsNext (dieOf n * 16 + b) (1400 * b) % 2 ^ 48), (48, 168)]

/-- Offsets 0x000 to 0xBFF of every site, but for those of the link, monitor and mesh registers. -/
def State.siteRead (s : State) (n off : Nat) : Word :=
  let x := s.site n
  if off = 0x000 then handlerReg x.seq.trapIp x.seq.trapEn
  else if off = 0x008 then handlerReg x.seq.sysIp x.seq.sysEn
  else if off = 0x010 then x.seq.status
  else if off = 0x018 then BitVec.ofNat 64 x.seq.sticky.toNat
  else if off = 0x020 then x.seq.framesReg
  else if 0x100 ≤ off ∧ off < 0x140 then (x.tile.banks.getD ((off - 0x100) / 8) Bank.reset).cfg
  else if off = 0x148 then BitVec.ofNat 64 x.tile.sticky.toNat
  else if off = 0x150 then BitVec.ofNat 64 x.tile.outflg.toNat
  else if off = 0x200 then x.mx.ownerReg
  else if off = 0x208 then x.mx.status
  else if off = 0x210 then BitVec.ofNat 64 x.mx.sticky.toNat
  else if off = 0x400 then s.portStatus n
  else if off = 0x408 then BitVec.ofNat 64 (Tbl.getD s.mem.wsBusy (dieOf n) 0).toNat
  else if 0x420 ≤ off ∧ off < 0x460 then x.port.cistReg ((off - 0x420) / 8)
  else if 0x460 ≤ off ∧ off < 0x4A0 then BitVec.ofNat 64 (Tbl.getD x.port.cistCount (x.port.cistKey ((off - 0x460) / 8)) 0 % 2 ^ 16)
  else if 0x780 ≤ off ∧ off < 0x800 then s.wsRef n ((off - 0x780) / 8)
  else if 0x800 ≤ off ∧ off < 0xC00 then
    match Tbl.get? x.port.ext ((off - 0x800) / 16) with
    | some e => if off % 16 = 0 then e.va ((List.range (e.npg + 1)).any fun i => s.migrating (s.asidOf n e.ctx) (e.vpn + i)) else e.pa
    | none => 0
  else 0

def State.siteWrite (s : State) (n off : Nat) (v : Word) : State :=
  if off = 0x000 then s.modSeq n fun q => { q with trapIp := BitVec.ofNat 11 v.toNat, trapEn := wbit v 16 }
  else if off = 0x008 then s.modSeq n fun q => { q with sysIp := BitVec.ofNat 11 v.toNat, sysEn := wbit v 16 }
  else if off = 0x010 then s.modSeq n fun q => { q with trapBad := q.trapBad && !wbit v 0 }
  else if off = 0x018 then s.modSeq n fun q => { q with sticky := w1c q.sticky v }
  else if off = 0x140 then s.bankBegin n v
  else if off = 0x148 then s.modTile n fun u => { u with sticky := w1c u.sticky v }
  else if off = 0x150 then s.modTile n fun u => { u with outflg := w1c u.outflg v }
  else if off = 0x210 then s.modMx n fun m => { m with sticky := w1c m.sticky v }
  else if off = 0x410 then
    let asid := wbits v 0 12
    if wbits v 62 2 = 1 then s.fltRetry n asid else if wbits v 62 2 = 2 then s.fltFail n asid else s
  else if 0x420 ≤ off ∧ off < 0x460 then
    s.modPort n fun p =>
      let k := p.cistKey ((off - 0x420) / 8)
      { p with cistBase := Tbl.put p.cistBase k (kept v 10 38) 0, cistLen := Tbl.put p.cistLen k (wbits v 48 16) 0 }
  else s

/-! ### The pager (R290) -/

def State.dieRead (s : State) (d off : Nat) : Word :=
  if off = 0xC00 then BitVec.ofNat 64 (s.budgetOf d)
  else if off = 0xC08 then s.powerUsed d
  else if off = 0xC10 then
    fieldsWord [(0, Tbl.getD s.pager.duty d 0 % 2 ^ 8), (32, Tbl.getD s.pager.tlim d 95 % 2 ^ 8), (40, Tbl.getD s.pager.temp d 0 % 2 ^ 8)]
  else 0

def State.dieWrite (s : State) (d off : Nat) (v : Word) : State :=
  if off = 0xC00 then s.modPager fun p => { p with budget := Tbl.put p.budget d (wbits v 0 20) 170000 }
  else if off = 0xC10 then s.modPager fun p => { p with tlim := Tbl.put p.tlim d (wbits v 32 8) 95 }
  else s

/-- RP_STATUS. -/
def State.pagerStatus (s : State) : Word :=
  fieldsWord [(0, (s.pager.launches.filter fun p => s.resident p.1 p.2).length % 2 ^ 16),
    (16, (s.pager.launches.filter fun p => p.2.state == .frozen).length % 2 ^ 16), (32, s.pager.waiting.length % 2 ^ 16)]

def State.coordRead (s : State) (off : Nat) : Word :=
  if off = 0xC00 then BitVec.ofNat 64 s.pager.fltLimit
  else if off = 0xC08 then s.pager.notify
  else if off = 0xC10 then s.pagerStatus
  else if off = 0xC18 then BitVec.ofNat 64 (b2n s.pager.pcFreeze)
  else if off = 0xC20 then BitVec.ofNat 64 s.pager.sysCd
  else 0

def State.coordWrite (s : State) (off : Nat) (v : Word) : State :=
  if off = 0xC00 then s.modPager fun p => { p with fltLimit := wbits v 0 16 }
  else if off = 0xC08 then s.modPager fun p => { p with notify := BitVec.ofNat 64 (kept v 20 44 + kept v 0 1) }
  else if off = 0xC18 then s.modPager fun p => { p with pcFreeze := wbit v 0 }
  else if off = 0xC20 then s.bindSys (kept v 6 42)
  else s

/-! ### The collective engines (R350) -/

def CollState.status (c : CollState) (e : Nat) : Word :=
  let gs := c.groups.filter fun g => g.gtag % 2 == e
  fieldsWord [(0, b2n (gs.any fun g => (g.cur.toList ++ g.past.toList).any (·.exch))),
    (8, Nat.min (c.held.getD e []).length 255),
    (16, ((c.queue.filter fun r => r.vd.toNat % 2 == e && (match r.ins with | .cred .. => true | _ => false)).length +
          (gs.foldl (fun a g => a + g.waiting.length) 0)) % 2 ^ 8),
    (24, (gs.filter fun g => g.cur.isSome).length % 2 ^ 8), (32, gs.length % 2 ^ 8)]

def State.collRead (s : State) (e off : Nat) : Word :=
  let c := s.coll
  if off = 0xD00 then BitVec.ofNat 64 c.ltBase
  else if off = 0xD08 then BitVec.ofNat 64 c.ltLen
  else if off = 0xD10 then BitVec.ofNat 64 c.ltVer.toNat
  else if off = 0xD20 then c.status e
  else if off = 0xD28 then BitVec.ofNat 64 (c.stall.getD e 0).toNat
  else if off = 0xD30 then BitVec.ofNat 64 (c.sticky.getD e 0).toNat
  else 0

/-- The table's registers are written at engine 0 only. -/
def State.collReg (s : State) (e off : Nat) (v : Word) : State :=
  if off = 0xD00 then (if e = 0 then s.modColl fun c => { c with ltBase := kept v 3 45 } else s)
  else if off = 0xD08 then (if e = 0 then s.modColl fun c => { c with ltLen := wbits v 0 17 } else s)
  else if off = 0xD18 then (if e = 0 then s.adoptTable v else s)
  else if off = 0xD28 then s.modColl fun c => { c with stall := listUpd c.stall e fun _ => BitVec.ofNat 32 v.toNat }
  else if off = 0xD30 then s.modColl fun c => { c with sticky := listUpd c.sticky e fun x => w1c x v }
  else s

/-! ### The expert placement engine (R373) -/

def XpState.status (x : XpState) : Word :=
  fieldsWord [(0, x.ver.toNat), (16, (x.reps.filter fun p => p.2.state == .live).length % 2 ^ 11), (32, x.forced.toNat),
    (48, x.freeShared % 2 ^ 16)]

def State.xpRead (s : State) (off : Nat) : Word :=
  let x := s.xp
  if off = 0xE00 then fieldsWord [(0, x.asid % 2 ^ 12), (16, b2n x.en)]
  else if off = 0xE08 then fieldsWord [(0, x.nexp % 2 ^ 13), (32, x.pooln % 2 ^ 16)]
  else if off = 0xE10 then BitVec.ofNat 64 x.pool
  else if off = 0xE18 then x.status
  else if off = 0xE20 then BitVec.ofNat 64 x.sticky.toNat
  else 0

/-- While EN is 1 the owner and the pool stand; EN does not rise over a pool without shared pages. -/
def XpState.write (x : XpState) (off : Nat) (v : Word) : XpState :=
  if off = 0xE00 then
    { x with asid := if x.en then x.asid else wbits v 0 12, en := wbit v 16 && (x.en || decide (x.nexp ≠ 0 ∧ x.nexp < x.pooln)) }
  else if off = 0xE08 then (if x.en then x else { x with pooln := wbits v 32 16, nexp := wbits v 0 13 })
  else if off = 0xE10 then (if x.en then x else { x with pool := kept v 10 46 })
  else if off = 0xE20 then { x with sticky := w1c x.sticky v }
  else x

/-! ### The recovery engine (R396) -/

/-- May EN rise over this set-up? -/
def RecState.mayEnable (r : RecState) : Bool :=
  decide (r.nreg % 8 = 0 ∧ 8 ≤ r.nreg ∧ r.nreg ≤ 2048 ∧ r.celBase * 2 ^ 21 + r.nreg * 2 ^ 19 ≤ 2 ^ 36 ∧ 1 ≤ r.logLen ∧
          r.logFirst + r.logLen ≤ r.nreg)

def State.recRegRead (s : State) (off : Nat) : Word :=
  let r := s.rcv
  if off = 0xF00 then fieldsWord [(0, r.asid % 2 ^ 12), (16, b2n r.en)]
  else if off = 0xF08 then fieldsWord [(0, r.celBase % 2 ^ 15), (32, r.nreg % 2 ^ 12)]
  else if off = 0xF10 then fieldsWord [(0, r.logFirst % 2 ^ 11), (16, r.logLen % 2 ^ 11)]
  else if off = 0xF18 then fieldsWord [(0, r.openSeq % 2 ^ 32), (32, r.nent % 2 ^ 26), (58, r.openState % 4)]
  else if off = 0xF20 then BitVec.ofNat 64 (r.sealedSeq % 2 ^ 32)
  else if off = 0xF28 then
    fieldsWord [(0, r.held.toNat), (8, r.resil.toNat), (16, r.dirty.length % 2 ^ 16), (32, b2n r.roll.isSome), (33, b2n r.scan)]
  else 0

def RecState.write (r : RecState) (off : Nat) (v : Word) : RecState :=
  if off = 0xF00 then
    { r with asid := if r.en then r.asid else wbits v 0 12, en := wbit v 16 && (r.en || r.mayEnable) }
  else if off = 0xF08 then (if r.en then r else { r with nreg := wbits v 32 12, celBase := wbits v 0 15 })
  else if off = 0xF10 then (if r.en then r else { r with logLen := wbits v 16 11, logFirst := wbits v 0 11 })
  else r

/-! ### Links (R415) -/

def Window.base (w : Window) : Word := fieldsWord [(0, w.nfr % 2 ^ 12), (21, w.frame % 2 ^ 27)]

def Window.ctl (w : Window) : Word :=
  fieldsWord [(0, w.ctx % 8), (32, w.dev % 2 ^ 12), (58, b2n w.allPod), (59, b2n w.host), (60, b2n w.a), (61, b2n w.w), (62, b2n w.r),
    (63, b2n w.v)]

def Window.setBase (w : Window) (v : Word) : Window := { w with frame := wbits v 21 27, nfr := wbits v 0 12 }

def Window.setCtl (w : Window) (v : Word) : Window :=
  { w with v := wbit v 63, r := wbit v 62, w := wbit v 61, a := wbit v 60, host := wbit v 59, allPod := wbit v 58,
           dev := wbits v 32 12, ctx := wbits v 0 3 }

def LinkState.hgStat (l : LinkState) (die : Nat) : Word :=
  fieldsWord [(0, Nat.min (l.inq.getD die []).length 255), (8, (l.hold.getD die []).length % 2 ^ 8),
    (32, (l.discard.getD die 0).toNat)]

def PortState.reg (p : PortState) : Word := fieldsWord [(0, b2n p.up), (1, b2n p.train), (32, p.replays.toNat)]

/-- Offsets 0x600 to 0x77F of an I/O die's first site; LK_CTL, LK_HOSTBASE and the windows are I/O die 0's alone. -/
def State.linkRead (s : State) (die off : Nat) : Word :=
  let l := s.link
  if off < 0x648 then (l.ports.getD (9 * die + (off - 0x600) / 8) PortState.reset).reg
  else if off = 0x648 then l.hgStat die
  else if die ≠ 0 then 0
  else if off = 0x650 then fieldsWord [(12, l.podPa / 2 ^ 12 % 2 ^ 36), (48, l.devno % 2 ^ 12)]
  else if off = 0x658 then BitVec.ofNat 64 l.hostBase
  else if 0x680 ≤ off then
    let w := l.windows.getD ((off - 0x680) / 16) Window.reset
    if off % 16 = 0 then w.base else w.ctl
  else 0

def State.linkWrite (s : State) (die off : Nat) (v : Word) : State :=
  if off < 0x648 then
    if wbit v 1 then s.modLink fun l => { l with ports := listUpd l.ports (9 * die + (off - 0x600) / 8) fun p => { p with train := true } }
    else s
  else if die ≠ 0 then s
  else if off = 0x650 then
    s.modLink fun l => { l with devno := if l.devSet then l.devno else wbits v 48 12, devSet := true, podPa := kept v 12 36 }
  else if off = 0x658 then s.modLink fun l => { l with hostBase := kept v 12 52 }
  else if off = 0x660 then s.irq v
  else if 0x680 ≤ off then
    s.modLink fun l => { l with windows := listUpd l.windows ((off - 0x680) / 16) fun w =>
      if off % 16 = 0 then w.setBase v else w.setCtl v }
  else s

/-! ### The observation engine (R431) -/

def Monitor.read (m : Monitor) (off : Nat) : Word :=
  if off = 0 then fieldsWord [(0, b2n m.en), (4, m.src.toNat)]
  else if off = 8 then fieldsWord [(0, m.min.toNat), (32, m.max.toNat)]
  else
    let k := (off - 16) / 8
    fieldsWord [(0, (m.buckets.getD (2 * k) 0).toNat), (32, (m.buckets.getD (2 * k + 1) 0).toNat)]

def State.obsRead (s : State) (off : Nat) : Word :=
  let o := s.obs
  if off = 0xE00 then fieldsWord [(0, o.period % 2 ^ 10), (16, b2n o.swEn)]
  else if off = 0xE08 then BitVec.ofNat 64 o.swBase
  else if off = 0xE10 then o.time
  else if off = 0xE20 then BitVec.ofNat 64 o.trBase
  else if off = 0xE28 then fieldsWord [(0, o.trLen % 2 ^ 5), (16, o.lost.toNat), (32, o.prod.toNat)]
  else if off = 0xE30 then BitVec.ofNat 64 o.cons.toNat
  else if off = 0xE38 then fieldsWord [(0, o.stopHandle.toNat), (32, b2n o.stopArmed)]
  else if off = 0xE40 then o.stop1
  else if off = 0xE48 then BitVec.ofNat 64 (o.einjPa % 2 ^ 48)
  else if off = 0xE50 then fieldsWord [(0, o.einjKind % 4), (63, b2n s.mem.inj.isSome)]
  else if 0x500 ≤ off ∧ off < 0x5F0 then (o.mons.getD ((off - 0x500) / 0x50) Monitor.reset).read ((off - 0x500) % 0x50)
  else 0

def State.obsWrite (s : State) (off : Nat) (v : Word) : State :=
  if off = 0xE00 then
    let p := wbits v 0 10
    s.modObs fun o => { o with swEn := wbit v 16, period := if 1 ≤ p ∧ p ≤ 1000 then p else 1000, swSite := 0, swFrom := s.clk }
  else if off = 0xE08 then s.modObs fun o => { o with swBase := kept v 3 45 }
  else if off = 0xE18 then s.adjust v
  else if off = 0xE20 then s.modObs fun o => { o with trBase := kept v 5 43 }
  else if off = 0xE28 then s.modObs fun o => { o with trLen := wbits v 0 5 }
  else if off = 0xE30 then s.modObs fun o => { o with cons := BitVec.ofNat 32 v.toNat }
  else if off = 0x500 ∨ off = 0x550 ∨ off = 0x5A0 then s.selectMonitor ((off - 0x500) / 0x50) v
  else s

/-! ### The package (R445) -/

def PkgState.read (k : PkgState) (off : Nat) : Word :=
  if off = 0xF80 then fieldsWord [(11, b2n k.ladv), (16, k.life % 8)]
  else if off = 0xF88 then
    fieldsWord [(0, k.recov.toNat), (10, b2n k.bootFail), (11, b2n k.bootWin), (32, k.svn % 2 ^ 32)]
  else 0

def State.pkgWrite (s : State) (off : Nat) (v : Word) : State :=
  if off = 0xF80 then (if wbit v 11 then s.advanceLife else s).requestResets v
  else if off = 0xF90 then s.bootImage (wbits v 0 32)
  else s

/-! ### One register block (R210) -/

/-- The 8 B register at an aligned offset of a site's block. -/
def State.regRead (s : State) (n off : Nat) : Word :=
  if n = 2048 ∧ (0xF80 ≤ off) then s.pkg.read off
  else if n = 2048 ∧ 0xF00 ≤ off then s.recRegRead off
  else if n = 2048 ∧ (0xE00 ≤ off ∨ (0x500 ≤ off ∧ off < 0x5F0)) then s.obsRead off
  else if n = 2064 ∧ 0xE00 ≤ off ∧ off < 0xF00 then s.xpRead off
  else if (n = 2048 ∨ n = 2064) ∧ 0xD00 ≤ off ∧ off < 0xE00 then s.collRead ((n - 2048) / 16) off
  else if n = 2048 ∧ 0xC00 ≤ off ∧ off < 0xD00 then s.coordRead off
  else if n < 2048 ∧ n % 256 = 128 ∧ 0xC00 ≤ off ∧ off < 0xD00 then s.dieRead (n / 256) off
  else if (n = 2048 ∨ n = 2064) ∧ 0x600 ≤ off ∧ off < 0x780 then s.linkRead ((n - 2048) / 16) off
  else s.siteRead n off

/-- Write the 8 B register at an aligned offset of a site's block. -/
def State.regWrite (s : State) (n off : Nat) (v : Word) : State :=
  if n = 2048 ∧ (0xF80 ≤ off) then s.pkgWrite off v
  else if n = 2048 ∧ 0xF00 ≤ off then s.modRcv fun r => r.write off v
  else if n = 2048 ∧ (0xE00 ≤ off ∨ (0x500 ≤ off ∧ off < 0x5F0)) then s.obsWrite off v
  else if n = 2064 ∧ 0xE00 ≤ off ∧ off < 0xF00 then { s with xp := s.xp.write off v }
  else if (n = 2048 ∨ n = 2064) ∧ 0xD00 ≤ off ∧ off < 0xE00 then s.collReg ((n - 2048) / 16) off v
  else if n = 2048 ∧ 0xC00 ≤ off ∧ off < 0xD00 then s.coordWrite off v
  else if n < 2048 ∧ n % 256 = 128 ∧ 0xC00 ≤ off ∧ off < 0xD00 then s.dieWrite (n / 256) off v
  else if (n = 2048 ∨ n = 2064) ∧ 0x600 ≤ off ∧ off < 0x780 then s.linkWrite ((n - 2048) / 16) off v
  else s.siteWrite n off v

/-- The site and the offset of a register block's address (R210). -/
def blockAt (pa : Nat) : Nat × Nat := (pa % 2 ^ 32 / 2 ^ 12, pa % 2 ^ 12)

/-- Read `n` bytes within one 8 B register. -/
def State.blockRead (s : State) (pa n : Nat) : List Byte :=
  let (k, off) := blockAt pa
  slice (toBytes (s.regRead k (off / 8 * 8)).toNat 8) (off % 8) n

/-- A write that is not one aligned 8 B write does nothing: the manual gives accesses of 8 B only (log entries 43, 98). -/
def State.blockWrite (s : State) (pa : Nat) (l : List Byte) : State :=
  let (k, off) := blockAt pa
  if off % 8 = 0 ∧ l.length = 8 then s.regWrite k off (BitVec.ofNat 64 (ofBytes l)) else s

/-- REGISTER_WRITE: an 8 B write reaches a register block. -/
def execRegisterWrite (pa : Nat) (v : Word) (s : State) : Out :=
  if paTarget pa = .regs then .next (s.blockWrite pa (toBytes v.toNat 8)) else .next s

end Sys2Proof.Machine
end

