-- ==== Sys2Proof/Machine/MemData.lean ====
section
/-! DEFINITION. What the data of a memory request does (R223, R225, R226, R233, R238 to R243, R247, R388): reads and the rows they
poison, writes and the rows they suppress, atomics, copies, cellar lines. -/
namespace Sys2Proof.Machine

/-- What an access comes to: it goes on, it fails with a record, or it leaves a payload and a PSN. -/
inductive Perf where
  /-- it has not ended: a `vatom` with elements left (R86) -/
  | more (s : State)
  | fail (code detail va : Nat) (s : State)
  | ok (v : Word) (psn : Bool) (s : State)

/-! ### Records -/

/-- The address of the byte at an offset in consecutive pieces. -/
def vaAt (l : List Piece) (off : Nat) : Nat :=
  match l with
  | [] => 0
  | p :: r => if off < p.len then p.va + off else vaAt r (off - p.len)

/-- 0x030E for the first uncorrectable byte of a read (R226); one met in the weight store may fail a replica (R366). -/
def State.reportBad (s : State) (r : MemReq) (l : List Piece) (bad : List (Nat × Nat)) : State :=
  match bad with
  | [] => s
  | b :: _ =>
    let a := vaAt l b.1
    let s := s.logPort r.who 0x030E (a / 64 % 16) a 0 0
    if l.any fun p => (s.local? p).typ == 1 then s.hurt r.who.site r.who.ctx else s

/-- The suppressed writes of a request: the first byte's address, the rows, how many bytes (R225). -/
structure Suppressed where
  va : Option Nat
  rows : Word
  count : Nat
  deriving DecidableEq, Repr

def Suppressed.none : Suppressed := { va := Option.none, rows := 0, count := 0 }

def Suppressed.add (x : Suppressed) (va row n : Nat) : Suppressed :=
  { va := some (x.va.getD va), rows := x.rows ||| BitVec.ofNat 64 (2 ^ row), count := x.count + n }

/-- 0x030F for a request with suppressed writes (R225). -/
def State.logSuppressed (s : State) (r : MemReq) (handle : Nat) (x : Suppressed) : State :=
  match x.va with
  | none => s
  | some va => s.logPort r.who 0x030F (opcOf r.ins + popBits x.rows.toNat 64 * 2 ^ 8 + x.count * 2 ^ 32) va handle x.rows

/-- The end of a write: a rejected landing is reported, and the answer is that of a failed request (R233, R238). -/
def State.written (s : State) (r : MemReq) (reject : Option (Nat × Nat × Nat)) (v : Word) (psn : Bool) : Perf :=
  match reject with
  | some (va, code, detail) => .ok 0 true (s.logReject r.who code detail va)
  | none => .ok v psn s

/-! ### Reads (R226, R239 to R241, R243) -/

def MemReq.pieces (r : MemReq) (x : List Xlat) : List Piece := r.ranges.flatMap fun g => r.piecesOf x g.1 g.2

/-- Read a register block piecewise, each within one register. -/
def State.blockBytes (s : State) (pa n : Nat) : List Byte := (cut 8 pa n).flatMap fun p => s.blockRead p.1 p.2

def State.perfLd (s : State) (r : MemReq) (g : Agent) (m : MF) (l : List Piece) : Perf :=
  let (b, s) : ReadRes × State :=
    if r.phys && typeOfPa r.ea == 8 then ({ bytes := s.blockBytes r.ea r.ins.unitBytes, bad := [] }, s) else s.serveReads r.id r.ins g l
  let v := ofBytes b.bytes
  let v : Word := if m.md.getLsbD 2 then BitVec.ofInt 64 (sext v (8 * r.ins.unitBytes)) else BitVec.ofNat 64 v
  .ok v (!b.bad.isEmpty) (s.reportBad r l b.bad)

/-- The request's own writes to a tile of its site. -/
def State.fillTile (s : State) (g : Agent) (d : Desc) (parts : List (Nat × List Byte)) (bad : Word) : State :=
  let g := { g with rel := none, rmw := false }
  let s := parts.foldl (fun (s : State) p => s.writeMem g (d.base + p.1) p.2) s
  s.setPoison d (s.tilePoison d ||| bad)

/-- `ldt` and `get`: the whole image, or rows at a pitch. -/
def State.perfTileRead (s : State) (r : MemReq) (g : Agent) (pitch : Bool) (l : List Piece) : Perf :=
  let d := Desc.of r.vd
  let (b, s) := s.serveReads r.id r.ins g l
  let bad : Word :=
    if pitch then
      rowMask (fun k => b.bad.any fun p => decide (p.1 < (k + 1) * d.rowBytes ∧ k * d.rowBytes < p.1 + p.2)) d.rows
    else d.badRowsOf b.bad
  let parts : List (Nat × List Byte) :=
    if pitch then (List.range d.rows).map fun k => (k * d.rowBytes, slice b.bytes (k * d.rowBytes) d.rowBytes) else [(0, b.bytes)]
  .ok r.vd (bad != 0) ((s.reportBad r l b.bad).fillTile g d parts bad)

/-- The elements of an indexed request that are not skipped, with their places in the tile. -/
def MemReq.live (r : MemReq) : List (Nat × Nat) :=
  ((r.elems.getD []).zipIdx).filterMap fun p => p.1.map fun a => (p.2, a)

def MemReq.skips (r : MemReq) : Bool := (r.elems.getD []).any (·.isNone)

/-- `gth`, element by element: the state, and the rows that an uncorrectable read fed. -/
def State.gather (s : State) (r : MemReq) (x : List Xlat) (g : Agent) (d : Desc) (l : List (Nat × Nat)) (bad : Word) : State × Word :=
  match l with
  | [] => (s, bad)
  | (k, a) :: rest =>
    let z := r.ins.unitBytes
    let ps := r.piecesOf x a z
    let (b, s) := s.serveReads r.id r.ins g ps
    let row := k / d.cols
    let s := if bad = 0 then s.reportBad r ps b.bad else s
    let s := s.writeMem { g with rel := none, rmw := false } (d.base + row * d.rowBytes + k % d.cols * z) b.bytes
    s.gather r x g d rest (if b.bad.isEmpty then bad else bad ||| BitVec.ofNat 64 (2 ^ row))

def State.perfGather (s : State) (r : MemReq) (x : List Xlat) (g : Agent) : Perf :=
  let d := Desc.of r.vd
  let (s, bad) := s.gather r x g d r.live 0
  .ok r.vd (bad != 0 || r.skips) (s.setPoison d (s.tilePoison d ||| bad))

/-! ### Writes (R225, R233, R239 to R241, R243) -/

/-- The pieces of runs to be written, with their bytes. -/
def MemReq.writeList (r : MemReq) (x : List Xlat) (l : List (Nat × List Byte)) : List (Piece × List Byte) :=
  l.flatMap fun g => (r.piecesOf x g.1 g.2.length).map fun p => (p, slice g.2 (p.va - g.1) p.len)

def State.perfSt (s : State) (r : MemReq) (x : List Xlat) (g : Agent) : Perf :=
  let n := r.ins.unitBytes
  if r.psn then .ok (Config.openPayload s.free) true (s.bumpFree.logSuppressed r 0 { va := some r.ea, rows := 0, count := n })
  else
    let b := toBytes r.vd.toNat n
    if r.phys && typeOfPa r.ea == 8 then .ok (Config.openPayload s.free) false (s.bumpFree.blockWrite r.ea b)
    else
      let (s, reject) := s.serveWrites r.id r.ins g (r.writeList x [(r.ea, b)])
      s.bumpFree.written r reject (Config.openPayload s.free) false

/-- The tile image as a list of stretches in ascending order, each of one row; stretches of no row (padding) are none. -/
def Desc.stretches (d : Desc) : List (Nat × Nat × Option Nat) :=
  let plane (k : Nat) : List (Nat × Nat × Nat) :=
    (List.range d.rows).filterMap fun r => ((d.rowParts r)[k]?).map fun p => (p.1, p.2, r)
  let l := (List.range 3).flatMap plane
  let walk := l.foldl
    (fun (acc : List (Nat × Nat × Option Nat) × Nat) p =>
      (acc.1 ++ (if acc.2 < p.1 then [(acc.2, p.1 - acc.2, none)] else []) ++ [(p.1, p.2.1, some p.2.2)], p.1 + p.2.1))
    ([], 0)
  walk.1 ++ (if walk.2 < d.size then [(walk.2, d.size - walk.2, none)] else [])

/-- The stretches of an `stt` or `put`: where each goes, its offset in the tile, its length and row. -/
def MemReq.outParts (r : MemReq) (d : Desc) (pitch : Bool) : List (Nat × Nat × Nat × Option Nat) :=
  if pitch then (List.range d.rows).map fun k => (r.ea + k * r.vb.toNat, k * d.rowBytes, d.rowBytes, some k)
  else d.stretches.map fun p => (r.ea + p.1, p.1, p.2.1, p.2.2)

/-- Join runs that follow one another. -/
def joinRuns (l : List (Nat × List Byte)) : List (Nat × List Byte) :=
  l.foldl
    (fun acc p =>
      match acc.getLast? with
      | some q => if q.1 + q.2.length = p.1 then acc.dropLast ++ [(q.1, q.2 ++ p.2)] else acc ++ [p]
      | none => [p])
    []

/-- The rows of the source tile whose writes are suppressed, and the tile's bytes; a damaged unit is reported (R225). -/
def State.sourceTile (s : State) (r : MemReq) (g : Agent) (d : Desc) (also : Word) : Word × List Byte × State :=
  let bad := s.badRows d
  let rows := if r.psn then allRows d.rows else (s.tilePoison d ||| bad.1 ||| also) &&& allRows d.rows
  let s := s.logTileUnit r d bad.2
  let (l, s) := s.readTile g d
  (rows, l, s)

/-- A record written to this device's own headgate waits there until it has been checked (R223, R411); one with AFTER, also for the
earlier writes `deps` (R88). -/
def State.ownSeed (s : State) (r : MemReq) (p : Piece) (b : List Byte) (deps : List Nat) : State :=
  let h : HeadRec := { src := some s.link.devno, off := p.pa % 2 ^ 20, data := b, need := 0, req := some r.id, tag := 0, deps := [] }
  s.headPut 0 { h with deps := if h.flags % 2 = 1 then deps else [] }

/-- Is the piece in this device's own headgate? -/
def State.ownHead (s : State) (p : Piece) : Bool := p.typ == 4 && s.isSelf p.dev && typeOfPa p.pa == 9

/-- `stt` and `put`. A write of the own headgate leaves the request waiting for its check; `none` then. -/
def State.perfTileWrite (s : State) (r : MemReq) (x : List Xlat) (g : Agent) (pitch : Bool) (deps : List Nat) : Perf × Bool :=
  let d := Desc.of r.vd
  let (rows, l, s) := s.sourceTile r g d 0
  let parts := r.outParts d pitch
  let held (o : Option Nat) : Bool := match o with | some k => rows.getLsbD k | none => r.psn
  let supp := parts.foldl
    (fun (a : Suppressed) p => match p.2.2.2 with
      | some k => if rows.getLsbD k then a.add p.1 k p.2.2.1 else a
      | none => if r.psn then { a with count := a.count + p.2.2.1 } else a)
    Suppressed.none
  let runs := joinRuns ((parts.filter fun p => !held p.2.2.2 && p.2.2.1 != 0).map fun p => (p.1, slice l p.2.1 p.2.2.1))
  let s := s.logSuppressed r (handleOf r.vd) supp
  let w := r.writeList x runs
  if w.any fun p => s.ownHead p.1 then (.ok r.vd false (w.foldl (fun (s : State) p => s.ownSeed r p.1 p.2 deps) s), true)
  else
    let (s, reject) := s.serveWrites r.id r.ins g w
    (s.written r reject r.vd supp.va.isSome, false)

/-- `sct`: elements in ascending order, each a write of its own. -/
def State.perfScatter (s : State) (r : MemReq) (x : List Xlat) (g : Agent) : Perf :=
  let d := Desc.of r.vd
  let z := r.ins.unitBytes
  let (rows, l, s) := s.sourceTile r g d r.rows
  let supp := r.live.foldl
    (fun (a : Suppressed) p => if rows.getLsbD (p.1 / d.cols) then a.add p.2 (p.1 / d.cols) z else a) Suppressed.none
  let runs := (r.live.filter fun p => !rows.getLsbD (p.1 / d.cols)).map fun p =>
    (p.2, slice l (p.1 / d.cols * d.rowBytes + p.1 % d.cols * z) z)
  let s := s.logSuppressed r (handleOf r.vd) supp
  let (s, reject) := s.serveWrites r.id r.ins g (r.writeList x runs)
  s.written r reject r.vd (supp.va.isSome || r.skips)

/-! ### Atomics (R85, R86, R242) -/

/-- op(old, x, c) on `n` bytes. -/
def atomicOp (fn : AtomFn) (n old x c : Nat) : Nat :=
  let w := 8 * n
  let x := x % 2 ^ w
  let c := c % 2 ^ w
  match fn with
  | .add => (old + x) % 2 ^ w
  | .min => if sext x w < sext old w then x else old
  | .max => if sext old w < sext x w then x else old
  | .minn => Nat.min old x
  | .maxn => Nat.max old x
  | .and => old &&& x
  | .or => old ||| x
  | .xor => old ^^^ x
  | .xchg => x
  | .cas => if old = c then x else old
  | .fadd =>
    let p : Prec := if n = 4 then .single else .double
    (roundOut p .rne 0 (Val.add .rne (floatIn p (BitVec.ofNat 64 old)) (floatIn p (BitVec.ofNat 64 x)))).1.toNat

/-- The newest contents of `n` bytes, as an atomic reads them at the ordering point; free where damaged. -/
def State.newestBytes (s : State) (a n : Nat) : List Byte :=
  slice ((unitsOf a n).flatMap fun u => toBytes (if s.mem.damaged u then Config.damaged s.free u else s.mem.unit u).toNat 8) (a % 8) n

/-- One atomic operation: the value before it, whether it was uncorrectable, the rejection of a bank, the state. With `write` false the
location keeps its value, and nothing is sent to a peer (R225). -/
def State.atomicAt (s : State) (id : Nat) (ins : Instr) (g : Agent) (fn : AtomFn) (n x c : Nat) (write : Bool)
    (p : Piece) : Nat × Bool × Option (Nat × Nat) × State :=
  if s.away p then
    let old := ofBytes ((List.range n).map fun i => Config.peerByte (s.free + p.pa) i)
    let msg : OutMsg := .peer p.dev id p.pa ins (toBytes x n ++ toBytes c n)
    (old, false, none, (if write then s.sendPod p.dev (podClass .atomic p.pa) msg else s).bumpFree)
  else
    let q := s.local? p
    let ctx := if p.typ = 4 then (s.inboundCtx (some p.dev) .atomic p.pa).getD g.ctx else g.ctx
    let g := { g with path := if p.typ = 4 then 7 else g.path, rmw := true }
    match (if q.typ = 2 then s.landingReject ctx g.seq q.pa else none) with
    | some f => (0, false, some f, s)
    | none =>
      let s := if q.typ = 0 then s.fork q.pa n else s
      let a := if q.typ = 0 then s.routed q.pa else q.pa
      let old := ofBytes (s.newestBytes a n)
      let bad := s.mem.bad a n
      let s := (s.settle a n).bumpFree
      let seen := (unitsOf a n).foldl (fun l u => sawUnit l u 0 (unitMask a n u) g) s.mem.recs
      let s := { s with mem := { s.mem with recs := seen } }
      (old, bad, none, if write && !bad then s.writeMem g a (toBytes (atomicOp fn n old x c) n) else s)

def State.perfAtom (s : State) (r : MemReq) (fn : AtomFn) (l : List Piece) (g : Agent) : Perf :=
  let n := r.ins.unitBytes
  let s := if r.psn then s.logSuppressed r 0 { va := some r.ea, rows := 0, count := n } else s
  match l with
  | [] => .ok 0 true s
  | p :: _ =>
    let (old, bad, reject, s) := s.atomicAt r.id r.ins g fn n r.vd.toNat r.vb.toNat (!r.psn) p
    match reject with
    | some (code, detail) => .fail code detail r.ea s
    | none => .ok (BitVec.ofNat 64 old) bad (if bad then s.reportBad r l [(0, n)] else s)

/-- A `vatom` begins: its tiles are read, and the elements whose writes are suppressed are reported (R86, R225). -/
def State.beginVatom (s : State) (r : MemReq) (fn : AtomFn) (g : Agent) : VatomRun × State :=
  let d := Desc.of r.vd
  let n := r.ins.unitBytes
  let (rows, xs, s) := s.sourceTile r g d r.rows
  let (cs, s) : List Byte × State := if fn = .cas then s.readTile g (Desc.of r.vc) else ([], s)
  let supp := r.live.foldl
    (fun (a : Suppressed) p => if rows.getLsbD (p.1 / d.cols) then a.add p.2 (p.1 / d.cols) n else a) Suppressed.none
  ({ left := r.live.filter fun p => !rows.getLsbD (p.1 / d.cols), operands := xs, compares := cs, suppressed := supp.va.isSome,
     bad := false, reject := none, olds := [] }, s.logSuppressed r (handleOf r.vd) supp)

/-- Element `k` of a `vatom`, at address `a`: an atomic of its own. -/
def State.vatomElement (s : State) (r : MemReq) (fn : AtomFn) (x : List Xlat) (g : Agent) (f : VatomRun) (k a : Nat) :
    VatomRun × State :=
  let d := Desc.of r.vd
  let n := r.ins.unitBytes
  let off := k / d.cols * d.rowBytes + k % d.cols * n
  match r.piecesOf x a n with
  | [] => (f, s)
  | p :: _ =>
    let (old, bad, reject, s) := s.atomicAt r.id r.ins g fn n (field f.operands off n) (field f.compares off n) true p
    match reject with
    | some (code, detail) => ({ f with reject := match f.reject with | some y => some y | none => some (a, code, detail) }, s)
    | none =>
      let s := if bad && !f.bad then s.reportBad r [p] [(0, n)] else s
      ({ f with bad := f.bad || bad, olds := f.olds ++ [(off, old)] }, s)

/-- `vatom`: its tiles first, then one element at a time in ascending order, each atomic by itself (R86); at the end the old values go to
the tile when the word asks for them. -/
def State.perfVatom (s : State) (r : MemReq) (fn : AtomFn) (m : MF) (x : List Xlat) (g : Agent) : Perf :=
  let (f, s) := match r.vat with | some f => (f, s) | none => s.beginVatom r fn g
  match f.left with
  | [] =>
    let s := if m.off.getLsbD 4 then s.fillTile g (Desc.of r.vd) (f.olds.map fun p => (p.1, toBytes p.2 r.ins.unitBytes)) 0 else s
    s.written r f.reject r.vd (f.suppressed || r.skips || f.bad)
  | e :: rest =>
    let (f, s) := s.vatomElement r fn x g { f with left := rest } e.1 e.2
    .more (s.setReq { r with vat := some f })

/-! ### `dst` (R388) -/

/-- The line parts of a `dst` at this device, with their bytes. -/
def cellarParts (p : Piece) (b : List Byte) : List (Nat × List Byte) := (cut 64 p.pa p.len).map fun q => (q.1, slice b (q.1 - p.pa) q.2)

/-- Must a line be logged before it is written (R388)? -/
def RecState.logs (r : RecState) (pa : Nat) : Bool :=
  (r.openState == 1 || r.openState == 2) && r.openSeq != 0 && (Tbl.getD r.tags (pa / 64 - 0x20000000000 / 64) 0).toNat != r.openSeq

def State.perfDst (s : State) (r : MemReq) (x : List Xlat) (g : Agent) : Perf :=
  let n := r.ins.unitBytes
  if r.psn then .ok (Config.openPayload s.free) true (s.bumpFree.logSuppressed r 0 { va := some r.ea, rows := 0, count := n })
  else
    let w := r.writeList x [(r.ea, toBytes r.vd.toNat n)]
    let far := w.filter fun p => s.away p.1
    let near := (w.filter fun p => !s.away p.1).flatMap fun p => cellarParts p.1 p.2
    let g := if w.any fun (p : Piece × List Byte) => p.1.typ == 4 then { g with path := 7 } else g
    let s := far.foldl (fun (s : State) p => s.sendPod p.1.dev 1 (.peer p.1.dev r.id p.1.pa r.ins p.2)) s
    let (s, full) := s.dstLines g near
    match full with
    | some line => .fail 0x0802 line r.ea s
    | none => .ok (Config.openPayload s.free) false s.bumpFree

/-! ### `wsld` (R212, R247) -/

def State.perfWsld (s : State) (r : MemReq) (l : List Piece) (g : Agent) : Perf :=
  let dst := r.vd.toNat
  let n := r.vb.toNat
  if s.bankMapped dst then .fail 0x0308 ((dst - 0x8000000000) / 2 ^ 27) dst s
  else
    let (b, s) := s.serveReads r.id r.ins g l
    let g := { g with path := 5 }
    if r.psn then .ok 0 true ((s.reportBad r l b.bad).logSuppressed r 0 { va := some dst, rows := 0, count := n })
    else if !b.bad.isEmpty then .ok 0 true ((s.reportBad r l b.bad).bytesUndefined g dst n)
    else
      let s := s.writeMem g dst b.bytes
      let (back, s) := s.readBytes { g with strong := true } dst n
      .ok (BitVec.ofNat 64 (crc64 back)) false s

/-! ### One request (R447) -/

/-- The request's access, with its translation. The flag says that it stays outstanding (R223). -/
def State.perform (s : State) (r : MemReq) (x : List Xlat) (g : Agent) (deps : List Nat) : Perf × Bool :=
  let l := r.pieces x
  match s.stalePort r with
  | some w => (.fail 0x0311 w.toNat r.ea s, false)
  | none =>
    match r.ins with
    | .ld m => (s.perfLd r g m l, false)
    | .st _ => (s.perfSt r x g, false)
    | .dst _ => (s.perfDst r x g, false)
    | .ldt _ => (s.perfTileRead r g (r.vb != 0) l, false)
    | .get _ => (s.perfTileRead r g false l, false)
    | .stt _ => s.perfTileWrite r x g (r.vb != 0) deps
    | .put _ => s.perfTileWrite r x g false deps
    | .gth _ => (s.perfGather r x g, false)
    | .sct _ => (s.perfScatter r x g, false)
    | .atom fn _ => (s.perfAtom r fn l g, false)
    | .vatom fn m => (s.perfVatom r fn m x g, false)
    | .wsld _ => (s.perfWsld r l g, false)
    | _ => (.ok (Config.openPayload s.free) false s.bumpFree, false)

end Sys2Proof.Machine
end

