-- ==== Sys2Proof/Machine/MemPort.lean ====
section
/-! DEFINITION. The memory port at work: when a request may perform (R67 to R81, R213, R384), the twin comparator's exits (R316), what
an access leaves for later ones (R72, R77, R78), requests without data (R81, R218, R232, R244, R247), the host's answers (R413), refresh
windows (R213). -/
namespace Sys2Proof.Machine

/-! ### When a request may perform -/

def MemReq.scope (r : MemReq) : Nat := match r.ins.mf? with | some m => m.scp.toNat | none => 0

/-- The bytes that a `dst` writes at this device, as addresses in the cellar. -/
def State.dstLinesOf (s : State) (l : List Piece) : List Nat :=
  ((l.filter fun p => !s.away p).flatMap fun p => (cut 64 p.pa p.len).map (·.1)).filter fun a => paTarget a == .cellar

/-- A `dst` that must log its line waits until both mirrors of the log are there (R384, R388). -/
def State.dstWaits (s : State) (r : MemReq) (l : List Piece) : Bool :=
  match r.ins with
  | .dst _ =>
    let a := s.dstLinesOf l
    a.any (fun x => s.rcv.logs x) && !(logRegions s.rcv (s.rcv.nent + a.length)).all (regionWhole s.rcv)
  | _ => false

/-- A write to the own headgate waits while the die takes no more records (R411). It leaves after the earlier writes of its site that share
its class, and only once it is known where they go (R408). -/
def State.headgateWaits (s : State) (r : MemReq) (l : List Piece) : Bool :=
  l.any s.ownHead &&
  (s.headFull 0 ||
   s.reqs.any fun q =>
     decide (q.id < r.id) && q.who.site == r.who.site && q.ins.isAccess && q.ins.writes &&
     (q.ins.alc == r.ins.alc || q.ins.alc == some 0 || r.ins.alc == some 0) &&
     (match q.phase with | .committed | .parked .. => true | _ => false))

/-- The earlier writes through the device's own inbound windows that an AFTER record waits for (R88, R408). -/
def State.ownStores (s : State) (r : MemReq) : List Nat :=
  (s.reqs.filter fun q =>
    decide (q.id < r.id) && q.who.site == r.who.site && q.ins.writes &&
    (q.ins.alc == r.ins.alc || q.ins.alc == some 0 || r.ins.alc == some 0) &&
    (match q.phase with
     | .ready x => (q.pieces x).any fun p => p.typ == 4 && s.isSelf p.dev && !s.ownHead p
     | _ => false)).map (·.id)

/-- A request as the maker of its accesses: what it is ordered by, and for a release the set that it carries (R76). -/
def State.releaseAgent (s : State) (r : MemReq) (l : List Piece) : Agent :=
  let g := s.memAgent r l
  { g with rel := if r.ins.ordOf.releases then some (s.releaseSet g) else none }

/-- What must have performed at a request's own scope before it does: a release's set, and before a class 0 access the earlier writes of its
context (R72, R76). -/
def State.before (s : State) (g : Agent) : List Nat :=
  (g.rel.getD []) ++
  (if g.zero then (s.mem.recs.filter fun w => w.who.sameCtx g && decide (w.who.seq < g.seq)).map (·.who.seq) else [])

/-- A request at system scope or beyond still waits for the PCIe read behind such writes to host memory: with the read issued (R75). -/
def State.hostGate (s : State) (r : MemReq) (g : Agent) : Option State :=
  if r.scope < 8 ∨ (g.rel.isNone ∧ !g.zero) then none else s.flushGate r.id (g.postedBefore (s.before g))

/-- May a translated request perform now, but for a PCIe read that it waits for? At scope 9 what it carries has performed at both mirrors
(R80, R384). -/
def State.mayGo (s : State) (r : MemReq) (x : List Xlat) : Bool :=
  let l := r.pieces x
  s.mayPerform r && !(l.any s.mustWait) && !s.dstWaits r l && !s.headgateWaits r l &&
  !(match r.ins with | .wsld _ => s.mem.refreshing r.vd.toNat | _ => false) &&
  (r.scope != 9 || s.durable fun q => (s.before (s.releaseAgent r l)).contains q)

/-! ### Twin exits of requests (R316) -/

/-- Does a write leave the region of its copy? -/
def State.leavesRegion (s : State) (r : MemReq) (l : List Piece) : Bool :=
  r.ins.writes && r.ins.isAccess &&
  l.any fun p =>
    let q := s.local? p
    !(q.typ == 2 && p.typ != 4 &&
      match s.slot? r.who.site r.who.ctx with
      | some k => k.covers r.who.site (s.landingBank q.pa).1
      | none => false)

/-- The address, mask and data of a write, as its digest shows them. -/
def State.exitDigest (s : State) (r : MemReq) (pos : Nat) : Nat :=
  let tile (w : Word) : List Byte := let d := Desc.of w; s.mem.bytes d.base d.size
  let data : List Byte :=
    match r.ins with
    | .st _ | .dst _ => toBytes r.vd.toNat r.ins.unitBytes
    | .atom .. => toBytes r.vd.toNat 8 ++ toBytes r.vb.toNat 8
    | .sct _ => tile r.vd ++ r.live.flatMap fun p => toBytes p.2 8
    | .vatom fn _ => tile r.vd ++ (if fn = .cas then tile r.vc else []) ++ r.live.flatMap fun p => toBytes p.2 8
    | _ => tile r.vd
  let mask := match r.ins with
    | .st _ | .dst _ | .atom .. => b2n r.psn
    | _ => (s.tilePoison (Desc.of r.vd) ||| (if r.psn then BitVec.allOnes 64 else 0)).toNat
  twinDigest pos (r.ins.alc.getD 0) r.ea mask data r.who.itn.toNat

/-- What a twin's write does at its port: it goes on, it waits, or it becomes an exit. -/
def State.twinGate (s : State) (r : MemReq) (l : List Piece) : Option State :=
  if s.pager.twinOk.contains r.id then none
  else if s.pager.twinPairs.any (fun p => p.2 == r.id) ||
      s.pager.twins.any (fun t => match t.what with | .req id => id == r.id | .token _ => false) then some s
  else
    match s.twinAt r.who.site r.who.ctx with
    | none => none
    | some (h, copy, pos) =>
      if s.leavesRegion r l then some (s.twinExit h copy pos (r.ins.alc.getD 0) (s.exitDigest r pos) (.req r.id)) else none

/-! ### An access performs -/

/-- A request's own writes have performed at its scope: at scope 8 and 9 a PCIe read has followed those to host memory, and at scope 9 both
mirrors have acknowledged those to the cellar (R75, R80, R388). None then; else the state in which that is waited for. -/
def State.ownWaits (s : State) (r : MemReq) : Option State :=
  if r.scope < 8 then none
  else
    match s.flushGate r.id fun p => p.who.seq == r.id with
    | some s => some s
    | none => if r.scope = 9 ∧ !s.durable (· == r.id) then some s else none

/-- A performed request answers, once its own writes have performed at its scope. -/
def State.answerReq (s : State) (r : MemReq) (x : List Xlat) (v : Word) (psn : Bool) : State :=
  match s.ownWaits r with
  | some s => s.setReq { r with phase := .remote x, answer := some (v, psn, []) }
  | none => s.finishReq r v psn []

/-- What an access leaves when it has performed: a release carries its set to its scope (R77), a class 0 access the earlier ones of its
context (R72), what it precedes follows it (R84), and an acquire synchronises (R78). -/
def State.settleOrder (s : State) (r : MemReq) (g : Agent) : State :=
  let s := match g.rel with | some rs => s.carry rs g.obs | none => s
  let s := (if g.zero then s.widenOwn g else s).noteAfter g
  if r.ins.ordOf.acquires then s.synchronise g else s

/-- A request's access and its end. -/
def State.complete (s : State) (r : MemReq) (x : List Xlat) : State :=
  let g := s.releaseAgent r (r.pieces x)
  let (p, waits) := s.perform r x g (s.ownStores r)
  match p with
  | .more s => s
  | .fail code detail va s => s.failReq r code detail va
  | .ok v psn s =>
    let s := s.settleOrder r g
    if waits then s.setReq { r with phase := .remote x } else s.answerReq r x v psn

/-- Reads of host memory leave, and their completion is awaited (R413). -/
def State.askHost (s : State) (r : MemReq) (x : List Xlat) (l : List Piece) : State :=
  let ask := (l.filter fun p => (s.local? p).typ == 3).map fun p => OutMsg.hostRead r.id (s.hostAddr p.pa) p.len
  { s with out := s.out ++ ask }.setReq { r with phase := .remote x, since := s.clk }

/-- The write that alone may reach a headgate: a tile of one row of 32 B, aligned (R223). -/
def MemReq.isRecord (r : MemReq) (l : List Piece) : Bool :=
  match r.ins with
  | .stt _ => (r.ranges.map (·.2)) == [32] && l.all fun p => p.pa % 32 == 0
  | _ => false

/-- A translated access whose turn it is: refused, handed to the twin comparator, sent to the host, or performed. A `vatom` under way has
passed its checks. -/
def State.performAccess (s : State) (r : MemReq) (x : List Xlat) : State :=
  let l := r.pieces x
  let k := accKind r.ins
  if r.vat.isSome then s.complete r x
  else
    match l.findSome? fun p => (s.checkPiece k (opcOf r.ins) (r.isRecord l) p).map fun f => (p, f) with
    | some (p, f) => (s.podMet ((l.filter s.away).map (·.dev))).failPiece r p f
    | none =>
      match (match r.ins with | .put _ | .get _ => l | _ => []) with
      | p :: _ :: _ => s.failReq r 0x0307 (wrongDetail s p.typ (opcOf r.ins)) p.va
      | _ =>
        match s.twinGate r l with
        | some s => s
        | none => if k = .read && l.any (fun p => (s.local? p).typ == 3) then s.askHost r x l else s.complete r x

/-! ### Requests without data -/

/-- `migr` begins (R232, R247). -/
def State.beginMigr (s : State) (r : MemReq) : State :=
  let asid := r.vd.toNat % 2 ^ 12
  let va := r.va.toNat
  let new := r.vb.toNat
  let fail (s : State) (typ : Nat) : State := s.failReq r 0x0307 (wrongDetail s typ (opcOf r.ins)) va
  if va % 2 ^ 21 ≠ 0 ∨ new % 2 ^ 21 ≠ 0 ∨ 2 ^ 56 ≤ va ∨ paTarget new ≠ .hbm ∨ inCellarRange s.rcv new ∨ (s.binding? asid).isNone then
    fail s (typeOfPa new)
  else
    let (e, s) := s.walk r.who.site asid va
    match e with
    | .leaf x =>
      if x.typ ≠ 0 ∨ inCellarRange s.rcv (x.frame * 2 ^ 21) ∨ s.migrating asid (va / 2 ^ 21) ∨
          s.pager.migs.any (fun m => m.old == x.frame && !m.fwd) then fail s x.typ
      else
        let m : Migration := { asid := asid, va := va, old := x.frame, new := new / 2 ^ 21, p := 0, req := r.id, fwd := false }
        { s with pager := { s.pager with migs := s.pager.migs ++ [m] } }.setReq { r with phase := .remote [] }
    | _ => fail s 8

/-- `inv`: repatch once, then wait for the requests that still hold an old translation (R90, R218). -/
def State.performInv (s : State) (r : MemReq) (m : MF) : State :=
  let asid := r.vd.toNat % 2 ^ 12
  let lo := r.va.toNat / 2 ^ 21
  let hi := (r.va.toNat + r.vb.toNat - 1) / 2 ^ 21
  if r.vb = 0 then s.bumpFree.finishReq r (Config.openPayload s.free) false []
  else
    let first : Bool := match r.phase with | .ready _ => true | _ => false
    let s := if first then ((s.invPatch asid lo hi (m.md.getLsbD 0)).setReq { r with phase := .remote [] }).refreshBusy else s
    if s.oldTranslation asid lo hi then s else s.bumpFree.finishReq r (Config.openPayload s.free) false []

/-- What a fence covers has performed at its scope: at 8 and 9 behind a PCIe read, at 9 at both mirrors (R75, R80, R81). None then. -/
def State.fenceWaits (s : State) (f : FenceRec) : Option State :=
  if f.obs.scope < 8 then none
  else
    match s.flushGate f.seq f.coversPosted with
    | some s => some s
    | none =>
      if f.obs.scope = 9 ∧ !s.durable (fun q => s.mem.recs.any fun w => w.who.seq == q && f.coversWrite w) then some s else none

/-- A fence performs, and its completion leaves (R81). -/
def State.endFence (s : State) (f : FenceRec) (psn : Bool) : State :=
  let s := s.fencePerform f
  match f.req.bind fun id => s.reqs.find? (·.id == id) with
  | some r => s.bumpFree.finishReq r (Config.openPayload s.free) psn []
  | none => s

/-- A fence whose covered accesses have all performed (R81). -/
def State.performFence (s : State) (f : FenceRec) : State :=
  if !s.fenceReady f then s
  else
    match s.fenceWaits f with
    | some s => s
    | none => s.endFence f false

/-- The request or fence with a commit number performs if it may, or answers. -/
def State.performId (s : State) (id : Nat) : State :=
  match s.fences.find? (·.seq == id) with
  | some f => s.performFence f
  | none =>
    match s.reqs.find? (·.id == id) with
    | none => s
    | some r =>
      match r.ins, r.phase, r.answer with
      | _, .remote x, some a => s.answerReq r x a.1 a.2.1
      | .inv m, .ready _, _ | .inv m, .remote _, _ => s.performInv r m
      | _, .ready x, _ =>
        if s.staleGen r then s
        else
          match r.ins with
          | .sclose m => (s.closeStream r m.md.toNat).getD s
          | .mldw _ => s
          | .migr _ => s.beginMigr r
          | .gbump _ =>
            let asid := r.vd.toNat % 2 ^ 12
            let s := s.bumpGen asid
            s.finishReq r (BitVec.ofNat 64 (s.gen asid).toNat) false []
          | _ =>
            if !s.mayGo r x then s
            else
              match s.hostGate r (s.releaseAgent r (r.pieces x)) with
              | some s => s
              | none => s.performAccess r x
      | _, _, _ => s

def State.isDst (s : State) (id : Nat) : Bool :=
  s.reqs.any fun r => r.id == id && (match r.ins with | .dst _ => true | _ => false)

/-- MEM_ACCESS_PERFORM: the access, or the fence, with this commit number (R67). -/
def execMemAccessPerform (id : Nat) (s : State) : Out := .next (if s.isDst id then s else s.performId id)

/-- CELLAR_LINE_WRITE: the lines of the `dst` with this commit number (R388). -/
def execCellarLineWrite (id : Nat) (s : State) : Out := .next (if s.isDst id then s.performId id else s)

/-! ### The host's answers (R413) -/

/-- The pieces of a request that the host has been asked for. -/
def State.hostPieces (s : State) (r : MemReq) (x : List Xlat) : List Piece := (r.pieces x).filter fun p => (s.local? p).typ == 3

/-- The host does not give the data: the request fails with the link code at its own VA, and context 7 is told why (R222, R413). -/
def State.hostFail (s : State) (r : MemReq) (why : Nat) : State :=
  (s.linkFault r.who.site 0x0907 why).failReq r 0x030B (peerDetail 0x0907) r.ea

/-- The host's data arrive. -/
def State.hostData (s : State) (l : List Piece) (data : List Byte) : State :=
  match l with
  | [] => s
  | p :: r => { s with mem := s.mem.setHost (s.hostAddr p.pa) (slice data 0 p.len) }.hostData r (data.drop p.len)

/-- The PCIe read that request, fence or record `id` waits for does not complete as it should (log entry 113): a request fails like a read of
host memory, a fence completes poisoned, and for anything else the read is issued again. -/
def State.flushFail (s : State) (id why : Nat) : State :=
  let s := { s with mem := { s.mem with flushes := s.mem.flushes.filter fun x => x.1 != id } }
  match s.fences.find? (·.seq == id) with
  | some f => (s.linkFault f.site 0x0907 why).endFence f true
  | none =>
    match s.reqs.find? (·.id == id) with
    | some r => s.hostFail r why
    | none => s.linkFault coordSite 0x0907 why

/-- A PCIe read for this number is under way behind posted writes (R75). -/
def State.flushing (s : State) (id : Nat) : Bool := s.mem.flushes.any fun x => x.1 == id

/-- HOST_COMPLETION: the host answers a read: code 0 with data, 1 Unsupported Request, 2 Completer Abort. -/
def execHostCompletion (id code : Nat) (data : List Byte) (s : State) : Out :=
  if s.flushing id then .next (if code = 0 then s.flushDone id else if code ≤ 2 then s.flushFail id code else s)
  else
    match s.reqs.find? (·.id == id) with
    | none => .next s
    | some r =>
      match r.phase with
      | .remote x =>
        let l := s.hostPieces r x
        if l.isEmpty || r.answer.isSome then .next s
        else if code = 0 then .next ((s.hostData l data).complete r x)
        else if code ≤ 2 then .next (s.hostFail r code)
        else .next s
      | _ => .next s

/-- HOST_COMPLETION_TIMEOUT: no completion within 50 µs. -/
def execHostCompletionTimeout (id : Nat) (s : State) : Out :=
  if s.flushing id then
    .next (if s.mem.flushes.any fun x => x.1 == id && decide (x.2.2 + 70000 ≤ s.clk) then s.flushFail id 3 else s)
  else
    match s.reqs.find? (·.id == id) with
    | none => .next s
    | some r =>
      match r.phase with
      | .remote x =>
        let l := s.hostPieces r x
        if l.isEmpty ∨ r.answer.isSome ∨ s.clk < r.since + 70000 then .next s else .next (s.hostFail r 3)
      | _ => .next s

/-! ### Refresh of the weight store (R213) -/

/-- The start of a bank's next window, in the %clk of its die. -/
def State.nextWindow (s : State) (die bank : Nat) : Nat := Tbl.getD s.mem.wsNext (die * 16 + bank) (1400 * bank)

/-- WS_REFRESH_START: a bank's window begins at its time. -/
def execWsRefreshStart (die bank : Nat) (s : State) : Out :=
  let k := die * 16 + bank
  if 8 ≤ die ∨ 16 ≤ bank ∨ s.mem.refresh.contains k ∨ s.clkAt (die * 256) < s.nextWindow die bank then .next s
  else
    .next { s with mem := { s.mem with
      refresh := s.mem.refresh ++ [k], wsNext := Tbl.set s.mem.wsNext k (s.nextWindow die bank + 22400) } }

/-- WS_REFRESH_END: 168 clk later it ends. -/
def execWsRefreshEnd (die bank : Nat) (s : State) : Out :=
  let k := die * 16 + bank
  if !s.mem.refresh.contains k ∨ s.clkAt (die * 256) + 22400 < s.nextWindow die bank + 168 then .next s
  else .next { s with mem := { s.mem with refresh := s.mem.refresh.filter (· ≠ k) } }

end Sys2Proof.Machine
end

