-- ==== Sys2Proof/Machine/Inbound.lean ====
section
/-! DEFINITION. Requests from peers and from the host (R87, R222, R223, R297, R407, R409 to R413): their order, the windows, and their
accesses on the LNK path. -/
namespace Sys2Proof.Machine

/-! ### Order (R407, R412) -/

/-- The class whose order a request keeps: 0 none, 1 STORE, 2 SEED, 3 SYS; every posted write of the host is of one class. -/
def inCls (r : Inbound) : Nat :=
  match r.kind with
  | .read .. => 0
  | .link .. => 3
  | .write .. => if r.src.isSome && paTarget r.pa == .headgate then 2 else 1
  | .atomic .. => 1

/-- Must a request wait behind this earlier one? -/
def inBehind (r q : Inbound) : Bool := q.src == r.src && (inCls r) != 0 && (inCls q) == (inCls r)

def inBytes (r : Inbound) : Nat :=
  match r.kind with
  | .read _ n => n
  | .write _ l => l.length
  | .atomic _ n _ _ => n
  | .link .. => 0

/-- The I/O die at which a request arrives. -/
def inDie (r : Inbound) : Nat := match r.src with | none => 0 | some _ => r.port / 9

/-- What the request asks of its target (R223). -/
def inKind (r : Inbound) : AccKind :=
  match r.kind with
  | .read get _ => if get then .copyRead else .read
  | .write .store _ => .write
  | .write .put _ => .copyWrite
  | .write .dst _ => .dst
  | .atomic .. => .atomic
  | .link .. => .read

/-- Its parts within one 2 MiB frame each. -/
def inParts (r : Inbound) : List Piece :=
  (cut (2 ^ 21) r.pa (inBytes r)).map fun p => { va := p.1, typ := typeOfPa p.1, dev := 0, pa := p.1, len := p.2 }

/-! ### Answers -/

/-- An answer to a peer; to the host only for a read, with a completion status: posted writes have none. -/
def State.answer (s : State) (r : Inbound) (code : Nat) (data : List Byte) : State :=
  let posted : Bool := match r.kind with | .write .. => true | _ => false
  if r.src.isNone && posted then s
  else
    match r.src with
    | some d => s.sendPod d 3 (.answer r.src r.tag code data)
    | none => { s with out := s.out ++ [.answer none r.tag (if code = 0 then 0 else 1) data] }

/-- One STORE more has performed, or will not (R88). -/
def State.storeDone (s : State) (r : Inbound) : State :=
  if (inCls r) = 1 then
    s.modLink fun l => let k := (match r.src with | some d => d + 1 | none => 0); { l with stores := Tbl.set l.stores k (Tbl.getD l.stores k 0 + 1) }
  else s

/-- A request that no window accepts (R409). -/
def State.refuseInbound (s : State) (r : Inbound) : State :=
  ((s.linkFault (linkSite (inDie r)) 0x0904 (r.pa % 2 ^ 48 + r.src.getD 0xFFF % 2 ^ 12 * 2 ^ 48)).answer r 0x0904 []).storeDone r

/-! ### Accepting (R409, R441) -/

/-- The context for which a part acts, when it is accepted. While the boot window is open it alone serves the host. -/
def State.acceptPart (s : State) (r : Inbound) (p : Piece) : Option Nat :=
  if r.src.isNone && s.pkg.bootWin then (if p.pa + p.len ≤ 0x10000000 then some 7 else none)
  else s.inboundCtx r.src (inKind r) p.pa

/-! ### Accesses -/

def State.inboundAgent (s : State) (r : Inbound) (ctx : Nat) (seq : Nat) : Agent :=
  { path := 7, site := linkSite (inDie r), ctx := ctx, asid := s.asidOf (linkSite (inDie r)) ctx, seq := seq,
    obs := deviceWide (linkSite (inDie r)) }

/-- Write a part: the state, and the code of its failure. -/
def State.inboundWrite (s : State) (g : Agent) (how : InboundWrite) (ctx : Nat) (p : Piece) (b : List Byte) : State × Nat :=
  match how, p.typ with
  | .dst, _ =>
    match s.dstLines g (cellarParts p b) with
    | (s, none) => (s, 0)
    | (s, some _) => (s, 0x0802)
  | _, 2 =>
    match s.writeLanding g ctx p b with
    | (s, none) => (s, 0)
    | (s, some f) => (s, f.2.1)
  | _, _ => (s.writePiece g p b, 0)

def State.inboundWrites (s : State) (r : Inbound) (how : InboundWrite) (q : Nat) (l : List (Piece × Nat)) (b : List Byte) : State × Nat :=
  match l with
  | [] => (s, 0)
  | (p, ctx) :: rest =>
    let (s, code) := s.inboundWrite (s.inboundAgent r ctx q) how ctx p (b.take p.len)
    let (s, next) := s.inboundWrites r how q rest (b.drop p.len)
    (s, if code = 0 then next else code)

/-- The word that stands for an inbound atomic where only its form matters. -/
def inboundAtom (fn : AtomFn) (n : Nat) : Instr :=
  .atom fn { g := { pg := 0, pn := false }, d := 0, a := 0, b := 0, alc := 0, scp := 0, ord := .plain, md := if n = 8 then 16 else 0, tix := 0,
             off := 0 }

/-- An accepted request performs and is answered; an uncorrectable read is answered with 0x030E and its bytes. -/
def State.inboundPerform (s : State) (r : Inbound) (l : List (Piece × Nat)) : State :=
  let (q, s) := s.takeSeq
  let ps := l.map (·.1)
  match r.kind with
  | .read .. =>
    if s.hostFails ps ≠ 0 then (s.linkFault (linkSite (inDie r)) 0x0907 (s.hostFails ps)).bumpFree.answer r 0x0907 []
    else
      let (b, s) := (s.hostAnswers ps).readPieces (s.inboundAgent r 7 q) ps
      s.bumpFree.answer r (if b.bad.isEmpty then 0 else 0x030E) b.bytes
  | .write how data =>
    let (s, code) := s.inboundWrites r how q l data
    (s.answer r code []).storeDone r
  | .atomic fn n x c =>
    match l with
    | [(p, ctx)] =>
      let (old, bad, reject, s) := s.atomicAt 0 (inboundAtom fn n) (s.inboundAgent r ctx q) fn n x.toNat c.toNat true p
      match reject with
      | some f => (s.answer r f.1 []).storeDone r
      | none => (s.answer r (if bad then 0x030E else 0) (toBytes old n)).storeDone r
    | _ => (s.answer r 0x0304 []).storeDone r
  | .link .. => s

/-- A request through the windows: none while it must wait. -/
def State.throughWindows (s : State) (r : Inbound) : Option State :=
  let ps := (inParts r)
  let l := ps.filterMap fun p => (s.acceptPart r p).map fun c => (p, c)
  if l.length ≠ ps.length ∨ ps.isEmpty then some (s.refuseInbound r)
  else
    match ps.findSome? fun p => if p.typ = 8 then some (0x0307, 0) else pieceFail s (inKind r) 0 p with
    | some f => some ((s.answer r f.1 []).storeDone r)
    | none =>
      let logs : Bool := match r.kind with
        | .write .dst _ =>
          let a := s.dstLinesOf ps
          a.any (fun x => s.rcv.logs x) && !(logRegions s.rcv (s.rcv.nent + a.length)).all (regionWhole s.rcv)
        | _ => false
      if ps.any s.mustWait || logs then none else some (s.inboundPerform r l)

/-! ### The headgate, the registers and link tokens (R297, R410, R412) -/

/-- A write of the headgate: none while the die takes no more records (R411). -/
def State.throughHeadgate (s : State) (r : Inbound) : Option State :=
  match r.kind with
  | .write _ data =>
    if s.headFull (inDie r) then none
    else
      some (s.headPut (inDie r)
        { src := r.src, off := r.pa % 2 ^ 20, data := data, need := r.earlier, req := none, tag := r.tag, deps := [] })
  | _ => some (s.answer r 0x0307 [])

/-- BAR0: register blocks; above them it reads zero and ignores writes. -/
def State.throughBar0 (s : State) (r : Inbound) : State :=
  let here := paTarget r.pa == .regs && paTarget (r.pa + (inBytes r) - 1) == .regs
  match r.kind with
  | .read _ n => s.answer r 0 (if here then s.blockBytes r.pa n else List.replicate n 0)
  | .write _ data => if here then s.blockWrite r.pa data else s
  | _ => s.answer r 1 []

/-- A link token of a peer (R297): none while its launch cannot take it. -/
def State.takeLink (s : State) (r : Inbound) (h asid : Nat) (hdr payload : Word) : Option State :=
  let t := Token.ofWords hdr payload
  match s.launch? h with
  | none => some (s.answer r 0x050B [])
  | some l =>
    if l.asid ≠ asid ∨ l.w ≤ t.dx.toNat ∨ l.h ≤ t.dy.toNat then some (s.answer r 0x050B [])
    else
      s.acceptLink h l
        { tok := t, src := linkSite (inDie r), dst := 0, vn := vnetOf t.cls, org := engineOrigin, deps := [], asid := l.asid, gen := 0,
          step := false }

/-- A request of the host. BAR0 is there even while a device reset wipes the memories (R440); a full headgate stops every posted write
(R411); through BAR4 the headgate needs no window, but while the boot window is open (R409). None while it must wait. -/
def State.hostTry (s : State) (r : Inbound) : Option State :=
  let wipes := s.pkg.wiping.contains 8
  let posted : Bool := match r.kind with | .write .. => true | _ => false
  if (wipes && r.port != 0) || (posted && s.headFull 0) then none
  else
    match r.kind with
    | .link .. => some s
    | .atomic .. => some (s.answer r 1 [])
    | _ =>
      if r.port = 0 then some (s.throughBar0 r)
      else if r.port = 2 then s.throughHeadgate r
      else if r.port = 4 then (if paTarget r.pa = .headgate && !s.pkg.bootWin then s.throughHeadgate r else s.throughWindows r)
      else some s

/-- What a request does when its turn has come: none while it must wait. -/
def State.inboundTry (s : State) (r : Inbound) : Option State :=
  match r.src with
  | none => s.hostTry r
  | some _ =>
    if s.pkg.wiping.contains (8 + inDie r) then none
    else
      match r.kind with
      | .link h asid hdr payload => s.takeLink r h asid hdr payload
      | _ => if paTarget r.pa = .headgate then s.throughHeadgate r else s.throughWindows r

/-- The port of a peer's request is up; the host's, unless I/O die 0 alone is in reset (R438, R440). -/
def State.arrives (s : State) (r : Inbound) : Bool :=
  match r.src with
  | none => s.pkg.boot == .wiping || !s.pkg.wiping.contains 8
  | some _ => (s.link.ports.getD r.port PortState.reset).up

/-- The class of a message of a peer (R407). -/
def podClassOf (r : Inbound) : Nat :=
  match r.kind with
  | .read .. => 2
  | .link .. => 5
  | .write .. => podClass .write r.pa
  | .atomic .. => 1

/-- A peer's message has come before: it is discarded (R404). -/
def State.isDuplicate (s : State) (r : Inbound) : Bool :=
  match r.src with
  | none => false
  | some d => (Tbl.getD s.link.seenNum (d * 8 + podClassOf r) []).contains r.num

/-- The sequence number of a peer's message is noted. -/
def State.noteSeen (s : State) (r : Inbound) : State :=
  match r.src with
  | none => s
  | some d =>
    let k := d * 8 + podClassOf r
    s.modLink fun l => { l with seenNum := Tbl.set l.seenNum k (Tbl.getD l.seenNum k [] ++ [r.num]) }

/-- A request that has arrived is carried out, or waits behind an earlier one or for its target. -/
def State.inboundStep (s : State) (r : Inbound) (before : List Inbound) : Option State :=
  if before.any (inBehind r) then none else s.inboundTry r

/-- INBOUND_REQUEST: a request arrives, or one that waits tries again. -/
def execInboundRequest (r : Inbound) (s : State) : Out :=
  match s.link.inbound.findIdx? (· == r) with
  | some i =>
    .next (((s.inboundStep r (s.link.inbound.take i)).map fun s =>
      s.modLink fun l => { l with inbound := l.inbound.filter fun q => q != r }).getD s)
  | none =>
    if !s.arrives r || s.isDuplicate r then .next s
    else
      let s := s.noteSeen r
      .next ((s.inboundStep r s.link.inbound).getD (s.modLink fun l => { l with inbound := l.inbound ++ [r] }))

end Sys2Proof.Machine
end

