-- ==== Sys2Proof/Machine/SysIssue.lean ====
section
/-! DEFINITION. Group 6 at issue: operand checks of the five system engines (R321, R352, R375, R398, R433), and the request as an
effect of the activation. -/
namespace Sys2Proof.Machine

/-- A trap that shows a register value. -/
def valueTrap (code : Nat) (v : Word) : Trap := { code := code, detail := v }

/-- A VA operand: below 2^56, and aligned to `k` bytes (R352, R375). -/
def vaTrap (k : Nat) (v : Word) : Option Trap :=
  if 2 ^ 56 ≤ v.toNat then some { code := 0x0305, detail := v, va := v.toNat }
  else if v.toNat % k ≠ 0 then some { code := 0x0304, detail := v, va := v.toNat }
  else none

/-- A register that must hold zero above bit `k`. -/
def widthTrap (code k : Nat) (v : Word) : Option Trap := if 2 ^ k ≤ v.toNat then some (valueTrap code v) else none

/-- A register that must lie between two bounds. -/
def rangeTrap (code lo hi : Nat) (v : Word) : Option Trap :=
  if lo ≤ v.toNat ∧ v.toNat ≤ hi then none else some (valueTrap code v)

/-- R321: a handle register names the issuing ASID, unless context 7 issues, and its high half is zero. -/
def handleTrap (asid c : Nat) (w h : Word) : Option Trap :=
  if c ≠ 7 ∧ wbits h 20 12 ≠ asid then some (privilege w) else widthTrap 0x050D 32 h

/-- The operand checks of a group 6 word, in the order in which its rule states them. -/
def sysCheck (asid : Nat) (i : Instr) (t : Activation) : Option Trap :=
  let w := encode i
  match i with
  | .pplace _ x | .pevictVacate x | .pevictKill x | .pevictContain x | .rmarkCut x | .rmarkFreeze x | .rmarkResume x
  | .qryState x | .qryQuiet x | .lnch _ x | .twinOn x | .twinOff x => handleTrap asid t.ctx w (t.reg x.d)
  | .cgrpMake x =>
    (widthTrap 0x060A 16 (t.reg x.d)).or ((vaTrap 8 (t.reg x.a)).or (rangeTrap 0x060A 2 4096 (t.reg x.b)))
  | .cred _ x => (widthTrap 0x060A 16 (t.reg x.d)).or (vaTrap 64 (t.reg x.a))
  | .cgrpDrop x | .cstat _ x | .ccan x => widthTrap 0x060A 16 (t.reg x.d)
  | .xcntAdd x => (widthTrap 0x070A 16 (t.reg x.d)).or (widthTrap 0x070A 32 (t.reg x.a))
  | .xcntArr x | .xdspArr x => (vaTrap 4 (t.reg x.a)).or (rangeTrap 0x070A 1 65536 (t.reg x.b))
  | .xcntHist x | .xcntTake x => vaTrap 4 (t.reg x.a)
  | .xdspOne x => (widthTrap 0x070A 16 (t.reg x.d)).or (widthTrap 0x070A 16 (t.reg x.b))
  | .xverWait x => widthTrap 0x070A 16 (t.reg x.a)
  | .xverResize x | .xmrg x | .xrep x => vaTrap 64 (t.reg x.a)
  | .xretDrain x | .xretFree x => widthTrap 0x070A 10 (t.reg x.d)
  | .rpnt x => rangeTrap 0x0808 1 (2 ^ 32 - 1) (t.reg x.a)
  | .rseal x =>
    (widthTrap 0x0808 32 (t.reg x.d)).or ((widthTrap 0x0808 16 (t.reg x.b)).or
      (if t.ctx ≠ 7 ∧ t.reg x.d ≠ 0 ∧ wbits (t.reg x.d) 20 12 ≠ asid then some (privilege w) else none))
  | .rrdpCheck x => widthTrap 0x0808 32 (t.reg x.a)
  | .omrkWalk x =>
    let depth := x.hi.toNat % 128
    if 1 ≤ depth ∧ depth ≤ 64 then none else some (valueTrap 0x0A05 (BitVec.ofNat 64 (wbits w 0 32)))
  | .octrRead x | .octrTotal x =>
    (widthTrap 0x0A05 18 (t.reg x.a)).or (if 2080 ≤ wbits (t.reg x.a) 0 12 then some (valueTrap 0x0A05 (t.reg x.a)) else none)
  | .oinjArm x => rangeTrap 0x0A05 1 3 (t.reg x.a)
  | .ostpArm x => widthTrap 0x0A05 32 (t.reg x.d)
  | _ => none

/-- A group 6 word at issue: its checks, its reply target, then the request as an effect. `xcnt.add` with A = s0 adds 1 (R375). -/
def sysBody (i : Instr) (x : SF) : Body := fun s n t =>
  match sysCheck (s.asidOf n t.ctx) i t with
  | some e => .error e
  | none =>
    match replyOf s n t (encode i) x.rt with
    | .error e => .error e
    | .ok r =>
      let va : Word := match i with | .xcntAdd x => if x.a = 0 then 1 else t.reg x.a | _ => t.reg x.a
      .ok (s, t.push (.sys i (encode i) (t.reg x.d) va (t.reg x.b) r))

/-- `pplace` at issue (R322). -/
def execPplace (now : Bool) (x : SF) (s : State) : Out := run (.pplace now x) (sysBody (.pplace now x) x) s

/-- `pevict.vacate` at issue (R323). -/
def execPevictVacate (x : SF) (s : State) : Out := run (.pevictVacate x) (sysBody (.pevictVacate x) x) s

/-- `pevict.kill` at issue (R323). -/
def execPevictKill (x : SF) (s : State) : Out := run (.pevictKill x) (sysBody (.pevictKill x) x) s

/-- `pevict.contain` at issue (R323). -/
def execPevictContain (x : SF) (s : State) : Out := run (.pevictContain x) (sysBody (.pevictContain x) x) s

/-- `rmark.cut` at issue (R324). -/
def execRmarkCut (x : SF) (s : State) : Out := run (.rmarkCut x) (sysBody (.rmarkCut x) x) s

/-- `rmark.freeze` at issue (R324). -/
def execRmarkFreeze (x : SF) (s : State) : Out := run (.rmarkFreeze x) (sysBody (.rmarkFreeze x) x) s

/-- `rmark.resume` at issue (R324). -/
def execRmarkResume (x : SF) (s : State) : Out := run (.rmarkResume x) (sysBody (.rmarkResume x) x) s

/-- `qry.state` at issue (R325). -/
def execQryState (x : SF) (s : State) : Out := run (.qryState x) (sysBody (.qryState x) x) s

/-- `qry.quiet` at issue (R325). -/
def execQryQuiet (x : SF) (s : State) : Out := run (.qryQuiet x) (sysBody (.qryQuiet x) x) s

/-- `qry.power` at issue (R325). -/
def execQryPower (x : SF) (s : State) : Out := run (.qryPower x) (sysBody (.qryPower x) x) s

/-- `lnch` at issue (R326). -/
def execLnch (ctl : Bool) (x : SF) (s : State) : Out := run (.lnch ctl x) (sysBody (.lnch ctl x) x) s

/-- `pclaim.claim` at issue (R327). -/
def execPclaimClaim (x : SF) (s : State) : Out := run (.pclaimClaim x) (sysBody (.pclaimClaim x) x) s

/-- `pclaim.release` at issue (R327). -/
def execPclaimRelease (x : SF) (s : State) : Out := run (.pclaimRelease x) (sysBody (.pclaimRelease x) x) s

/-- `twin.on` at issue (R328). -/
def execTwinOn (x : SF) (s : State) : Out := run (.twinOn x) (sysBody (.twinOn x) x) s

/-- `twin.off` at issue (R328). -/
def execTwinOff (x : SF) (s : State) : Out := run (.twinOff x) (sysBody (.twinOff x) x) s

/-- `cgrp.make` at issue (R352). -/
def execCgrpMake (x : SF) (s : State) : Out := run (.cgrpMake x) (sysBody (.cgrpMake x) x) s

/-- `cgrp.drop` at issue (R352). -/
def execCgrpDrop (x : SF) (s : State) : Out := run (.cgrpDrop x) (sysBody (.cgrpDrop x) x) s

/-- `cred` at issue (R353). -/
def execCred (fn : BitVec 2) (x : SF) (s : State) : Out := run (.cred fn x) (sysBody (.cred fn x) x) s

/-- `cstat` at issue (R354). -/
def execCstat (prog : Bool) (x : SF) (s : State) : Out := run (.cstat prog x) (sysBody (.cstat prog x) x) s

/-- `ccan` at issue (R355). -/
def execCcan (x : SF) (s : State) : Out := run (.ccan x) (sysBody (.ccan x) x) s

/-- `xcnt.add` at issue (R376). -/
def execXcntAdd (x : SF) (s : State) : Out := run (.xcntAdd x) (sysBody (.xcntAdd x) x) s

/-- `xcnt.arr` at issue (R376). -/
def execXcntArr (x : SF) (s : State) : Out := run (.xcntArr x) (sysBody (.xcntArr x) x) s

/-- `xcnt.hist` at issue (R376). -/
def execXcntHist (x : SF) (s : State) : Out := run (.xcntHist x) (sysBody (.xcntHist x) x) s

/-- `xcnt.take` at issue (R376). -/
def execXcntTake (x : SF) (s : State) : Out := run (.xcntTake x) (sysBody (.xcntTake x) x) s

/-- `xdsp.one` at issue (R377). -/
def execXdspOne (x : SF) (s : State) : Out := run (.xdspOne x) (sysBody (.xdspOne x) x) s

/-- `xdsp.arr` at issue (R377). -/
def execXdspArr (x : SF) (s : State) : Out := run (.xdspArr x) (sysBody (.xdspArr x) x) s

/-- `xdsp.flush` at issue (R377). -/
def execXdspFlush (x : SF) (s : State) : Out := run (.xdspFlush x) (sysBody (.xdspFlush x) x) s

/-- `xver.get` at issue (R378). -/
def execXverGet (x : SF) (s : State) : Out := run (.xverGet x) (sysBody (.xverGet x) x) s

/-- `xver.wait` at issue (R378). -/
def execXverWait (x : SF) (s : State) : Out := run (.xverWait x) (sysBody (.xverWait x) x) s

/-- `xver.resize` at issue (R378). -/
def execXverResize (x : SF) (s : State) : Out := run (.xverResize x) (sysBody (.xverResize x) x) s

/-- `xmrg` at issue (R379). -/
def execXmrg (x : SF) (s : State) : Out := run (.xmrg x) (sysBody (.xmrg x) x) s

/-- `xrep` at issue (R380). -/
def execXrep (x : SF) (s : State) : Out := run (.xrep x) (sysBody (.xrep x) x) s

/-- `xret.drain` at issue (R381). -/
def execXretDrain (x : SF) (s : State) : Out := run (.xretDrain x) (sysBody (.xretDrain x) x) s

/-- `xret.free` at issue (R381). -/
def execXretFree (x : SF) (s : State) : Out := run (.xretFree x) (sysBody (.xretFree x) x) s

/-- `rpnt` at issue (R399). -/
def execRpnt (x : SF) (s : State) : Out := run (.rpnt x) (sysBody (.rpnt x) x) s

/-- `rseal` at issue (R400). -/
def execRseal (x : SF) (s : State) : Out := run (.rseal x) (sysBody (.rseal x) x) s

/-- `rrdp.stat` at issue (R401). -/
def execRrdpStat (x : SF) (s : State) : Out := run (.rrdpStat x) (sysBody (.rrdpStat x) x) s

/-- `rrdp.check` at issue (R401). -/
def execRrdpCheck (x : SF) (s : State) : Out := run (.rrdpCheck x) (sysBody (.rrdpCheck x) x) s

/-- `rbak` at issue (R402). -/
def execRbak (x : SF) (s : State) : Out := run (.rbak x) (sysBody (.rbak x) x) s

/-- `omrk.walk` at issue (R433). -/
def execOmrkWalk (x : SF) (s : State) : Out := run (.omrkWalk x) (sysBody (.omrkWalk x) x) s

/-- `octr.read` at issue (R433). -/
def execOctrRead (x : SF) (s : State) : Out := run (.octrRead x) (sysBody (.octrRead x) x) s

/-- `octr.total` at issue (R433). -/
def execOctrTotal (x : SF) (s : State) : Out := run (.octrTotal x) (sysBody (.octrTotal x) x) s

/-- `otrc` at issue (R433). -/
def execOtrc (x : SF) (s : State) : Out := run (.otrc x) (sysBody (.otrc x) x) s

/-- `oinj.arm` at issue (R433). -/
def execOinjArm (x : SF) (s : State) : Out := run (.oinjArm x) (sysBody (.oinjArm x) x) s

/-- `oinj.off` at issue (R433). -/
def execOinjOff (x : SF) (s : State) : Out := run (.oinjOff x) (sysBody (.oinjOff x) x) s

/-- `ostp.arm` at issue (R433). -/
def execOstpArm (x : SF) (s : State) : Out := run (.ostpArm x) (sysBody (.ostpArm x) x) s

/-- `ostp.off` at issue (R433). -/
def execOstpOff (x : SF) (s : State) : Out := run (.ostpOff x) (sysBody (.ostpOff x) x) s

/-- `omrk.tag` acts at issue: every token that the activation commits carries SMP 1 (R426, R433). -/
def execOmrkTag (x : SF) (s : State) : Out := run (.omrkTag x) (fun s _ t => .ok (s, { t with tag := true })) s

end Sys2Proof.Machine
end

