-- ==== Sys2Proof/Machine/Dispatch.lean ====
section
/-! DEFINITION. Dispatch: one arm per constructor of `Instr`, in the order of the opcode table. -/
namespace Sys2Proof.Machine

def exec (i : Instr) (s : State) : Host.Outcome State Fault Refusal :=
  match i with
  | .nop g => Sys2Proof.Machine.execNop g s
  | .add g d a b => Sys2Proof.Machine.execAdd g d a b s
  | .sub g d a b => Sys2Proof.Machine.execSub g d a b s
  | .mul g d a b => Sys2Proof.Machine.execMul g d a b s
  | .mulh g d a b => Sys2Proof.Machine.execMulh g d a b s
  | .mulhn g d a b => Sys2Proof.Machine.execMulhn g d a b s
  | .div g d a b => Sys2Proof.Machine.execDiv g d a b s
  | .divn g d a b => Sys2Proof.Machine.execDivn g d a b s
  | .rem g d a b => Sys2Proof.Machine.execRem g d a b s
  | .remn g d a b => Sys2Proof.Machine.execRemn g d a b s
  | .and g d a b => Sys2Proof.Machine.execAnd g d a b s
  | .or g d a b => Sys2Proof.Machine.execOr g d a b s
  | .xor g d a b => Sys2Proof.Machine.execXor g d a b s
  | .andn g d a b => Sys2Proof.Machine.execAndn g d a b s
  | .shl g d a b => Sys2Proof.Machine.execShl g d a b s
  | .shr g d a b => Sys2Proof.Machine.execShr g d a b s
  | .sra g d a b => Sys2Proof.Machine.execSra g d a b s
  | .rotl g d a b => Sys2Proof.Machine.execRotl g d a b s
  | .min g d a b => Sys2Proof.Machine.execMin g d a b s
  | .max g d a b => Sys2Proof.Machine.execMax g d a b s
  | .minn g d a b => Sys2Proof.Machine.execMinn g d a b s
  | .maxn g d a b => Sys2Proof.Machine.execMaxn g d a b s
  | .bitop g fn d a => Sys2Proof.Machine.execBitop g fn d a s
  | .bfx g d a lsb width sx => Sys2Proof.Machine.execBfx g d a lsb width sx s
  | .bfi g d a lsb width => Sys2Proof.Machine.execBfi g d a lsb width s
  | .sel g d a b p => Sys2Proof.Machine.execSel g d a b p s
  | .movi g hi d imm => Sys2Proof.Machine.execMovi g hi d imm s
  | .addi g d a imm => Sys2Proof.Machine.execAddi g d a imm s
  | .logi g fn d a imm => Sys2Proof.Machine.execLogi g fn d a imm s
  | .shfi g fn d a n => Sys2Proof.Machine.execShfi g fn d a n s
  | .cmp g c p a b => Sys2Proof.Machine.execCmp g c p a b s
  | .cmpi g c p a imm => Sys2Proof.Machine.execCmpi g c p a imm s
  | .fadd g pr rnd d a b => Sys2Proof.Machine.execFadd g pr rnd d a b s
  | .fsub g pr rnd d a b => Sys2Proof.Machine.execFsub g pr rnd d a b s
  | .fmul g pr rnd d a b => Sys2Proof.Machine.execFmul g pr rnd d a b s
  | .fma g pr rnd d a b c => Sys2Proof.Machine.execFma g pr rnd d a b c s
  | .fmin g pr d a b => Sys2Proof.Machine.execFmin g pr d a b s
  | .fmax g pr d a b => Sys2Proof.Machine.execFmax g pr d a b s
  | .fdiv g pr rnd d a b => Sys2Proof.Machine.execFdiv g pr rnd d a b s
  | .fsqrt g pr rnd d a => Sys2Proof.Machine.execFsqrt g pr rnd d a s
  | .fcmp g pr c p a b => Sys2Proof.Machine.execFcmp g pr c p a b s
  | .fcvt g pr rnd fn d a => Sys2Proof.Machine.execFcvt g pr rnd fn d a s
  | .fcls g pr d a => Sys2Proof.Machine.execFcls g pr d a s
  | .lea g shift d a b imm => Sys2Proof.Machine.execLea g shift d a b imm s
  | .mhash g nbits d a mult => Sys2Proof.Machine.execMhash g nbits d a mult s
  | .pop g fn d a b => Sys2Proof.Machine.execPop g fn d a b s
  | .pmov g toPred r => Sys2Proof.Machine.execPmov g toPred r s
  | .mfs g d no ctx => Sys2Proof.Machine.execMfs g d no ctx s
  | .mts g a no ctx => Sys2Proof.Machine.execMts g a no ctx s
  | .clamp g fn d a b c => Sys2Proof.Machine.execClamp g fn d a b c s
  | .iabs g neg d a => Sys2Proof.Machine.execIabs g neg d a s
  | .ent e => Sys2Proof.Machine.execEnt e s
  | .ldf g side d a n => Sys2Proof.Machine.execLdf g side d a n s
  | .stf g d a n => Sys2Proof.Machine.execStf g d a n s
  | .fclr g a n cnt => Sys2Proof.Machine.execFclr g a n cnt s
  | .falloc t cls level useRes => Sys2Proof.Machine.execFalloc t cls level useRes s
  | .ffree g a => Sys2Proof.Machine.execFfree g a s
  | .send t kind imm => Sys2Proof.Machine.execSend t kind imm s
  | .sendc t cop rank => Sys2Proof.Machine.execSendc t cop rank s
  | .sendx t e imm => Sys2Proof.Machine.execSendx t e imm s
  | .swt t tix2 p => Sys2Proof.Machine.execSwt t tix2 p s
  | .sendm t tix2 imm => Sys2Proof.Machine.execSendm t tix2 imm s
  | .wadv g d => Sys2Proof.Machine.execWadv g d s
  | .endH g => Sys2Proof.Machine.execEndH g s
  | .join t => Sys2Proof.Machine.execJoin t s
  | .leave t => Sys2Proof.Machine.execLeave t s
  | .arrive t scope => Sys2Proof.Machine.execArrive t scope s
  | .wait t => Sys2Proof.Machine.execWait t s
  | .halloc t kind => Sys2Proof.Machine.execHalloc t kind s
  | .hinc g a => Sys2Proof.Machine.execHinc g a s
  | .hdec g a => Sys2Proof.Machine.execHdec g a s
  | .hinfo t sel => Sys2Proof.Machine.execHinfo t sel s
  | .trap g imm => Sys2Proof.Machine.execTrap g imm s
  | .brk g imm => Sys2Proof.Machine.execBrk g imm s
  | .sys t service => Sys2Proof.Machine.execSys t service s
  | .resmGo g a => Sys2Proof.Machine.execResmGo g a s
  | .resmDrop g a => Sys2Proof.Machine.execResmDrop g a s
  | .resmStep g a => Sys2Proof.Machine.execResmStep g a s
  | .psn g fn => Sys2Proof.Machine.execPsn g fn s
  | .vadd x => Sys2Proof.Machine.execVadd x s
  | .vsub x => Sys2Proof.Machine.execVsub x s
  | .vmul x => Sys2Proof.Machine.execVmul x s
  | .vfma x => Sys2Proof.Machine.execVfma x s
  | .vmin x => Sys2Proof.Machine.execVmin x s
  | .vmax x => Sys2Proof.Machine.execVmax x s
  | .vabs x => Sys2Proof.Machine.execVabs x s
  | .vneg x => Sys2Proof.Machine.execVneg x s
  | .vlog fn x => Sys2Proof.Machine.execVlog fn x s
  | .vsh fn x => Sys2Proof.Machine.execVsh fn x s
  | .vcmp c x => Sys2Proof.Machine.execVcmp c x s
  | .vsel x => Sys2Proof.Machine.execVsel x s
  | .vcvt x => Sys2Proof.Machine.execVcvt x s
  | .vqnt x => Sys2Proof.Machine.execVqnt x s
  | .vdqn x => Sys2Proof.Machine.execVdqn x s
  | .vfn fn x => Sys2Proof.Machine.execVfn fn x s
  | .vred fn x => Sys2Proof.Machine.execVred fn x s
  | .vscan fn x => Sys2Proof.Machine.execVscan fn x s
  | .vbc x => Sys2Proof.Machine.execVbc x s
  | .vfill fn x => Sys2Proof.Machine.execVfill fn x s
  | .vtrn x => Sys2Proof.Machine.execVtrn x s
  | .vperm x => Sys2Proof.Machine.execVperm x s
  | .vhash nbits x => Sys2Proof.Machine.execVhash nbits x s
  | .vpopc rows x => Sys2Proof.Machine.execVpopc rows x s
  | .vhist x => Sys2Proof.Machine.execVhist x s
  | .vpack rowmask x => Sys2Proof.Machine.execVpack rowmask x s
  | .vunpk rowmask x => Sys2Proof.Machine.execVunpk rowmask x s
  | .vmov x => Sys2Proof.Machine.execVmov x s
  | .vrnd x => Sys2Proof.Machine.execVrnd x s
  | .vbit fn x => Sys2Proof.Machine.execVbit fn x s
  | .vmask fn x => Sys2Proof.Machine.execVmask fn x s
  | .mlds x => Sys2Proof.Machine.execMlds x s
  | .mldw x => Sys2Proof.Machine.execMldw x s
  | .mswp x => Sys2Proof.Machine.execMswp x s
  | .mstr x => Sys2Proof.Machine.execMstr x s
  | .mstt x => Sys2Proof.Machine.execMstt x s
  | .macc anc x => Sys2Proof.Machine.execMacc anc x s
  | .manc x => Sys2Proof.Machine.execManc x s
  | .mepc x => Sys2Proof.Machine.execMepc x s
  | .mout x => Sys2Proof.Machine.execMout x s
  | .mclr x => Sys2Proof.Machine.execMclr x s
  | .mtkr idx x => Sys2Proof.Machine.execMtkr idx x s
  | .mtkc x => Sys2Proof.Machine.execMtkc x s
  | .mspm s4 x => Sys2Proof.Machine.execMspm s4 x s
  | .mclaim x => Sys2Proof.Machine.execMclaim x s
  | .mrel x => Sys2Proof.Machine.execMrel x s
  | .msave x => Sys2Proof.Machine.execMsave x s
  | .mrest x => Sys2Proof.Machine.execMrest x s
  | .mstat take x => Sys2Proof.Machine.execMstat take x s
  | .ld m => Sys2Proof.Machine.execLd m s
  | .st m => Sys2Proof.Machine.execSt m s
  | .dst m => Sys2Proof.Machine.execDst m s
  | .ldt m => Sys2Proof.Machine.execLdt m s
  | .stt m => Sys2Proof.Machine.execStt m s
  | .gth m => Sys2Proof.Machine.execGth m s
  | .sct m => Sys2Proof.Machine.execSct m s
  | .atom fn m => Sys2Proof.Machine.execAtom fn m s
  | .vatom fn m => Sys2Proof.Machine.execVatom fn m s
  | .put m => Sys2Proof.Machine.execPut m s
  | .get m => Sys2Proof.Machine.execGet m s
  | .sopen m => Sys2Proof.Machine.execSopen m s
  | .sclose m => Sys2Proof.Machine.execSclose m s
  | .fence m => Sys2Proof.Machine.execFence m s
  | .pref m => Sys2Proof.Machine.execPref m s
  | .migr m => Sys2Proof.Machine.execMigr m s
  | .wsld m => Sys2Proof.Machine.execWsld m s
  | .inv m => Sys2Proof.Machine.execInv m s
  | .gbump m => Sys2Proof.Machine.execGbump m s
  | .pplace now x => Sys2Proof.Machine.execPplace now x s
  | .pevictVacate x => Sys2Proof.Machine.execPevictVacate x s
  | .pevictKill x => Sys2Proof.Machine.execPevictKill x s
  | .pevictContain x => Sys2Proof.Machine.execPevictContain x s
  | .rmarkCut x => Sys2Proof.Machine.execRmarkCut x s
  | .rmarkFreeze x => Sys2Proof.Machine.execRmarkFreeze x s
  | .rmarkResume x => Sys2Proof.Machine.execRmarkResume x s
  | .qryState x => Sys2Proof.Machine.execQryState x s
  | .qryQuiet x => Sys2Proof.Machine.execQryQuiet x s
  | .qryPower x => Sys2Proof.Machine.execQryPower x s
  | .lnch ctl x => Sys2Proof.Machine.execLnch ctl x s
  | .pclaimClaim x => Sys2Proof.Machine.execPclaimClaim x s
  | .pclaimRelease x => Sys2Proof.Machine.execPclaimRelease x s
  | .twinOn x => Sys2Proof.Machine.execTwinOn x s
  | .twinOff x => Sys2Proof.Machine.execTwinOff x s
  | .cgrpMake x => Sys2Proof.Machine.execCgrpMake x s
  | .cgrpDrop x => Sys2Proof.Machine.execCgrpDrop x s
  | .cred fn x => Sys2Proof.Machine.execCred fn x s
  | .cstat prog x => Sys2Proof.Machine.execCstat prog x s
  | .ccan x => Sys2Proof.Machine.execCcan x s
  | .xcntAdd x => Sys2Proof.Machine.execXcntAdd x s
  | .xcntArr x => Sys2Proof.Machine.execXcntArr x s
  | .xcntHist x => Sys2Proof.Machine.execXcntHist x s
  | .xcntTake x => Sys2Proof.Machine.execXcntTake x s
  | .xdspOne x => Sys2Proof.Machine.execXdspOne x s
  | .xdspArr x => Sys2Proof.Machine.execXdspArr x s
  | .xdspFlush x => Sys2Proof.Machine.execXdspFlush x s
  | .xverGet x => Sys2Proof.Machine.execXverGet x s
  | .xverWait x => Sys2Proof.Machine.execXverWait x s
  | .xverResize x => Sys2Proof.Machine.execXverResize x s
  | .xmrg x => Sys2Proof.Machine.execXmrg x s
  | .xrep x => Sys2Proof.Machine.execXrep x s
  | .xretDrain x => Sys2Proof.Machine.execXretDrain x s
  | .xretFree x => Sys2Proof.Machine.execXretFree x s
  | .rpnt x => Sys2Proof.Machine.execRpnt x s
  | .rseal x => Sys2Proof.Machine.execRseal x s
  | .rrdpStat x => Sys2Proof.Machine.execRrdpStat x s
  | .rrdpCheck x => Sys2Proof.Machine.execRrdpCheck x s
  | .rbak x => Sys2Proof.Machine.execRbak x s
  | .omrkWalk x => Sys2Proof.Machine.execOmrkWalk x s
  | .omrkTag x => Sys2Proof.Machine.execOmrkTag x s
  | .octrRead x => Sys2Proof.Machine.execOctrRead x s
  | .octrTotal x => Sys2Proof.Machine.execOctrTotal x s
  | .otrc x => Sys2Proof.Machine.execOtrc x s
  | .oinjArm x => Sys2Proof.Machine.execOinjArm x s
  | .oinjOff x => Sys2Proof.Machine.execOinjOff x s
  | .ostpArm x => Sys2Proof.Machine.execOstpArm x s
  | .ostpOff x => Sys2Proof.Machine.execOstpOff x s
  | .tokenArrival n => Sys2Proof.Machine.execTokenArrival n s
  | .cswHold n => Sys2Proof.Machine.execCswHold n s
  | .cswRelease n => Sys2Proof.Machine.execCswRelease n s
  | .rmkArrival n => Sys2Proof.Machine.execRmkArrival n s
  | .cisternWrite n => Sys2Proof.Machine.execCisternWrite n s
  | .activationSlotGrant site => Sys2Proof.Machine.execActivationSlotGrant site s
  | .heldTokenRetry site => Sys2Proof.Machine.execHeldTokenRetry site s
  | .commit site => Sys2Proof.Machine.execCommit site s
  | .trapDelivery site => Sys2Proof.Machine.execTrapDelivery site s
  | .serviceDelivery site => Sys2Proof.Machine.execServiceDelivery site s
  | .frameGrant site n => Sys2Proof.Machine.execFrameGrant site n s
  | .groupRequest n => Sys2Proof.Machine.execGroupRequest n s
  | .handleRequest n => Sys2Proof.Machine.execHandleRequest n s
  | .tileFree site gran => Sys2Proof.Machine.execTileFree site gran s
  | .hallocGrant site n => Sys2Proof.Machine.execHallocGrant site n s
  | .vectorOpStart site => Sys2Proof.Machine.execVectorOpStart site s
  | .gapBookingDrop site => Sys2Proof.Machine.execGapBookingDrop site s
  | .vectorOpComplete site => Sys2Proof.Machine.execVectorOpComplete site s
  | .bankReconfigure site v => Sys2Proof.Machine.execBankReconfigure site v s
  | .bankWipeDone site n => Sys2Proof.Machine.execBankWipeDone site n s
  | .matrixOpStart site => Sys2Proof.Machine.execMatrixOpStart site s
  | .matrixOpComplete site => Sys2Proof.Machine.execMatrixOpComplete site s
  | .memTranslate id => Sys2Proof.Machine.execMemTranslate id s
  | .pageWalkDone n => Sys2Proof.Machine.execPageWalkDone n s
  | .fltctlRetry site asid => Sys2Proof.Machine.execFltctlRetry site asid s
  | .fltctlFail site asid => Sys2Proof.Machine.execFltctlFail site asid s
  | .memAccessPerform id => Sys2Proof.Machine.execMemAccessPerform id s
  | .staleGenerationRetry id => Sys2Proof.Machine.execStaleGenerationRetry id s
  | .wsRefreshEnd die bank => Sys2Proof.Machine.execWsRefreshEnd die bank s
  | .streamItem site gen => Sys2Proof.Machine.execStreamItem site gen s
  | .streamGeneratorGrant site => Sys2Proof.Machine.execStreamGeneratorGrant site s
  | .bubEmit site gen => Sys2Proof.Machine.execBubEmit site gen s
  | .migrationGranuleCopy n => Sys2Proof.Machine.execMigrationGranuleCopy n s
  | .migrationComplete n => Sys2Proof.Machine.execMigrationComplete n s
  | .linkTokenRoute n => Sys2Proof.Machine.execLinkTokenRoute n s
  | .placementRetry n => Sys2Proof.Machine.execPlacementRetry n s
  | .configWaveDone handle => Sys2Proof.Machine.execConfigWaveDone handle s
  | .seedRelease handle => Sys2Proof.Machine.execSeedRelease handle s
  | .powerWindow site => Sys2Proof.Machine.execPowerWindow site s
  | .thermalDutyStep die => Sys2Proof.Machine.execThermalDutyStep die s
  | .quiescenceWave handle => Sys2Proof.Machine.execQuiescenceWave handle s
  | .faultTimeSample site => Sys2Proof.Machine.execFaultTimeSample site s
  | .containmentTrigger handle cause => Sys2Proof.Machine.execContainmentTrigger handle cause s
  | .twinDigest n => Sys2Proof.Machine.execTwinDigest n s
  | .twinDigestTimeout n => Sys2Proof.Machine.execTwinDigestTimeout n s
  | .ceLtctlWrite v => Sys2Proof.Machine.execCeLtctlWrite v s
  | .collMessage engine m => Sys2Proof.Machine.execCollMessage engine m s
  | .collectiveOpStart asid gtag => Sys2Proof.Machine.execCollectiveOpStart asid gtag s
  | .colStall engine n => Sys2Proof.Machine.execColStall engine n s
  | .routeEntry => Sys2Proof.Machine.execRouteEntry s
  | .pageRelease replica => Sys2Proof.Machine.execPageRelease replica s
  | .pageRetire replica => Sys2Proof.Machine.execPageRetire replica s
  | .graftStageDone => Sys2Proof.Machine.execGraftStageDone s
  | .replicaFailed replica => Sys2Proof.Machine.execReplicaFailed replica s
  | .cellarLineWrite id => Sys2Proof.Machine.execCellarLineWrite id s
  | .sealAbandoned cause => Sys2Proof.Machine.execSealAbandoned cause s
  | .resilverRegion k => Sys2Proof.Machine.execResilverRegion k s
  | .slotScan => Sys2Proof.Machine.execSlotScan s
  | .escalatedRollback handle => Sys2Proof.Machine.execEscalatedRollback handle s
  | .seedRecord die => Sys2Proof.Machine.execSeedRecord die s
  | .afterRelease die n => Sys2Proof.Machine.execAfterRelease die n s
  | .inboundRequest r => Sys2Proof.Machine.execInboundRequest r s
  | .flitReplay port again => Sys2Proof.Machine.execFlitReplay port again s
  | .portDown port => Sys2Proof.Machine.execPortDown port s
  | .portTrain port done => Sys2Proof.Machine.execPortTrain port done s
  | .hostCompletionTimeout id => Sys2Proof.Machine.execHostCompletionTimeout id s
  | .hostCompletion id code data => Sys2Proof.Machine.execHostCompletion id code data s
  | .lkIrqWrite v => Sys2Proof.Machine.execLkIrqWrite v s
  | .timeEventMessage egress w0 w1 => Sys2Proof.Machine.execTimeEventMessage egress w0 w1 s
  | .sweepVisit site => Sys2Proof.Machine.execSweepVisit site s
  | .obTadjWrite v => Sys2Proof.Machine.execObTadjWrite v s
  | .walkStep n => Sys2Proof.Machine.execWalkStep n s
  | .stopHit n => Sys2Proof.Machine.execStopHit n s
  | .monitorSample m v => Sys2Proof.Machine.execMonitorSample m v s
  | .obLmselWrite m v => Sys2Proof.Machine.execObLmselWrite m v s
  | .injectionHit pa => Sys2Proof.Machine.execInjectionHit pa s
  | .inputLoss => Sys2Proof.Machine.execInputLoss s
  | .deviceReset => Sys2Proof.Machine.execDeviceReset s
  | .computeDieReset die => Sys2Proof.Machine.execComputeDieReset die s
  | .ioDie1Reset => Sys2Proof.Machine.execIoDie1Reset s
  | .ioDie0Reset => Sys2Proof.Machine.execIoDie0Reset s
  | .wipeComplete dom => Sys2Proof.Machine.execWipeComplete dom s
  | .calibrationEnd die => Sys2Proof.Machine.execCalibrationEnd die s
  | .pkBootWrite v => Sys2Proof.Machine.execPkBootWrite v s
  | .lifeCycleAdvance => Sys2Proof.Machine.execLifeCycleAdvance s
  | .registerWrite pa v => Sys2Proof.Machine.execRegisterWrite pa v s
  | .wsRefreshStart die bank => Sys2Proof.Machine.execWsRefreshStart die bank s
  | .chunkStall asid gtag chunk => Sys2Proof.Machine.execChunkStall asid gtag chunk s
  | .attestationReport => Sys2Proof.Machine.execAttestationReport s

end Sys2Proof.Machine
end

