-- ==== Sys2Proof/Machine/Issue.lean ====
section
/-! DEFINITION. Which activation of a site issues next (R14), with the latencies of R112. -/
namespace Sys2Proof.Machine

/-- The general registers that a word reads (R128 to R158, R186, R219, R321). -/
def regsRead (i : Instr) : List Reg :=
  match i with
  | .add _ _ a b | .sub _ _ a b | .mul _ _ a b | .mulh _ _ a b | .mulhn _ _ a b | .div _ _ a b | .divn _ _ a b | .rem _ _ a b
  | .remn _ _ a b | .and _ _ a b | .or _ _ a b | .xor _ _ a b | .andn _ _ a b | .shl _ _ a b | .shr _ _ a b | .sra _ _ a b
  | .rotl _ _ a b | .min _ _ a b | .max _ _ a b | .minn _ _ a b | .maxn _ _ a b | .sel _ _ a b _ | .cmp _ _ _ a b
  | .fadd _ _ _ _ a b | .fsub _ _ _ _ a b | .fmul _ _ _ _ a b | .fmin _ _ _ a b | .fmax _ _ _ a b | .fdiv _ _ _ _ a b
  | .fcmp _ _ _ _ a b | .lea _ _ _ a b _ => [a, b]
  | .fma _ _ _ _ a b c | .clamp _ _ _ a b c => [a, b, c]
  | .bfi _ d a _ _ | .stf _ d a _ => [d, a]
  | .bitop _ _ _ a | .bfx _ _ a _ _ _ | .addi _ _ a _ | .logi _ _ _ a _ | .shfi _ _ _ a _ | .cmpi _ _ _ a _ | .fsqrt _ _ _ _ a
  | .fcvt _ _ _ _ _ a | .fcls _ _ _ a | .mhash _ _ _ a _ | .mts _ a _ _ | .iabs _ _ _ a | .ldf _ _ _ a _ | .fclr _ a _ _
  | .ffree _ a | .hinc _ a | .hdec _ a | .resmGo _ a | .resmDrop _ a | .resmStep _ a => [a]
  | .pmov _ toPred r => if toPred then [r] else []
  | .sendx t e _ => [t.v, t.f, t.i, e]
  | i =>
    (match i.tf? with | some t => [t.v, t.f, t.i] | none => []) ++ (match i.xf? with | some x => [x.d, x.a, x.b, x.c] | none => []) ++
    (match i.mf? with | some m => [m.d, m.a, m.b] | none => []) ++ (match i.sf? with | some x => [x.d, x.a, x.b] | none => [])

/-- The predicates that a word reads, its guard among them. -/
def predsRead (i : Instr) : List PredReg :=
  i.guard.pg ::
  match i with
  | .sel _ _ _ _ p | .swt _ _ p => [p]
  | .pop _ _ _ a b => [a, b]
  | .pmov _ toPred _ => if toPred then [] else [1, 2, 3, 4, 5, 6, 7]
  | _ => []

/-- The keys of `Activation.avail` that a word reads. -/
def resultsRead (i : Instr) : List Nat := (regsRead i).map (·.toNat) ++ (predsRead i).map fun p => 16 + p.toNat

/-- Which divider a word uses (R112): 1 the integer divider, 2 the float divider. -/
def divider (i : Instr) : Nat :=
  match i with
  | .div .. | .divn .. | .rem .. | .remn .. => 1
  | .fdiv .. | .fsqrt .. => 2
  | _ => 0

/-- The result of a multi-clk instruction and its latency (R112). -/
def lateResult (i : Instr) : Option (Nat × Nat) :=
  match i with
  | .mul _ d _ _ | .mulh _ d _ _ | .mulhn _ d _ _ | .mhash _ _ d _ _ => some (d.toNat, 3)
  | .div _ d _ _ | .divn _ d _ _ | .rem _ d _ _ | .remn _ d _ _ => some (d.toNat, 22)
  | .fadd _ _ _ d _ _ | .fsub _ _ _ d _ _ | .fmul _ _ _ d _ _ | .fma _ _ _ d _ _ _ | .fmin _ _ d _ _ | .fmax _ _ d _ _
  | .fcvt _ _ _ _ d _ | .fcls _ _ d _ => some (d.toNat, 4)
  | .fcmp _ _ _ p _ _ => some (16 + p.toNat, 4)
  | .clamp _ fn d _ _ _ => match fn with | .single | .double => some (d.toNat, 4) | _ => none
  | .fdiv _ pr _ d _ _ | .fsqrt _ pr _ d _ => some (d.toNat, match pr with | .single => 14 | .double => 26)
  | _ => none

/-- An activation's next word waits for a result that is still being computed, or for its divider (R14, R112). -/
def mustSkip (s : State) (q : SeqUnit) (a : Activation) (i : Instr) : Bool :=
  (a.avail.any fun p => decide (s.clk < p.2) && (resultsRead i).contains p.1) ||
  (divider i == 1 && decide (s.clk < q.idivFree)) || (divider i == 2 && decide (s.clk < q.fdivFree))

/-- The activation in slot `k` can issue its next word now. -/
def issueReady (s : State) (n k : Nat) : Bool :=
  match s.act? n k, fetch s n k with
  | some a, .run i => !mustSkip s (s.site n).seq a i
  | some _, .bad _ => true
  | _, _ => false

/-- The activation slot that issues next at a site: the first one ready, in round-robin order; one word a clk (R14). -/
def issueSlot (s : State) (n : Nat) : Option Nat :=
  let q := (s.site n).seq
  if q.issuedAt = some s.clk then none
  else ((List.range 8).map fun k => (q.issueNext + k) % 8).find? fun k => issueReady s n k

/-- Slot `k` of site `n` has had its turn to issue. -/
def State.turnTaken (s : State) (n k : Nat) : State :=
  s.modSeq n fun q => { q with issueNext := (k + 1) % 8, issuedAt := some s.clk }

/-- The state after word `i` ran for slot `k` of site `n` in state `s`: a multi-clk result can be read once its latency has passed, and
its divider is busy until then (R112). -/
def State.resultDue (u s : State) (n k : Nat) (i : Instr) : State :=
  match s.act? n k, u.act? n k, lateResult i with
  | some a, some b, some (r, lat) =>
    if a.guardOk i.guard && b.pc == a.pc + 1 then
      (u.setAct n k { b with avail := Tbl.set b.avail r (s.clk + lat) }).modSeq n fun q =>
        { q with
          idivFree := if divider i = 1 then s.clk + lat else q.idivFree
          fdivFree := if divider i = 2 then s.clk + lat else q.fdivFree }
    else u
  | _, _, _ => u

end Sys2Proof.Machine
end

