-- ==== Sys2Proof/Machine/Turns.lean ====
section
/-! DEFINITION. Whose move it is (log entry 2): the turn that is set, or one of the moves that may come next, by a free choice; and the
passing of time. A move that turns out not to be ready leaves the state as it is. -/
namespace Sys2Proof.Machine

/-! ### Time -/

/-- The event counters that count clk (R418): 7 the input is blocked for want of a fire-queue entry, 8 a vector operation runs, 9 the
matrix array streams. -/
def State.clkEvents (s : State) (n : Nat) (x : Site) : List Nat :=
  (if decide (32 ≤ x.seq.fireQ.length) && s.mesh.any (fun f => f.dst == n) then [7] else []) ++
  (if x.tile.queue.any fun o => o.started && o.result.isNone then [8] else []) ++
  (if x.mx.queue.any fun o => o.started && (match o.ins with | .mstr _ | .mstt _ => true | _ => false) then [9] else [])

def State.countClk (s : State) : State :=
  (s.sites.flatMap fun p => (s.clkEvents p.1 p.2).map fun e => (p.1, e)).foldl
    (fun (s : State) (c : Nat × Nat) => s.count c.1 c.2) s

/-- Every 1,024 clk monitor 2 measures the tokens in the input queues of its site (R429). -/
def State.measureQueues (s : State) : State :=
  if s.clk % 1024 ≠ 0 then s
  else
    let n := match s.obs.mons[2]? with | some m => m.src.toNat | none => 0
    s.measure 2 n (s.mesh.filter fun f => f.here && f.dst == n && decide (f.queue < 3)).length

/-- One clk passes: the time base advances by 5/7 ns (R3, R421), less what OB_TADJ withholds (R422). -/
def tick (s : State) : State :=
  let s := s.countClk.measureQueues
  let f := s.obs.timeFrac + 5
  let ns := f / 7
  let held := if s.obs.withhold = 0 then 0 else Nat.min s.obs.withhold ((ns + s.clk % 2) / 2)
  { s with
    clk := s.clk + 1
    obs := { s.obs with time := s.obs.time + BitVec.ofNat 64 (ns - held), timeFrac := f % 7, withhold := s.obs.withhold - held } }

/-! ### The moves of a site -/

/-- The activation of a site that issues next (R14). -/
def issues (s : State) (n : Nat) : List Turn := ((issueSlot s n).map fun k => [.issue n k]).getD []

/-- The events `f 0` to `f (k - 1)`. -/
def upTo (k : Nat) (f : Nat → Move) : List Move := (List.range k).map f

def onlyIf (b : Bool) (e : Move) : List Move := if b then [e] else []

/-- The steps of the sequencer that may come next at a site. -/
def seqEvents (s : State) (n : Nat) (q : SeqUnit) : List Move :=
  onlyIf (!q.fireQ.isEmpty) (.activationSlotGrant n) ++ onlyIf (!q.released.isEmpty) (.heldTokenRetry n) ++
  onlyIf (!q.ready.isEmpty) (.commit n) ++ onlyIf (!q.trapQ.isEmpty && q.inAt != some s.clk) (.trapDelivery n) ++
  onlyIf (q.service.isSome && q.inAt != some s.clk) (.serviceDelivery n) ++ upTo q.allocQ.length (.frameGrant n)

/-- The command that a reconfiguration in progress came from (R182). -/
def BankOp.command (o : BankOp) : Word := fieldsWord [(0, o.bank), (6, o.owner), (9, if o.shared then 1 else 0), (10, o.grp)]

/-- The steps of the tile store and of the vector and matrix engines. -/
def engineEvents (n : Nat) (x : Site) : List Move :=
  ((x.tile.tiles.filter fun t => t.2.dying.isSome).map fun t => .tileFree n t.1) ++ upTo x.tile.waiting.length (.hallocGrant n) ++
  (x.tile.bankOps.zipIdx.map fun o => if o.1.wiping then .bankWipeDone n o.2 else .bankReconfigure n o.1.command) ++
  onlyIf (x.tile.queue.any fun o => !o.started) (.vectorOpStart n) ++ onlyIf (x.tile.queue.any (·.started)) (.vectorOpComplete n) ++
  onlyIf (x.mx.queue.any fun o => !o.started) (.matrixOpStart n) ++ onlyIf (x.mx.queue.any (·.started)) (.matrixOpComplete n) ++
  onlyIf (x.tileOps.any (·.booked)) (.gapBookingDrop n)

def streamEvents (n : Nat) (p : PortUnit) : List Move :=
  onlyIf (!p.sopens.isEmpty || p.gens.any fun g => decide (8 ≤ g.1)) (.streamGeneratorGrant n) ++
  onlyIf (p.gens.any fun g => g.2.parked) (.faultTimeSample n) ++
  (p.gens.filter fun g => decide (g.1 < 8)).flatMap fun g => [.streamItem n g.1, .bubEmit n g.1]

/-- A power window is 1,024 clk (R299). -/
def siteMoves (s : State) (n : Nat) (x : Site) : List Turn :=
  issues s n ++
  (seqEvents s n x.seq ++ engineEvents n x ++ streamEvents n x.port ++
    onlyIf (s.clk % 1024 == 0 && !x.obs.power.isEmpty) (.powerWindow n)).map .own

/-! ### The moves of the rest of the part -/

def arrivalEvent (s : State) (i : Nat) (f : Flight) : Move :=
  match arrivalKind s f.dst f with
  | .plain => .tokenArrival i
  | .hold => .cswHold i
  | .release => .cswRelease i
  | .rmk => .rmkArrival i
  | .cistern => .cisternWrite i
  | .stop => .stopHit i

/-- The token at the head of ejection queue `v` of a site, and its index. -/
def queueHead (s : State) (n v : Nat) : Option (Flight × Nat) :=
  s.mesh.zipIdx.find? fun f => f.1.dst == n && f.1.here && f.1.queue == v && atHead s.mesh f.2

/-- The input can take the token, or has something to say about it. -/
def headTaken (s : State) (i : Nat) (f : Flight) : Bool :=
  match arrivalKind s f.dst f with
  | .plain => (s.tokenArrived i f).isSome
  | .cistern =>
    let p := (s.site f.dst).port
    let key := f.asid * 8 + f.tok.ctx.toNat
    inputOpen s f.dst && (decide (Tbl.getD p.cistCount key 0 < Tbl.getD p.cistLen key 0) || !p.cistFull.contains key)
  | _ => inputOpen s f.dst

/-- A trap or service token is delivered ahead of the networks' tokens (R103). -/
def innerFirst (s : State) (n : Nat) : Bool :=
  (trapReady s n && (trapHandlerWord s n).isSome) ||
  (serviceReady s n &&
    match (s.site n).seq.service, (s.site n).seq.systemFrame with
    | some r, some fp => (s.serviceDelivered n fp r).isSome
    | _, _ => false)

/-- The next token that the input of a site takes: one a clk, tokens made inside the site first, then those presented again, then the
heads of the three networks in round-robin order, past one that must wait (R103, R105, R107). -/
def inputNext (s : State) (n : Nat) : List Move :=
  let q := (s.site n).seq
  if q.inAt = some s.clk ∨ innerFirst s n then []
  else
    match ([3] ++ (List.range 3).map fun k => (q.inNext + k) % 3).findSome? fun v =>
        (queueHead s n v).filter fun (f : Flight × Nat) => headTaken s f.2 f.1 with
    | some f => [arrivalEvent s f.2 f.1]
    | none => []

/-- The sites whose ejection queues hold tokens. -/
def inputSites (s : State) : List Nat := ((s.mesh.filter (·.here)).map (·.dst)).eraseDups

/-- The tokens that may leave the mesh. -/
def ejections (s : State) : List Turn := ((List.range s.mesh.length).filter s.canEject).map .eject

/-- Tokens, markers, and group and handle requests on their way. -/
def meshEvents (s : State) : List Move :=
  (inputSites s).flatMap (inputNext s) ++ upTo s.pager.markers.length (fun i => .rmkArrival (s.mesh.length + i)) ++
  upTo s.groupReqs.length .groupRequest ++ upTo s.handleReqs.length .handleRequest ++ upTo s.pager.links.length .linkTokenRoute

def reqEvents (r : MemReq) : List Move :=
  match r.phase, r.ins with
  | .committed, _ => [.memTranslate r.id]
  | .parked .., _ => [.faultTimeSample r.who.site]
  | .ready _, .mldw _ => [.staleGenerationRetry r.id]
  | .ready _, .dst _ => [.cellarLineWrite r.id, .staleGenerationRetry r.id]
  | .ready _, _ => [.memAccessPerform r.id, .staleGenerationRetry r.id]
  | .remote _, _ => [.memAccessPerform r.id, .hostCompletionTimeout r.id]
  | .walking _, _ | .failed _, _ => []

/-- Memory requests, fences, walks, migrations and refresh windows. -/
def memEvents (s : State) : List Move :=
  s.reqs.flatMap reqEvents ++ (s.fences.map fun f => .memAccessPerform f.seq) ++
  (s.mem.flushes.map fun x => .hostCompletionTimeout x.1) ++ upTo s.pager.walks.length .pageWalkDone ++
  upTo s.pager.migs.length .migrationGranuleCopy ++ upTo s.pager.migs.length .migrationComplete ++
  (List.range 128).map fun k => if s.mem.refreshing k then .wsRefreshEnd (k / 16) (k % 16) else .wsRefreshStart (k / 16) (k % 16)

def launchEvents (s : State) (h : Nat) (l : Launch) : List Move :=
  [.configWaveDone h, .seedRelease h, .quiescenceWave h] ++
  onlyIf (l.allSites.any fun n => (s.site n).seq.halt) (.containmentTrigger h 1) ++ onlyIf l.escalated (.escalatedRollback h)

/-- The region pager; its coordinator does nothing while I/O die 0 is wiped (R438, R439). -/
def pagerEvents (s : State) : List Move :=
  if s.pkg.wiping.contains 8 then []
  else
  s.pager.launches.flatMap (fun p => launchEvents s p.1 p.2) ++ upTo s.pager.waiting.length .placementRetry ++
  upTo s.pager.twins.length .twinDigest ++ upTo s.pager.twins.length .twinDigestTimeout ++
  upTo 8 .thermalDutyStep

/-- The collective engines. -/
def collEvents (s : State) : List Move :=
  (s.coll.groups.filter fun g => !s.pkg.wiping.contains (8 + g.gtag % 2)).flatMap (fun g =>
    match g.cur with
    | some o => if o.started then upTo (CollDesc.of o.desc).nch (.chunkStall g.asid g.gtag) else [.collectiveOpStart g.asid g.gtag]
    | none => []) ++
  s.coll.held.zipIdx.flatMap fun h => upTo h.1.length (.colStall h.2)

/-- The expert placement and recovery engines. -/
def placeEvents (s : State) : List Move :=
  (if s.pkg.wiping.contains 9 then []
   else
     onlyIf (s.xp.cur.isSome || !s.xp.waiting.isEmpty) .routeEntry ++
     s.xp.reps.flatMap (fun r => [.pageRelease r.1, .pageRetire r.1, .replicaFailed r.1]) ++ onlyIf s.xp.graft.isSome .graftStageDone) ++
  (if s.rcv.sealing.isSome then [.sealAbandoned 2, .sealAbandoned 3] else []) ++
  ((s.rcv.dirty.filter fun d => mendable s.rcv d.1).map fun d => .resilverRegion d.1) ++ onlyIf s.rcv.scan .slotScan

/-- The links: the headgate, a training, and requests that wait. -/
def linkEvents (s : State) : List Move :=
  s.link.inq.zipIdx.flatMap (fun q => onlyIf (!q.1.isEmpty) (.seedRecord q.2)) ++
  s.link.hold.zipIdx.flatMap (fun q => upTo q.1.length (.afterRelease q.2)) ++ s.link.inbound.map .inboundRequest ++
  (s.link.ports.zipIdx.filter fun p => p.1.train).flatMap fun p => [.portTrain p.2 true, .portTrain p.2 false]

/-- What the observation engine owes at this clk: the sweeper's visit, and the samples that have arisen (R419, R429). -/
def dueEvents (s : State) : List Move :=
  (match s.sweepDue with | some n => [.sweepVisit n] | none => []) ++ s.obs.samples.map fun x => .monitorSample x.1 x.2

/-- The observation engine. -/
def obsEvents (s : State) : List Move := upTo s.obs.walks.length .walkStep ++ dueEvents s

def pkgEvents (s : State) : List Move :=
  s.pkg.wiping.map .wipeComplete ++ ((List.range 8).filter fun d => s.pkg.recov.getLsbD d).map .calibrationEnd

/-! ### The next move -/

/-- An input that cannot be taken yet: a collective message that finds the holding buffer full (R331). -/
def State.inputWaits (s : State) (e : Instr) : Bool :=
  match e with
  | .collMessage k _ => s.collFull k
  | _ => false

/-- The inputs that may be taken: the first that need not wait. -/
def State.firstInput (s : State) : List Instr := ((s.inputs.find? fun e => !s.inputWaits e).map fun e => [e]).getD []

/-- Write `i` reaches its other mirror, or message `i` is acknowledged. -/
def arrivals (s : State) : List Turn :=
  (List.range s.rcv.mirrors.length).map .mirror ++
  ((s.link.unacked.zipIdx.filter fun (m : Unacked × Nat) => m.1.port.isSome).map fun (m : Unacked × Nat) => .ack m.2)

/-- The moves that may come next. Time passes unless the observation engine owes something at this clk. -/
def moves (s : State) : List Turn :=
  s.sites.flatMap (fun p => siteMoves s p.1 p.2) ++ ejections s ++
  (meshEvents s ++ memEvents s ++ pagerEvents s ++ collEvents s ++ placeEvents s ++ linkEvents s ++ obsEvents s ++ pkgEvents s).map .own ++ s.firstInput.map .event ++
  arrivals s ++ (List.range 5).map .serve ++ (if (dueEvents s).isEmpty then [.tick] else [])

/-- The next move, and the state with the turn taken: an outside event leaves the list of inputs when it is taken. -/
def nextMove (s : State) : Turn × State :=
  match s.turn with
  | some t => (t, { s with turn := none })
  | none =>
    let ms := moves s
    let t := ms.getD (Config.pick s.free % ms.length) .tick
    let s := s.bumpFree
    match t with
    | .event e => (t, if s.firstInput.contains e then { s with inputs := s.inputs.erase e } else s)
    | _ => (t, s)

/-- A move made: the meaning of its row of the opcode table. -/
def Move.run (m : Move) (s : State) : Out :=
  match m with
  | .activationSlotGrant site => execActivationSlotGrant site s
  | .heldTokenRetry site => execHeldTokenRetry site s
  | .commit site => execCommit site s
  | .trapDelivery site => execTrapDelivery site s
  | .serviceDelivery site => execServiceDelivery site s
  | .frameGrant site n => execFrameGrant site n s
  | .tileFree site gran => execTileFree site gran s
  | .hallocGrant site n => execHallocGrant site n s
  | .bankWipeDone site n => execBankWipeDone site n s
  | .bankReconfigure site v => execBankReconfigure site v s
  | .vectorOpStart site => execVectorOpStart site s
  | .vectorOpComplete site => execVectorOpComplete site s
  | .matrixOpStart site => execMatrixOpStart site s
  | .matrixOpComplete site => execMatrixOpComplete site s
  | .gapBookingDrop site => execGapBookingDrop site s
  | .streamGeneratorGrant site => execStreamGeneratorGrant site s
  | .streamItem site gen => execStreamItem site gen s
  | .bubEmit site gen => execBubEmit site gen s
  | .powerWindow site => execPowerWindow site s
  | .tokenArrival n => execTokenArrival n s
  | .cswHold n => execCswHold n s
  | .cswRelease n => execCswRelease n s
  | .rmkArrival n => execRmkArrival n s
  | .cisternWrite n => execCisternWrite n s
  | .stopHit n => execStopHit n s
  | .groupRequest n => execGroupRequest n s
  | .handleRequest n => execHandleRequest n s
  | .linkTokenRoute n => execLinkTokenRoute n s
  | .memTranslate id => execMemTranslate id s
  | .faultTimeSample site => execFaultTimeSample site s
  | .cellarLineWrite id => execCellarLineWrite id s
  | .staleGenerationRetry id => execStaleGenerationRetry id s
  | .memAccessPerform id => execMemAccessPerform id s
  | .hostCompletionTimeout id => execHostCompletionTimeout id s
  | .pageWalkDone n => execPageWalkDone n s
  | .migrationGranuleCopy n => execMigrationGranuleCopy n s
  | .migrationComplete n => execMigrationComplete n s
  | .wsRefreshEnd die bank => execWsRefreshEnd die bank s
  | .wsRefreshStart die bank => execWsRefreshStart die bank s
  | .configWaveDone handle => execConfigWaveDone handle s
  | .seedRelease handle => execSeedRelease handle s
  | .quiescenceWave handle => execQuiescenceWave handle s
  | .containmentTrigger handle cause => execContainmentTrigger handle cause s
  | .escalatedRollback handle => execEscalatedRollback handle s
  | .placementRetry n => execPlacementRetry n s
  | .twinDigest n => execTwinDigest n s
  | .twinDigestTimeout n => execTwinDigestTimeout n s
  | .thermalDutyStep die => execThermalDutyStep die s
  | .chunkStall asid gtag chunk => execChunkStall asid gtag chunk s
  | .collectiveOpStart asid gtag => execCollectiveOpStart asid gtag s
  | .colStall engine n => execColStall engine n s
  | .routeEntry => execRouteEntry s
  | .pageRelease replica => execPageRelease replica s
  | .pageRetire replica => execPageRetire replica s
  | .replicaFailed replica => execReplicaFailed replica s
  | .graftStageDone => execGraftStageDone s
  | .sealAbandoned cause => execSealAbandoned cause s
  | .resilverRegion k => execResilverRegion k s
  | .slotScan => execSlotScan s
  | .seedRecord die => execSeedRecord die s
  | .afterRelease die n => execAfterRelease die n s
  | .inboundRequest r => execInboundRequest r s
  | .portTrain port done => execPortTrain port done s
  | .walkStep n => execWalkStep n s
  | .sweepVisit site => execSweepVisit site s
  | .monitorSample m v => execMonitorSample m v s
  | .wipeComplete dom => execWipeComplete dom s
  | .calibrationEnd die => execCalibrationEnd die s

/-- An engine does one thing that it can do: 0 the pager, 1 the collective engines, 2 expert placement, 3 recovery, 4 observation; nothing
while its die is wiped (R439). -/
def serveEngine (k : Nat) (s : State) : State :=
  match k with
  | 0 => if s.pkg.wiping.contains 8 then s else s.pagerServe
  | 1 => s.collServe
  | 2 => if s.pkg.wiping.contains 9 then s else s.xpServe
  | 3 => s.recServe
  | _ => s.obsServe

end Sys2Proof.Machine
end

