-- ==== Sys2Proof/Machine/Step.lean ====
section
/-! DEFINITION. One step of the machine. -/
namespace Sys2Proof.Machine

/-- One step: the next move is settled, then made. -/
def step (s : State) : Host.Outcome State Fault Refusal :=
  match nextMove s with
  | (.issue n k, s) =>
    match fetch s n k with
    | .idle => .next s
    | .run i =>
      match exec i { s.turnTaken n k with cur := (n, k) } with
      | .next u => .next (u.resultDue s n k i)
      | o => o
    | .bad t =>
      match s.act? n k with
      | some a => .next (trapOrWait (s.turnTaken n k) n k a (s.turnTaken n k) t)
      | none => .next s
  | (.eject i, s) => .next (s.eject i)
  | (.event e, s) => exec e s
  | (.own m, s) => m.run s
  | (.serve g, s) => .next (serveEngine g s)
  | (.ack i, s) => .next (s.ackMessage i)
  | (.mirror i, s) => .next (s.mirrorAck i)
  | (.tick, s) => .next (tick s)

/-- The `ent` word under which a placed word runs: monadic, LEN 63, every feature (log entry 1). -/
def slotEnt : Word := 0x400403F1F0000000

/-- The state with a word stored where the next step fetches: in context 7's page at system site 2,048, as the first word
after an `ent`, or as the `ent` itself, with an activation in slot 0 that is about to issue it (log entry 1). -/
def State.withFetchWord (s : State) (nbits w : Nat) : State :=
  let word : Word := BitVec.ofNat 64 (w % 2 ^ nbits)
  let isEnt := word.toNat / 2 ^ 56 == 0x40
  let page : Page :=
    { index := 0, feat := 31, pcls := 0, code := (if isEnt then [word] else [slotEnt, word]) ++ List.replicate 64 0x4C00000000000000,
      targets := List.replicate 320 0x000000E000000000, streams := List.replicate 32 [0, 3, 0x0001000100010001, 0], seedCls := 0,
      reserve := List.replicate 8 (0, 1) }
  let slot : CtxSlot :=
    { asid := 0, handle := 0, bx := 0, by_ := 0, w := 4, h := 4, page := some page, held := false, frozen := false, csw := false,
      captured := [], stopped := [] }
  let tok : Token :=
    { cls := 3, psn := false, ctx := 7, dx := 0, dy := 0, ip := 0, port := false, fp := 0, itn := 0, smp := false, payload := 0 }
  let act : Activation :=
    { ctx := 7, ip := 0, pc := if isEnt then 0 else 1, limit := 64, fp := 0, itn := 0, pz := false, inv := false, ovf := false,
      dz := false, out := false, regs := Vector.replicate 16 0, preds := 0, effects := [], armB := false, ended := false, feat := 31,
      tok := tok, claim := none, partner := 0, step := false, trapHandler := false, tag := false, hist := 0, org := engineOrigin,
      deps := [], committing := none, endAt := 0, avail := [] }
  let s := s.modSite 2048 fun x => { x with ctxs := Tbl.set x.ctxs 7 slot }
  let s := s.modSeq 2048 fun q => { q with acts := Tbl.set q.acts 0 act, halt := false }
  { s with turn := some (.issue 2048 0) }

end Sys2Proof.Machine
end

