-- ==== Sys2Proof/Safety.lean ====
section
/-! DEFINITION. What counts as a safe run, and the terms in which claims speak of a word that issues. -/
namespace Sys2Proof.Machine

/-- The outcome is a next state. -/
def Safe (o : Out) : Prop := ∃ t, o = .next t

/-- The memory keeps its canonical form, host memory included. -/
def MemOk (s : State) : Prop := s.mem.wf = true

/-- The word `i` of the activation `a`, which `State.cur` names, executes: its target and stream indices are in use, the entry's FEAT
covers what it needs, the context may run it, and its guard is true (R48, R53). -/
structure Ready (i : Instr) (s : State) (a : Activation) : Prop where
  act : s.act? s.cur.1 s.cur.2 = some a
  targets : ∀ t ∈ i.tixs, t < s.targetCount s.cur.1 a.ctx
  streams : ∀ k, i.sdx? = some k → k < s.streamCount s.cur.1 a.ctx
  feat : i.needs &&& ~~~a.feat = 0
  mode : i.privileged = true → a.ctx = 7
  guard : a.guardOk i.guard = true

/-- The state in which the body of a word runs: its issue is counted (R418). -/
def State.issued (s : State) : State := s.count s.cur.1 1

/-- The state after a word whose body left the state `s` and the activation `a`: the activation goes on with the next word. -/
def State.retire (s : State) (a : Activation) : State := s.setAct s.cur.1 s.cur.2 { a with pc := a.pc + 1 }

/-- The state after the current activation has met a trap: it is taken, or the activation waits as it stands while the trap queue is full
(R120, log entry 96). -/
def State.trapped (s : State) (a : Activation) (t : Trap) : State := trapOrWait s s.cur.1 s.cur.2 a s.issued t

/-- The trap queue of the current activation's site has room, or the activation is a trap handler, whose trap enters no queue (R120,
R122). -/
def State.TrapRoom (s : State) (a : Activation) : Prop := a.trapHandler = true ∨ (s.site s.cur.1).seq.trapRoom = true

end Sys2Proof.Machine
end

