-- ==== Sys2Proof/Certificates/Slice0/Obligations.lean ====
section
/-! DEFINITION. The statements for the provers, and the terms they are written in. -/

namespace Sys2Proof.Claims

open Sys2Proof Sys2Proof.Machine

/-- The word `i` completes: it leaves the activation as `u`, which goes on with the next word. -/
def Goes (i : Instr) (s : State) (u : Activation) : Prop := exec i s = .next (s.issued.retire u)

/-- The word writes `v` to register `d`, and nothing else but the pc and the count of issued words changes. -/
def Writes (i : Instr) (s : State) (t : Activation) (d : Reg) (v : Word) : Prop := exec i s = .next (s.issued.retire (t.setReg d v))

/-- The word writes predicate `p`. -/
def Sets (i : Instr) (s : State) (t : Activation) (p : PredReg) (v : Bool) : Prop := exec i s = .next (s.issued.retire (t.setPred p v))

/-- The word adds these effects to the activation's buffer (R15). -/
def Pushes (i : Instr) (s : State) (t : Activation) (l : List Effect) : Prop :=
  exec i s = .next (s.issued.retire { t with effects := t.effects ++ l })

/-- The word takes a trap, or waits as it stands while the trap queue of its site is full (R120; log entry 96). -/
def Traps (i : Instr) (s : State) (t : Activation) (x : Trap) : Prop :=
  (s.TrapRoom t → exec i s = .next (s.issued.takeTrap s.cur.1 s.cur.2 t x)) ∧ (¬s.TrapRoom t → exec i s = .next s)

end Sys2Proof.Claims

open Sys2Proof Sys2Proof.Machine Sys2Proof.Claims

/-! ### Encoding -/

/-- Every field of every well-formed word is read back: decoding the word of an instruction gives the instruction (R48 to R55). -/
def Obligations.DecodeOfEncode : Prop := ∀ i : Instr, i.isWord = true → i.wellFormed = true → decode (encode i) = .ok i

/-- A word that decodes is the one word of its instruction, which is well formed: no bit of an accepted word goes unread, and a
must-be-zero bit that is set is refused (R48 to R53). -/
def Obligations.EncodeOfDecode : Prop :=
  ∀ (w : Word) (i : Instr), decode w = .ok i → encode i = w ∧ i.isWord = true ∧ i.wellFormed = true

/-! ### Group 0 -/

/-- The two-operand integer forms (R128): what each writes to D. -/
def Obligations.IntegerResults : Prop :=
  ∀ (g : Guard) (d a b : Reg) (s : State) (t : Activation),
    let x := t.reg a
    let y := t.reg b
    let n := y.toNat % 64
    (Ready (.nop g) s t → Goes (.nop g) s t) ∧
    (Ready (.add g d a b) s t → ∃ v : Word, v.toNat = (x.toNat + y.toNat) % 2 ^ 64 ∧ Writes (.add g d a b) s t d v) ∧
    (Ready (.sub g d a b) s t → ∃ v : Word, v.toNat = (x.toNat + (2 ^ 64 - y.toNat)) % 2 ^ 64 ∧ Writes (.sub g d a b) s t d v) ∧
    (Ready (.mul g d a b) s t → ∃ v : Word, v.toNat = x.toNat * y.toNat % 2 ^ 64 ∧ Writes (.mul g d a b) s t d v) ∧
    (Ready (.mulh g d a b) s t → ∃ v : Word, v.toInt = x.toInt * y.toInt / 2 ^ 64 ∧ Writes (.mulh g d a b) s t d v) ∧
    (Ready (.mulhn g d a b) s t → ∃ v : Word, v.toNat = x.toNat * y.toNat / 2 ^ 64 ∧ Writes (.mulhn g d a b) s t d v) ∧
    (Ready (.and g d a b) s t →
      ∃ v : Word, (∀ k, v.getLsbD k = (x.getLsbD k && y.getLsbD k)) ∧ Writes (.and g d a b) s t d v) ∧
    (Ready (.or g d a b) s t →
      ∃ v : Word, (∀ k, v.getLsbD k = (x.getLsbD k || y.getLsbD k)) ∧ Writes (.or g d a b) s t d v) ∧
    (Ready (.xor g d a b) s t →
      ∃ v : Word, (∀ k, v.getLsbD k = (x.getLsbD k ^^ y.getLsbD k)) ∧ Writes (.xor g d a b) s t d v) ∧
    (Ready (.andn g d a b) s t →
      ∃ v : Word, (∀ k, v.getLsbD k = (x.getLsbD k && !y.getLsbD k)) ∧ Writes (.andn g d a b) s t d v) ∧
    (Ready (.shl g d a b) s t → ∃ v : Word, v.toNat = x.toNat * 2 ^ n % 2 ^ 64 ∧ Writes (.shl g d a b) s t d v) ∧
    (Ready (.shr g d a b) s t → ∃ v : Word, v.toNat = x.toNat / 2 ^ n ∧ Writes (.shr g d a b) s t d v) ∧
    (Ready (.sra g d a b) s t → ∃ v : Word, v.toInt = x.toInt / 2 ^ n ∧ Writes (.sra g d a b) s t d v) ∧
    (Ready (.rotl g d a b) s t →
      ∃ v : Word, (∀ k < 64, v.getLsbD ((k + n) % 64) = x.getLsbD k) ∧ Writes (.rotl g d a b) s t d v) ∧
    (Ready (.min g d a b) s t → ∃ v : Word, v.toInt = min x.toInt y.toInt ∧ Writes (.min g d a b) s t d v) ∧
    (Ready (.max g d a b) s t → ∃ v : Word, v.toInt = max x.toInt y.toInt ∧ Writes (.max g d a b) s t d v) ∧
    (Ready (.minn g d a b) s t → ∃ v : Word, v.toNat = min x.toNat y.toNat ∧ Writes (.minn g d a b) s t d v) ∧
    (Ready (.maxn g d a b) s t → ∃ v : Word, v.toNat = max x.toNat y.toNat ∧ Writes (.maxn g d a b) s t d v)

/-- The divisions (R128): truncation toward zero, the wrapped quotient of −2^63 by −1, and a divisor of 0, which gives quotient 2^64 − 1
and remainder A and raises DZ. -/
def Sys2Proof.Claims.DivisionResults : Prop :=
  ∀ (g : Guard) (d a b : Reg) (s : State) (t : Activation),
    let x := t.reg a
    let y := t.reg b
    let u := t.raise (s.cregs s.cur.1 t.ctx).exc { dz := true }
    (Ready (.div g d a b) s t →
      (y = 0 → Goes (.div g d a b) s (u.setReg d (BitVec.allOnes 64))) ∧
      (y ≠ 0 → ¬(x.toInt = -2 ^ 63 ∧ y.toInt = -1) →
        ∃ v : Word, v.toInt = x.toInt.tdiv y.toInt ∧ Writes (.div g d a b) s t d v) ∧
      (x.toInt = -2 ^ 63 → y.toInt = -1 → Writes (.div g d a b) s t d x)) ∧
    (Ready (.rem g d a b) s t →
      (y = 0 → Goes (.rem g d a b) s (u.setReg d x)) ∧
      (y ≠ 0 → ∃ v : Word, v.toInt = x.toInt - y.toInt * x.toInt.tdiv y.toInt ∧ Writes (.rem g d a b) s t d v)) ∧
    (Ready (.divn g d a b) s t →
      (y = 0 → Goes (.divn g d a b) s (u.setReg d (BitVec.allOnes 64))) ∧
      (y ≠ 0 → ∃ v : Word, v.toNat = x.toNat / y.toNat ∧ Writes (.divn g d a b) s t d v)) ∧
    (Ready (.remn g d a b) s t →
      (y = 0 → Goes (.remn g d a b) s (u.setReg d x)) ∧
      (y ≠ 0 → ∃ v : Word, v.toNat = x.toNat - y.toNat * (x.toNat / y.toNat) ∧ Writes (.remn g d a b) s t d v))

/-- `bitop` (R129): counts of leading and trailing zeros, which are 64 for 0, of one bits, and the two reversals. -/
def Sys2Proof.Claims.BitCounts : Prop :=
  ∀ (g : Guard) (d a : Reg) (s : State) (t : Activation),
    let x := t.reg a
    (Ready (.bitop g .clz d a) s t →
      ∃ v : Word, Writes (.bitop g .clz d a) s t d v ∧ v.toNat ≤ 64 ∧ x.toNat < 2 ^ (64 - v.toNat) ∧
        (x ≠ 0 → 2 ^ (63 - v.toNat) ≤ x.toNat) ∧ (x = 0 → v = 64)) ∧
    (Ready (.bitop g .ctz d a) s t →
      ∃ v : Word, Writes (.bitop g .ctz d a) s t d v ∧ v.toNat ≤ 64 ∧ (∀ k < v.toNat, x.getLsbD k = false) ∧
        (x ≠ 0 → x.getLsbD v.toNat = true) ∧ (x = 0 → v = 64)) ∧
    (Ready (.bitop g .popc d a) s t →
      ∃ v : Word, Writes (.bitop g .popc d a) s t d v ∧ v.toNat = ((List.range 64).filter fun k => x.getLsbD k).length) ∧
    (Ready (.bitop g .brev d a) s t →
      ∃ v : Word, Writes (.bitop g .brev d a) s t d v ∧ ∀ k < 64, v.getLsbD k = x.getLsbD (63 - k)) ∧
    (Ready (.bitop g .bswap d a) s t →
      ∃ v : Word, Writes (.bitop g .bswap d a) s t d v ∧ ∀ k < 8, ∀ j < 8, v.getLsbD (8 * k + j) = x.getLsbD (8 * (7 - k) + j))

/-- Divisions and bit counts (R128, R129). -/
def Obligations.DivisionsAndBitCounts : Prop := Claims.DivisionResults ∧ Claims.BitCounts

/-- The value of a comparison of R131. -/
def Sys2Proof.Claims.compares (c : Cond) (x y : Word) : Prop :=
  match c with
  | .eq => x = y
  | .ne => x ≠ y
  | .lt => x.toInt < y.toInt
  | .le => x.toInt ≤ y.toInt
  | .gt => x.toInt > y.toInt
  | .ge => x.toInt ≥ y.toInt
  | .lo => x.toNat < y.toNat
  | .ls => x.toNat ≤ y.toNat
  | .hi => x.toNat > y.toNat
  | .hs => x.toNat ≥ y.toNat

/-- The immediate forms and the bit fields (R132, R133). A bit field is inside the register, as its well-formedness says. -/
def Sys2Proof.Claims.ImmediateResults : Prop :=
  ∀ (g : Guard) (d a : Reg) (imm : BitVec 32) (lsb n : BitVec 6) (w : BitVec 7) (s : State) (t : Activation),
    let x := t.reg a
    let i : Word := imm.signExtend 64
    (Ready (.movi g false d imm) s t → Writes (.movi g false d imm) s t d i) ∧
    (Ready (.movi g true d imm) s t → Writes (.movi g true d imm) s t d (imm ++ (t.reg d).extractLsb' 0 32)) ∧
    (Ready (.addi g d a imm) s t → Writes (.addi g d a imm) s t d (x + i)) ∧
    (Ready (.logi g .and d a imm) s t → Writes (.logi g .and d a imm) s t d (x &&& i)) ∧
    (Ready (.logi g .or d a imm) s t → Writes (.logi g .or d a imm) s t d (x ||| i)) ∧
    (Ready (.logi g .xor d a imm) s t → Writes (.logi g .xor d a imm) s t d (x ^^^ i)) ∧
    (Ready (.logi g .andn d a imm) s t → Writes (.logi g .andn d a imm) s t d (x &&& ~~~i)) ∧
    (Ready (.shfi g .shl d a n) s t → Writes (.shfi g .shl d a n) s t d (x <<< n.toNat)) ∧
    (Ready (.shfi g .shr d a n) s t → Writes (.shfi g .shr d a n) s t d (x >>> n.toNat)) ∧
    (Ready (.shfi g .sra d a n) s t → Writes (.shfi g .sra d a n) s t d (x.sshiftRight n.toNat)) ∧
    (Ready (.shfi g .rotl d a n) s t → Writes (.shfi g .rotl d a n) s t d (x.rotateLeft n.toNat)) ∧
    (Ready (.bfx g d a lsb w false) s t → (Instr.bfx g d a lsb w false).wellFormed = true →
      ∃ v : Word, Writes (.bfx g d a lsb w false) s t d v ∧
        ∀ k, v.getLsbD k = (decide (k < w.toNat) && x.getLsbD (lsb.toNat + k))) ∧
    (Ready (.bfx g d a lsb w true) s t → (Instr.bfx g d a lsb w true).wellFormed = true →
      ∃ v : Word, Writes (.bfx g d a lsb w true) s t d v ∧
        ∀ k < 64, v.getLsbD k = x.getLsbD (lsb.toNat + min k (w.toNat - 1))) ∧
    (Ready (.bfi g d a lsb w) s t → (Instr.bfi g d a lsb w).wellFormed = true →
      ∃ v : Word, Writes (.bfi g d a lsb w) s t d v ∧
        ∀ k < 64, v.getLsbD k =
          (if lsb.toNat ≤ k ∧ k < lsb.toNat + w.toNat then x.getLsbD (k - lsb.toNat) else (t.reg d).getLsbD k))

/-- `cmp` and `cmpi` write a predicate (R131): lt le gt ge signed, lo ls hi hs unsigned. -/
def Sys2Proof.Claims.ComparisonResults : Prop :=
  ∀ (g : Guard) (c : Cond) (p : PredReg) (a b : Reg) (imm : BitVec 32) (s : State) (t : Activation),
    (Ready (.cmp g c p a b) s t → ∃ v : Bool, (v = true ↔ compares c (t.reg a) (t.reg b)) ∧ Sets (.cmp g c p a b) s t p v) ∧
    (Ready (.cmpi g c p a imm) s t →
      ∃ v : Bool, (v = true ↔ compares c (t.reg a) (imm.signExtend 64)) ∧ Sets (.cmpi g c p a imm) s t p v)

/-- Immediate forms, bit fields and comparisons (R131 to R133). -/
def Obligations.ImmediatesAndComparisons : Prop := Claims.ImmediateResults ∧ Claims.ComparisonResults

/-- `sel` is format R: it writes reg(A) if pC, else reg(B); a word with C[3] or a bit of FN set is no instruction (R130). -/
def Obligations.SelectByPredicate : Prop :=
  (∀ (g : Guard) (d a b : Reg) (p : PredReg) (s : State) (t : Activation),
    Ready (.sel g d a b p) s t → Writes (.sel g d a b p) s t d (if t.predOf p then t.reg a else t.reg b)) ∧
  (∀ (g : Guard) (d a b : Reg) (c : BitVec 4) (fn : BitVec 8),
    decode (wordR 0x19 g d a b c fn) =
      if fn ≠ 0 then .error .illegalField
      else if c.getLsbD 3 then .error .mustBeZero
      else .ok (.sel g d a b (c.extractLsb' 0 3)))

/-! ### Group 1 -/

/-- The draw of a rounding, and the state after it: .sr steps the context's scalar generator, and the draw is its top 16 bits (R169). -/
def Sys2Proof.Claims.drawn (s : State) (t : Activation) (rnd : Rnd) : Nat × State :=
  if rnd = .sr then
    (drawOf (genStep (s.cregs s.cur.1 t.ctx).gseq), s.issued.modCregs s.cur.1 t.ctx fun c => { c with gseq := genStep c.gseq })
  else (0, s.issued)

/-- The word writes the exact result `r`, rounded once into the precision, and its exceptions are raised. -/
def Sys2Proof.Claims.Floats (i : Instr) (pr : Prec) (rnd : Rnd) (d : Reg) (s : State) (t : Activation) (r : Val × Exc) : Prop :=
  let v := roundTo (Prec.fmt pr) rnd false (drawn s t rnd).1 r.1
  exec i s =
    .next ((drawn s t rnd).2.retire ((t.raise (s.cregs s.cur.1 t.ctx).exc (r.2.or v.2)).setReg d (floatOut pr v.1)))

/-- The word writes the value rounded to an integer within the bounds, and raises INV where it cannot. -/
def Sys2Proof.Claims.Rounds (i : Instr) (lo hi : Int) (rnd : Rnd) (d : Reg) (s : State) (t : Activation) (x : Val) : Prop :=
  let r := roundInt lo hi rnd (drawn s t rnd).1 x
  exec i s = .next ((drawn s t rnd).2.retire ((t.raise (s.cregs s.cur.1 t.ctx).exc r.2).setReg d (BitVec.ofInt 64 r.1))) ∧
  lo ≤ r.1 ∧ r.1 ≤ hi ∧ (x.isNan = true → r.1 = 0 ∧ r.2.inv = true)

/-- The float arithmetic forms (R134): one rounding of the exact result under RND into the precision of FN[0], the exceptions raised, a
draw from the context's scalar generator under .sr alone; fmin and fmax round nothing and raise nothing. -/
def Sys2Proof.Claims.FloatResults : Prop :=
  ∀ (g : Guard) (pr : Prec) (rnd : Rnd) (d a b c : Reg) (s : State) (t : Activation),
    let x := floatIn pr (t.reg a)
    let y := floatIn pr (t.reg b)
    let z := floatIn pr (t.reg c)
    (Ready (.fadd g pr rnd d a b) s t → Floats (.fadd g pr rnd d a b) pr rnd d s t (Val.add rnd x y)) ∧
    (Ready (.fsub g pr rnd d a b) s t → Floats (.fsub g pr rnd d a b) pr rnd d s t (Val.add rnd x y.neg)) ∧
    (Ready (.fmul g pr rnd d a b) s t → Floats (.fmul g pr rnd d a b) pr rnd d s t (Val.mul x y)) ∧
    (Ready (.fma g pr rnd d a b c) s t → Floats (.fma g pr rnd d a b c) pr rnd d s t (Val.fma rnd x y z)) ∧
    (Ready (.fdiv g pr rnd d a b) s t → Floats (.fdiv g pr rnd d a b) pr rnd d s t (Val.div x y)) ∧
    (Ready (.fsqrt g pr rnd d a) s t →
      Floats (.fsqrt g pr rnd d a) pr rnd d s t (Val.sqrt (Prec.fmt pr).t (Prec.fmt pr).emin x)) ∧
    (Ready (.fmin g pr d a b) s t → Writes (.fmin g pr d a b) s t d (floatOut pr (x.minNum y))) ∧
    (Ready (.fmax g pr d a b) s t → Writes (.fmax g pr d a b) s t d (floatOut pr (x.maxNum y)))

/-- Comparisons, conversions and classes of Floats (R135 to R137). An order comparison raises INV on a NaN; a conversion to an integer
answers within the bounds of its type. -/
def Sys2Proof.Claims.FloatConversions : Prop :=
  ∀ (g : Guard) (pr : Prec) (rnd : Rnd) (c : FCond) (p : PredReg) (d a b : Reg) (s : State) (t : Activation),
    let x := floatIn pr (t.reg a)
    let y := floatIn pr (t.reg b)
    let exc := (s.cregs s.cur.1 t.ctx).exc
    (Ready (.fcmp g pr c p a b) s t →
      Goes (.fcmp g pr c p a b) s ((t.raise exc (fcompare c x y).2).setPred p (fcompare c x y).1) ∧
      ((x.isNan || y.isNan) = true → (fcompare c x y).1 = (c == .ne || c == .un) ∧
        (fcompare c x y).2.inv = !(c == .eq || c == .ne || c == .un))) ∧
    (Ready (.fcvt g pr rnd .cvf d a) s t →
      Floats (.fcvt g pr rnd .cvf d a) pr rnd d s t (floatIn (otherPrec pr) (t.reg a), Exc.none)) ∧
    (Ready (.fcvt g pr rnd .fri d a) s t →
      Floats (.fcvt g pr rnd .fri d a) pr rnd d s t (Val.ofInt (t.reg a).toInt, Exc.none)) ∧
    (Ready (.fcvt g pr rnd .frn d a) s t →
      Floats (.fcvt g pr rnd .frn d a) pr rnd d s t (Val.ofInt (t.reg a).toNat, Exc.none)) ∧
    (Ready (.fcvt g pr rnd .toi d a) s t → Rounds (.fcvt g pr rnd .toi d a) (-2 ^ 63) (2 ^ 63 - 1) rnd d s t x) ∧
    (Ready (.fcvt g pr rnd .ton d a) s t → Rounds (.fcvt g pr rnd .ton d a) 0 (2 ^ 64 - 1) rnd d s t x) ∧
    (Ready (.fcls g pr d a) s t →
      ∃ k < 9, Writes (.fcls g pr d a) s t d (BitVec.ofNat 64 (2 ^ k)) ∧ (k = 8 ↔ x.isNan = true) ∧
        (k = 0 ↔ x = .inf true) ∧ (k = 7 ↔ x = .inf false) ∧ (k = 3 ↔ x = .fin true 0) ∧ (k = 4 ↔ x = .fin false 0))

/-- Float arithmetic, comparison, conversion and classes (R134 to R137). -/
def Obligations.FloatingPoint : Prop := Claims.FloatResults ∧ Claims.FloatConversions

/-- Rounding to nearest even, and the directed roundings, of an exact magnitude of at least 0 (R168): the integer that replaces it is next
to it, a tie goes to the even one, and the directed roundings stay on their side. -/
def Obligations.RoundingIsNearest : Prop :=
  ∀ (pos : Bool) (dr : Nat) (q : Rat),
    (let n := roundQ .rne pos dr q
     2 * q ≤ 2 * (n : Rat) + 1 ∧ 2 * (n : Rat) ≤ 2 * q + 1 ∧ (2 * (n : Rat) = 2 * q + 1 ∨ 2 * q = 2 * (n : Rat) + 1 → n % 2 = 0)) ∧
    (let n := roundQ .rtz pos dr q
     (n : Rat) ≤ q ∧ q < (n : Rat) + 1) ∧
    (let n := roundQ .rup true dr q
     q ≤ (n : Rat) ∧ (n : Rat) < q + 1) ∧
    (let n := roundQ .rdn true dr q
     (n : Rat) ≤ q ∧ q < (n : Rat) + 1) ∧
    (dr < 65536 → let n := roundQ .sr pos dr q
     (n : Rat) ≤ q + 1 ∧ q < (n : Rat) + 1)

/-- Addresses, hashes, predicates, clamps and absolute values (R138 to R140, R142, R143). -/
def Obligations.ScalarResults : Prop :=
  ∀ (g : Guard) (sh : BitVec 2) (nb : BitVec 7) (imm : BitVec 32) (d a b c : Reg) (pd pa pb : PredReg) (s : State) (t : Activation),
    let x := t.reg a
    let y := t.reg b
    let z := t.reg c
    (Ready (.lea g sh d a b imm) s t →
      ∃ v : Word, v.toInt = (x.toInt + y.toInt * 2 ^ sh.toNat + imm.toInt).bmod (2 ^ 64) ∧ Writes (.lea g sh d a b imm) s t d v) ∧
    (Ready (.mhash g nb d a imm) s t → (Instr.mhash g nb d a imm).wellFormed = true →
      ∃ v : Word, v.toNat = x.toNat * imm.toNat % 2 ^ 64 / 2 ^ (64 - nb.toNat) ∧ Writes (.mhash g nb d a imm) s t d v) ∧
    (Ready (.pop g .and pd pa pb) s t → Sets (.pop g .and pd pa pb) s t pd (t.predOf pa && t.predOf pb)) ∧
    (Ready (.pop g .or pd pa pb) s t → Sets (.pop g .or pd pa pb) s t pd (t.predOf pa || t.predOf pb)) ∧
    (Ready (.pop g .xor pd pa pb) s t → Sets (.pop g .xor pd pa pb) s t pd (t.predOf pa ^^ t.predOf pb)) ∧
    (Ready (.pop g .andn pd pa pb) s t → Sets (.pop g .andn pd pa pb) s t pd (t.predOf pa && !t.predOf pb)) ∧
    (Ready (.pop g .not pd pa pb) s t → Sets (.pop g .not pd pa pb) s t pd (!t.predOf pa)) ∧
    (Ready (.pop g .set pd pa pb) s t → Sets (.pop g .set pd pa pb) s t pd true) ∧
    (Ready (.pop g .clr pd pa pb) s t → Sets (.pop g .clr pd pa pb) s t pd false) ∧
    (Ready (.pmov g false d) s t →
      ∃ v : Word, Writes (.pmov g false d) s t d v ∧ ∀ k, v.getLsbD k = if k < 8 then t.predOf (BitVec.ofNat 3 k) else false) ∧
    (Ready (.pmov g true a) s t →
      ∃ u : Activation, Goes (.pmov g true a) s u ∧ u = { t with preds := u.preds } ∧
        ∀ p : PredReg, p ≠ 0 → u.predOf p = x.getLsbD p.toNat) ∧
    (Ready (.clamp g .signed d a b c) s t →
      ∃ v : Word, v.toInt = min (max x.toInt y.toInt) z.toInt ∧ Writes (.clamp g .signed d a b c) s t d v) ∧
    (Ready (.clamp g .unsigned d a b c) s t →
      ∃ v : Word, v.toNat = min (max x.toNat y.toNat) z.toNat ∧ Writes (.clamp g .unsigned d a b c) s t d v) ∧
    (Ready (.clamp g .single d a b c) s t →
      Writes (.clamp g .single d a b c) s t d
        (floatOut .single (if (floatIn .single x).isNan then .nan
          else ((floatIn .single x).maxNum (floatIn .single y)).minNum (floatIn .single z)))) ∧
    (Ready (.clamp g .double d a b c) s t →
      Writes (.clamp g .double d a b c) s t d
        (floatOut .double (if (floatIn .double x).isNan then .nan
          else ((floatIn .double x).maxNum (floatIn .double y)).minNum (floatIn .double z)))) ∧
    (Ready (.iabs g false d a) s t → Writes (.iabs g false d a) s t d (if x.toInt < 0 then -x else x)) ∧
    (Ready (.iabs g true d a) s t → Writes (.iabs g true d a) s t d (-x))

/-! ### Group 2 -/

/-- The frame that a frame operand names: act.fp for register 0 (R145). -/
def Sys2Proof.Claims.frameOf (t : Activation) (a : Reg) : Nat := if a = 0 then t.fp.toNat else (t.reg a).toNat

/-- `cnt` slots from `off` of the frame at `fp` are within reach of the activation (R99): the frame is allocated, its owner is the activation's
context or the context is 7, and the slots lie in the frame. -/
def Sys2Proof.Claims.Reaches (s : State) (t : Activation) (fp off cnt : Nat) : Prop :=
  fp < 2 ^ 17 ∧ ∃ f, s.frame? s.cur.1 fp = some f ∧ (t.ctx = 7 ∨ f.owner = t.ctx) ∧ off + cnt ≤ 8 * 2 ^ f.cls

/-- Frame reads take place at issue, frame writes and clears at commit (R145). -/
def Sys2Proof.Claims.FrameReach : Prop :=
  ∀ (g : Guard) (d a : Reg) (n cnt : BitVec 8) (s : State) (t : Activation),
    let fp := frameOf t a
    let v := s.fslot s.cur.1 (fp + n.toNat)
    (Reaches s t fp n.toNat 1 → Ready (.ldf g false d a n) s t →
      Goes (.ldf g false d a n) s ({ t with pz := t.pz || v.psn }.setReg d v.value)) ∧
    (Reaches s t fp n.toNat 1 → Ready (.ldf g true d a n) s t →
      ∃ x : Word, Writes (.ldf g true d a n) s t d x ∧
        x.toNat = v.pres.toNat + v.psn.toNat * 2 + v.port.toNat * 4 + v.stamp.toNat * 2 ^ 16) ∧
    (Reaches s t fp n.toNat 1 → Ready (.stf g d a n) s t → Pushes (.stf g d a n) s t [.frameWrite fp n.toNat (t.reg d)]) ∧
    (Reaches s t fp n.toNat (cnt.toNat + 1) → Ready (.fclr g a n cnt) s t →
      Pushes (.fclr g a n cnt) s t [.frameClear fp n.toNat (cnt.toNat + 1)]) ∧
    (Reaches s t (t.reg a).toNat 0 0 → freedBefore t (t.reg a).toNat = false → Ready (.ffree g a) s t →
      Pushes (.ffree g a) s t [.frameFree (t.reg a).toNat]) ∧
    (Reaches s t (t.reg a).toNat 0 0 → freedBefore t (t.reg a).toNat = true → Ready (.ffree g a) s t →
      Traps (.ffree g a) s t { code := 0x0107, detail := BitVec.ofNat 64 ((t.reg a).toNat + 3 * 2 ^ 25) })

/-- What R99 refuses takes 0x0107, with the reason: 0 not allocated, 1 another context, 2 offset beyond the size. -/
def Sys2Proof.Claims.BadFrameTraps : Prop :=
  ∀ (g : Guard) (side : Bool) (d a : Reg) (n : BitVec 8) (s : State) (t : Activation),
    let fp := frameOf t a
    let trap (why : Nat) : Trap := { code := 0x0107, detail := BitVec.ofNat 64 (fp % 2 ^ 17 + n.toNat * 2 ^ 17 + why * 2 ^ 25) }
    ∀ i ∈ [Instr.ldf g side d a n, Instr.stf g d a n], Ready i s t →
      ((2 ^ 17 ≤ fp ∨ s.frame? s.cur.1 fp = none) → Traps i s t (trap 0)) ∧
      (fp < 2 ^ 17 → ∀ f, s.frame? s.cur.1 fp = some f →
        (t.ctx ≠ 7 ∧ f.owner ≠ t.ctx → Traps i s t (trap 1)) ∧
        ((t.ctx = 7 ∨ f.owner = t.ctx) → 8 * 2 ^ f.cls ≤ n.toNat → Traps i s t (trap 2)))

/-- Frame operands within reach, and the traps of those that are not (R99, R145). -/
def Obligations.FrameOperands : Prop := Claims.FrameReach ∧ Claims.BadFrameTraps

/-- The target of index `k` in the page of the activation's context. -/
def Sys2Proof.Claims.entryOf (s : State) (t : Activation) (k : BitVec 9) : Word := entryWord s s.cur.1 t.ctx k.toNat

/-- An entry that the activation may name (R10, R42): of its own context unless it runs in context 7, and of a site of the region that holds
that context slot here, or remote. -/
def Sys2Proof.Claims.MayName (s : State) (t : Activation) (e : Word) : Prop :=
  let x := Entry.of e
  (t.ctx = 7 ∨ x.ctx.toNat = t.ctx) ∧
  (x.remote = true ∨ ∃ k, s.slot? s.cur.1 x.ctx.toNat = some k ∧ x.dx.toNat < k.w ∧ x.dy.toNat < k.h)

/-- make of R148: a token of the class to the entry, with the FP and ITN that F and I give. -/
def Sys2Proof.Claims.made (t : Activation) (f : TF) (cls : BitVec 2) (e : Word) (port : Bool) (v : Word) : Effect :=
  let x := Entry.of e
  .send
    { cls := cls, psn := false, ctx := x.ctx, dx := x.dx, dy := x.dy, ip := x.ip, port := port,
      fp := if f.f = 0 then t.fp else (t.reg f.f).truncate 17, itn := if f.i = 0 then t.itn else (t.reg f.i).truncate 16,
      smp := false, payload := v }
    x.remote x.link

/-- The value of a T word: reg(V), or sext(IMM18, 18) where V is s0 (R148). -/
def Sys2Proof.Claims.valueOf (t : Activation) (f : TF) (imm : BitVec 18) : Word := if f.v = 0 then imm.signExtend 64 else t.reg f.v

/-- The send family buffers the tokens of R148: the port of a first target is XORed with the word's. -/
def Sys2Proof.Claims.SendResults : Prop :=
  ∀ (f : TF) (imm : BitVec 18) (cop rank : BitVec 8) (x : Reg) (p : PredReg) (t2 : BitVec 9) (s : State) (t : Activation),
    let e := entryOf s t f.tix
    let e2 := entryOf s t t2
    let port (e : Word) : Bool := (Entry.of e).port ^^ f.port
    (MayName s t e → Ready (.send f .scalar imm) s t →
      Pushes (.send f .scalar imm) s t [made t f 0 e (port e) (valueOf t f imm)]) ∧
    (MayName s t e → Ready (.send f .ctl imm) s t → Pushes (.send f .ctl imm) s t [made t f 1 e (port e) (valueOf t f imm)]) ∧
    (MayName s t e → (Desc.of (valueOf t f imm)).wellFormed = true → Ready (.send f .tile imm) s t →
      Pushes (.send f .tile imm) s t [made t f 0 e (port e) (valueOf t f imm)]) ∧
    (MayName s t e → t.ctx = 7 → Ready (.send f .sys imm) s t →
      Pushes (.send f .sys imm) s t [made t f 3 e (port e) (valueOf t f imm)]) ∧
    (MayName s t e → Ready (.sendc f cop rank) s t →
      ∃ v : Word, Pushes (.sendc f cop rank) s t [made t f 1 e (port e) v] ∧
        v.toNat = cop.toNat * 2 ^ 56 + rank.toNat * 2 ^ 48 + (t.reg f.v).toNat % 2 ^ 48) ∧
    (MayName s t (t.reg x) → badEntry s s.cur.1 t.ctx (t.reg x) = false → Ready (.sendx f x imm) s t →
      Pushes (.sendx f x imm) s t [made t f 0 (t.reg x) (port (t.reg x)) (valueOf t f imm)]) ∧
    (MayName s t e → MayName s t e2 → Ready (.swt f t2 p) s t →
      Pushes (.swt f t2 p) s t
        [if t.predOf p then made t f 0 e (port e) (t.reg f.v) else made t f 0 e2 (Entry.of e2).port (t.reg f.v)]) ∧
    (MayName s t e → MayName s t e2 → Ready (.sendm f t2 imm) s t →
      Pushes (.sendm f t2 imm) s t
        [made t f 0 e (port e) (valueOf t f imm), made t f 0 e2 (Entry.of e2).port (valueOf t f imm)])

/-- A send that R42 or R10 forbids delivers nothing and traps: 0x0102 for another context's entry or for KIND 3, 0x0103 for an entry that
names no site of its region. -/
def Sys2Proof.Claims.SendRefusals : Prop :=
  ∀ (f : TF) (k : SendKind) (imm : BitVec 18) (x : Reg) (s : State) (t : Activation),
    let e := entryOf s t f.tix
    let outside (e : Word) : Prop :=
      (Entry.of e).remote = false ∧ ∀ r, s.slot? s.cur.1 (Entry.of e).ctx.toNat = some r → r.w ≤ (Entry.of e).dx.toNat ∨ r.h ≤ (Entry.of e).dy.toNat
    (Ready (.send f k imm) s t → t.ctx ≠ 7 → (k = .sys ∨ (Entry.of e).ctx.toNat ≠ t.ctx) →
      Traps (.send f k imm) s t { code := 0x0102, detail := encode (.send f k imm) }) ∧
    (Ready (.send f k imm) s t → (t.ctx = 7 ∨ k ≠ .sys ∧ (Entry.of e).ctx.toNat = t.ctx) → outside e →
      Traps (.send f k imm) s t { code := 0x0103, detail := e }) ∧
    (Ready (.sendx f x imm) s t → badEntry s s.cur.1 t.ctx (t.reg x) = true →
      Traps (.sendx f x imm) s t { code := 0x0109, detail := t.reg x }) ∧
    (Ready (.sendx f x imm) s t → badEntry s s.cur.1 t.ctx (t.reg x) = false → t.ctx ≠ 7 → (Entry.of (t.reg x)).ctx.toNat ≠ t.ctx →
      Traps (.sendx f x imm) s t { code := 0x0102, detail := encode (.sendx f x imm) })

/-- The tokens of the send family, and the sends that R42 and R10 forbid (R148). -/
def Obligations.SendFamily : Prop := Claims.SendResults ∧ Claims.SendRefusals

/-- The reply that a T word asks for: the entry with its port XORed with the word's, F and I (R51, R146). -/
def Sys2Proof.Claims.replyFor (s : State) (t : Activation) (f : TF) : Reply :=
  let e := entryOf s t f.tix
  { entry := e ^^^ (if f.port then 0x0000010000000000 else 0), fp := if f.f = 0 then t.fp else (t.reg f.f).truncate 17,
    itn := if f.i = 0 then t.itn else (t.reg f.i).truncate 16 }

/-- The layout of a group id (R116). -/
def Sys2Proof.Claims.GroupId (v : Word) : Prop :=
  v.toNat < 2 ^ 24 ∧ v.toNat / 2 ^ 12 < 2080 ∧ v.toNat / 2 ^ 6 % 2 ^ 6 = 0

/-- The group instructions commit their requests (R151); an id that breaks the layout of R116 traps at issue with 0x010B, whose DETAIL is the
id. -/
def Obligations.GroupRequests : Prop :=
  ∀ (f : TF) (sc : BitVec 4) (s : State) (t : Activation),
    let id := t.reg f.v
    (GroupId id →
      (Ready (.join f) s t → Pushes (.join f) s t [.group .join id 1 (some (replyFor s t f))]) ∧
      (Ready (.leave f) s t → Pushes (.leave f) s t [.group .leave id 1 none]) ∧
      (Ready (.arrive f sc) s t → Pushes (.arrive f sc) s t [.group .arrive id sc.toNat none]) ∧
      (Ready (.wait f) s t → Pushes (.wait f) s t [.group .wait id 1 (some (replyFor s t f))])) ∧
    (¬GroupId id → ∀ i ∈ [Instr.join f, .leave f, .arrive f sc, .wait f], Ready i s t → Traps i s t { code := 0x010B, detail := id })

/-- Frames, tile handles and services asked for at commit (R146, R152 to R154, R156). -/
def Obligations.CommittedRequests : Prop :=
  ∀ (f : TF) (g : Guard) (a : Reg) (cls level : BitVec 3) (useRes sel : Bool) (kind : BitVec 4) (sv : BitVec 18) (s : State) (t : Activation),
    let v := t.reg f.v
    let h := t.reg a
    (Ready (.falloc f cls level useRes) s t →
      (useRes = true → ∃ p, s.page? s.cur.1 t.ctx = some p ∧ (p.reserve.getD level.toNat (0, 0)).1 = cls.toNat ∧
        (p.reserve.getD level.toNat (0, 0)).2 ≠ 0) →
      Pushes (.falloc f cls level useRes) s t [.frameAlloc cls.toNat level.toNat useRes (replyFor s t f)]) ∧
    (Ready (.halloc f kind) s t → (kind = 4 → t.ctx = 7) →
      (Desc.of (Desc.word s.cur.1 0 0 kind.toNat (v.toNat % 2 ^ 32))).wellFormed = true →
      Pushes (.halloc f kind) s t [.halloc (v.truncate 32) kind.toNat (replyFor s t f)]) ∧
    (Ready (.hinfo f sel) s t → (Desc.of v).wellFormed = true →
      Pushes (.hinfo f sel) s t [.handle (.info sel) v (some (replyFor s t f))]) ∧
    ((Desc.of h).wellFormed = true → ((Desc.of h).site = s.cur.1 → ∃ x, s.liveTile? s.cur.1 (Desc.of h) = some x) →
      (Ready (.hinc g a) s t → Pushes (.hinc g a) s t [.handle .inc h none]) ∧
      (Ready (.hdec g a) s t → Pushes (.hdec g a) s t [.handle .dec h none])) ∧
    (Ready (.sys f sv) s t → Pushes (.sys f sv) s t [.service sv.toNat v (replyFor s t f)])

/-- act.itn starts as the firing token's ITN; `wadv` advances it by 1 modulo 2^16, and 0xFFFF to 0 without a fault; a send whose I field is s0
carries act.itn as it stands when the send issues; s4 keeps the value it received at firing (R115). -/
def Obligations.IterationNumbers : Prop :=
  (∀ f : Fired, f.start.itn = f.tok.itn ∧ f.start.reg 4 = f.tok.itn.zeroExtend 64) ∧
  (∀ (g : Guard) (d : Reg) (s : State) (t : Activation), Ready (.wadv g d) s t →
    ∃ u : Activation, Goes (.wadv g d) s u ∧ u.itn.toNat = (t.itn.toNat + 1) % 2 ^ 16 ∧
      u = ({ t with itn := u.itn }).setReg d (u.itn.zeroExtend 64) ∧ (d ≠ 4 → u.reg 4 = t.reg 4)) ∧
  (∀ (f : TF) (imm : BitVec 18) (s : State) (t : Activation), f.i = 0 → MayName s t (entryOf s t f.tix) →
    Ready (.send f .scalar imm) s t →
    ∃ (x : Token) (rem : Bool) (link : Nat), x.itn = t.itn ∧ Pushes (.send f .scalar imm) s t [.send x rem link])

/-- The context 7 handler's return from a trap, poison, `wadv` and `omrk.tag`: what each does at issue (R149, R157, R158, R433). -/
def Sys2Proof.Claims.ControlResults : Prop :=
  ∀ (g : Guard) (d a : Reg) (p : PredReg) (x : SF) (s : State) (t : Activation),
    let fp := (t.reg a).toNat
    (Ready (.wadv g d) s t → Goes (.wadv g d) s ({ t with itn := t.itn + 1 }.setReg d ((t.itn + 1).zeroExtend 64))) ∧
    (∀ f, s.frame? s.cur.1 fp = some f → f.origin = .trapFrame → freedBefore t fp = false →
      (Ready (.resmGo g a) s t → Pushes (.resmGo g a) s t [.resume 0 fp]) ∧
      (Ready (.resmDrop g a) s t → Pushes (.resmDrop g a) s t [.resume 1 fp]) ∧
      (Ready (.resmStep g a) s t → Pushes (.resmStep g a) s t [.resume 2 fp])) ∧
    (Ready (.psn g (.test p)) s t → Sets (.psn g (.test p)) s t p t.pz) ∧
    (Ready (.psn g .set) s t → Goes (.psn g .set) s { t with pz := true }) ∧
    (Ready (.psn g .clr) s t → Goes (.psn g .clr) s { t with pz := false }) ∧
    (Ready (.omrkTag x) s t → Goes (.omrkTag x) s { t with tag := true })

/-- `ent` opens a handler (R50, R53, R109): it runs to IP + LEN, a two-arm entry to ALT in arm A and from ALT in arm B; its FEAT must be covered by the
site's %feat, and anywhere but at the activation's IP it is 0x0101. -/
def Sys2Proof.Claims.EntryWords : Prop :=
  ∀ (e : EntF) (s : State) (t : Activation), Ready (.ent e) s t →
    let last := t.ip.toNat + e.len.toNat
    let bad := Traps (.ent e) s t { code := 0x0101, detail := encode (.ent e) }
    (t.pc ≠ t.ip.toNat ∨ e.feat &&& ~~~(s.site s.cur.1).feat ≠ 0 → bad) ∧
    (t.pc = t.ip.toNat → e.feat &&& ~~~(s.site s.cur.1).feat = 0 →
      (e.arity ≠ .sel → Goes (.ent e) s { t with feat := e.feat, limit := last + 1 }) ∧
      (e.arity = .sel → t.ip.toNat < e.alt.toNat → e.alt.toNat ≤ last →
        (t.armB = false → Goes (.ent e) s { t with feat := e.feat, limit := e.alt.toNat }) ∧
        (t.armB = true → Goes (.ent e) s { t with feat := e.feat, limit := last + 1, pc := e.alt.toNat - 1 })) ∧
      (e.arity = .sel → ¬(t.ip.toNat < e.alt.toNat ∧ e.alt.toNat ≤ last) → bad))

/-- Control words and handler entries (R50, R53, R109, R149, R157, R158, R433). -/
def Obligations.ControlWords : Prop := Claims.ControlResults ∧ Claims.EntryWords

/-- `trap` and `brk` are format I with D, A, B and FN zero; each raises a trap at issue, 0x010F and 0x0110, with DETAIL the zero-extended immediate, but a `brk` of an activation that `resm.step` re-fired
does nothing (R155). -/
def Obligations.SoftwareTraps : Prop :=
  (∀ (g : Guard) (imm : BitVec 32) (s : State) (t : Activation),
    (Ready (.trap g imm) s t → Traps (.trap g imm) s t { code := 0x010F, detail := imm.zeroExtend 64 }) ∧
    (Ready (.brk g imm) s t → t.step = false → Traps (.brk g imm) s t { code := 0x0110, detail := imm.zeroExtend 64 }) ∧
    (Ready (.brk g imm) s t → t.step = true → exec (.brk g imm) s = .next (s.issued.retire t) ∧
      (Ready (.nop g) s t → exec (.brk g imm) s = exec (.nop g) s))) ∧
  (∀ (g : Guard) (d a b : Reg) (fn : BitVec 8) (imm : BitVec 32),
    (decode (wordI 0x55 g d a b fn imm) = .ok (.trap g imm) ↔ d = 0 ∧ a = 0 ∧ b = 0 ∧ fn = 0) ∧
    (decode (wordI 0x56 g d a b fn imm) = .ok (.brk g imm) ↔ d = 0 ∧ a = 0 ∧ b = 0 ∧ fn = 0) ∧
    (d ≠ 0 ∨ a ≠ 0 ∨ b ≠ 0 ∨ fn ≠ 0 → ∀ i, decode (wordI 0x55 g d a b fn imm) ≠ .ok i ∧ decode (wordI 0x56 g d a b fn imm) ≠ .ok i))

/-- `end` is format R with every field but PG and PN zero. When its guard is true the activation issues no more and joins the line to commit, in which those whose `end` issued at one clk stand in ascending order of slot;
when it is false, issue continues (R150). -/
def Obligations.EndOfHandler : Prop :=
  (∀ (g : Guard) (s : State) (t : Activation),
    (Ready (.endH g) s t → ∃ (u : State) (x : Activation), exec (.endH g) s = .next u ∧ u.act? s.cur.1 s.cur.2 = some x ∧
      x = { t with ended := true, pc := t.pc + 1, endAt := s.clk } ∧
      (u.site s.cur.1).seq.ready = (s.site s.cur.1).seq.endOrder s.clk s.cur.2 ∧
      ((∀ j y, Tbl.get? (s.site s.cur.1).seq.acts j = some y → j ∈ (s.site s.cur.1).seq.ready → s.cur.2 < j → y.endAt ≠ s.clk) →
        (u.site s.cur.1).seq.ready = (s.site s.cur.1).seq.ready ++ [s.cur.2]) ∧
      fetch u s.cur.1 s.cur.2 = .idle) ∧
    (s.act? s.cur.1 s.cur.2 = some t → t.guardOk g = false → exec (.endH g) s = .next (s.issued.retire t))) ∧
  (∀ (g : Guard) (d a b : Reg) (c : BitVec 4) (fn : BitVec 8),
    (d = 0 ∧ a = 0 ∧ b = 0 ∧ c = 0 ∧ fn = 0 → decode (wordR 0x4C g d a b c fn) = .ok (.endH g)) ∧
    (¬(d = 0 ∧ a = 0 ∧ b = 0 ∧ c = 0 ∧ fn = 0) → ∀ i, decode (wordR 0x4C g d a b c fn) ≠ .ok i))

/-! ### Groups 3 to 6 at issue -/

/-- The completion or reply target of an X, M or S word may be used: there is none, or the activation may name its entry. -/
def Sys2Proof.Claims.TargetOk (s : State) (t : Activation) (k : BitVec 9) : Prop := k = 0x1FF ∨ MayName s t (entryOf s t k)

/-- The completion or reply of an X, M or S word: its entry unchanged, act.fp and act.itn; none for 0x1FF (R187, R221). -/
def Sys2Proof.Claims.answerTo (s : State) (t : Activation) (k : BitVec 9) : Option Reply :=
  if k = 0x1FF then none else some { entry := entryOf s t k, fp := t.fp, itn := t.itn }

/-- The checks of R177 that name a descriptor, in their order over all the operands of a word: 0x0105 malformed, 0x0202 of another site, 0x010D
stale, 0x0203 of another context; no trap when every operand passes. -/
def Sys2Proof.Claims.TileChecks : Prop :=
  ∀ (s : State) (n c : Nat) (l : List TileOpnd),
    let live (o : TileOpnd) : Prop := ∃ x, s.liveTile? n o.d = some x
    let owned (o : TileOpnd) : Prop := c = 7 ∨ ∃ x, s.liveTile? n o.d = some x ∧ x.owner = c
    let formed := ∀ o ∈ l, o.d.wellFormed = true
    let local_ := ∀ o ∈ l, o.d.site = n
    (¬formed → ∃ o ∈ l, o.d.wellFormed = false ∧ ∃ x, tileNames s n c l = some x ∧ x.code = 0x0105 ∧ x.detail = o.w) ∧
    (formed → ¬local_ → ∃ o ∈ l, o.d.site ≠ n ∧ ∃ x, tileNames s n c l = some x ∧ x.code = 0x0202 ∧ x.detail = o.w) ∧
    (formed → local_ → (¬∀ o ∈ l, live o) →
      ∃ o ∈ l, ¬live o ∧ ∃ x, tileNames s n c l = some x ∧ x.code = 0x010D ∧ x.detail.toNat = o.w.toNat / 2 ^ 32) ∧
    (formed → local_ → (∀ o ∈ l, live o) → (¬∀ o ∈ l, owned o) →
      ∃ o ∈ l, ¬owned o ∧ ∃ x, tileNames s n c l = some x ∧ x.code = 0x0203 ∧ x.detail = o.w) ∧
    (formed → local_ → (∀ o ∈ l, live o) → (∀ o ∈ l, owned o) → tileNames s n c l = none)

/-- Every vector word whose operands pass its checks buffers its operation, with the registers it names and its completion target (R177,
R186 to R189). -/
def Sys2Proof.Claims.VectorWords : Prop :=
  ∀ (x : XF) (lf : VlogFn) (hf : ShFn) (cf : FCond) (bf : VbitFn) (ff : FnFn) (rf : RedFn) (sf : ScanFn) (vf : FillFn) (mf : MaskFn)
    (nb : BitVec 7) (o : Bool) (s : State) (t : Activation),
    ∀ i ∈ [Instr.vadd x, .vsub x, .vmul x, .vfma x, .vmin x, .vmax x, .vabs x, .vneg x, .vlog lf x, .vsh hf x, .vcmp cf x, .vsel x, .vcvt x,
        .vqnt x, .vdqn x, .vfn ff x, .vred rf x, .vscan sf x, .vbc x, .vfill vf x, .vtrn x, .vperm x, .vhash nb x, .vpopc o x, .vhist x,
        .vpack o x, .vunpk o x, .vmov x, .vrnd x, .vbit bf x, .vmask mf x],
      Ready i s t → vecCheck s s.cur.1 t i (t.reg x.d) (t.reg x.a) (t.reg x.b) (t.reg x.c) = none →
      ¬(i = .vcvt x ∧ x.ef.isInt = true ∧ (Desc.of (t.reg x.a)).ef.isInt = true ∧ x.rnd ≠ .rne) → TargetOk s t x.ct →
      Pushes i s t [.tile i (t.reg x.d) (t.reg x.a) (t.reg x.b) (t.reg x.c) (answerTo s t x.ct)]

/-- Vector words at issue, and the descriptor checks of every tile operand (R177, R186 to R189). -/
def Obligations.VectorIssue : Prop := Claims.TileChecks ∧ Claims.VectorWords

/-- Every matrix word whose operands pass its checks, in the context that owns the engine or in context 7, buffers its operation; in any other
context it takes 0x0401 (R273). -/
def Obligations.MatrixIssue : Prop :=
  ∀ (x : XF) (o : Bool) (s : State) (t : Activation),
    ∀ i ∈ [Instr.mlds x, .mldw x, .mswp x, .mstr x, .mstt x, .macc o x, .manc x, .mepc x, .mout x, .mclr x, .mtkr o x, .mtkc x, .mspm o x,
        .mclaim x, .mrel x, .msave x, .mrest x, .mstat o x],
      Ready i s t →
      (mxCheck s s.cur.1 t i x (t.reg x.d) (t.reg x.a) (t.reg x.b) (t.reg x.c) = none → TargetOk s t x.ct →
        Pushes i s t [.tile i (t.reg x.d) (t.reg x.a) (t.reg x.b) (t.reg x.c) (answerTo s t x.ct)]) ∧
      (t.ctx ≠ 7 → (s.site s.cur.1).mx.owner ≠ some t.ctx →
        Traps i s t { code := 0x0401, detail := (s.site s.cur.1).mx.ownerWord })

/-- Every memory word whose operands pass its checks buffers its request: the effective address is reg(A) + sext(OFF, 15) × its unit (R52, R220);
`ld` replies at reg(D)[16:0] where D names a register (R239). -/
def Sys2Proof.Claims.MemoryWords : Prop :=
  ∀ (m : MF) (f : AtomFn) (s : State) (t : Activation),
    ∀ i ∈ [Instr.ld m, .st m, .dst m, .ldt m, .stt m, .gth m, .sct m, .atom f m, .vatom f m, .put m, .get m, .sclose m, .fence m, .pref m,
        .migr m, .wsld m, .inv m, .gbump m],
      let va := t.reg m.a
      let ea : Int := (va.toNat : Int) + sext m.off.toNat 15 * memUnit i
      let vc : Word := if i = .vatom f m then t.reg (m.off.truncate 4) else 0
      let r := (answerTo s t m.tix).map fun r => if i = .ld m ∧ m.d ≠ 0 then { r with fp := (t.reg m.d).truncate 17 } else r
      Ready i s t → memCheck s s.cur.1 t i m ea (t.reg m.d) (t.reg m.b) vc = none → TargetOk s t m.tix →
      Pushes i s t [.mem i (t.reg m.d) va (t.reg m.b) vc (BitVec.ofInt 64 ea).toNat r]

/-- `sopen` buffers its request (R52, R220, R228, R244): its item target may be named, and with end markers it is a target at the site of the control target; its items carry reg(D)[16:0] as FP, or act.fp where D is s0. -/
def Sys2Proof.Claims.StreamOpens : Prop :=
  ∀ (m : MF) (s : State) (t : Activation),
    let e := entryOf s t m.tix
    let bad := streamTargetBad s s.cur.1 t.ctx m
    (Ready (.sopen m) s t → bad = true → Traps (.sopen m) s t { code := 0x030A, detail := BitVec.ofNat 64 (m.md.toNat + m.tix.toNat * 2 ^ 8) }) ∧
    (Ready (.sopen m) s t → bad = false → MayName s t e →
      Pushes (.sopen m) s t
        [.mem (.sopen m) 0 (t.reg m.a) 0 0 0 (some { entry := e, fp := if m.d = 0 then t.fp else (t.reg m.d).truncate 17, itn := t.itn })])

/-- Memory words at issue, `sopen` among them (R52, R220, R228, R239, R244). -/
def Obligations.MemoryIssue : Prop := Claims.MemoryWords ∧ Claims.StreamOpens

/-- Every system word whose operands pass its checks buffers its request, with its own encoding and its reply target; `xcnt.add` with A = s0 adds 1
(R321, R352, R375, R398, R433). -/
def Obligations.SystemIssue : Prop :=
  ∀ (x : SF) (o : Bool) (fn : BitVec 2) (s : State) (t : Activation),
    ∀ i ∈ [Instr.pplace o x, .pevictVacate x, .pevictKill x, .pevictContain x, .rmarkCut x, .rmarkFreeze x, .rmarkResume x, .qryState x,
        .qryQuiet x, .qryPower x, .lnch o x, .pclaimClaim x, .pclaimRelease x, .twinOn x, .twinOff x, .cgrpMake x, .cgrpDrop x, .cred fn x,
        .cstat o x, .ccan x, .xcntAdd x, .xcntArr x, .xcntHist x, .xcntTake x, .xdspOne x, .xdspArr x, .xdspFlush x, .xverGet x, .xverWait x,
        .xverResize x, .xmrg x, .xrep x, .xretDrain x, .xretFree x, .rpnt x, .rseal x, .rrdpStat x, .rrdpCheck x, .rbak x, .omrkWalk x,
        .octrRead x, .octrTotal x, .otrc x, .oinjArm x, .oinjOff x, .ostpArm x, .ostpOff x],
      let va : Word := if i = .xcntAdd x ∧ x.a = 0 then 1 else t.reg x.a
      Ready i s t → sysCheck (s.asidOf s.cur.1 t.ctx) i t = none → TargetOk s t x.rt →
      Pushes i s t [.sys i (encode i) (t.reg x.d) va (t.reg x.b) (answerTo s t x.rt)]

/-! ### Every word -/

/-- A word whose guard is false has no effect: only its pc moves on (R15, R48). -/
def Sys2Proof.Claims.FalseGuardSkips : Prop :=
  ∀ (i : Instr) (s : State) (t : Activation), i.isWord = true → s.act? s.cur.1 s.cur.2 = some t →
    issueCheck s s.cur.1 t i (encode i) = none → t.guardOk i.guard = false → Goes i s t

/-- A privileged form outside context 7 takes 0x0102, whatever its guard (R53 check 5). -/
def Sys2Proof.Claims.PrivilegeTraps : Prop :=
  ∀ (i : Instr) (s : State) (t : Activation), i.isWord = true → s.act? s.cur.1 s.cur.2 = some t →
    indexBad s s.cur.1 t.ctx i = false → i.needs &&& ~~~t.feat = 0 → i.privileged = true → t.ctx ≠ 7 →
    Traps i s t { code := 0x0102, detail := encode i }

/-- A target or stream index that the page does not use, or a feature that the entry's FEAT does not name, takes 0x0101 (R42, R53 check 4). -/
def Sys2Proof.Claims.BadIndexTraps : Prop :=
  ∀ (i : Instr) (s : State) (t : Activation), i.isWord = true → s.act? s.cur.1 s.cur.2 = some t →
    ((∃ k ∈ i.tixs, s.targetCount s.cur.1 t.ctx ≤ k) ∨ (∃ k, i.sdx? = some k ∧ s.streamCount s.cur.1 t.ctx ≤ k) ∨ i.needs &&& ~~~t.feat ≠ 0) →
    Traps i s t { code := 0x0101, detail := encode i }

/-- What R53 checks of every word before it executes, and a false guard. -/
def Obligations.IssueChecks : Prop := Claims.FalseGuardSkips ∧ Claims.PrivilegeTraps ∧ Claims.BadIndexTraps

/-- What a word leaves unchanged when it takes no trap: memory and every other piece of the machine outside its own site; and at its site, every
other activation, the frames, tiles, contexts, matrix engine, port and counters (R15). Its site's generators may step (R169), and `end` names the
activation as ready. -/
def Obligations.WordFrame : Prop :=
  ∀ (i : Instr) (s u : State), i.isWord = true → exec i s = .next u →
    (∃ t x, s.act? s.cur.1 s.cur.2 = some t ∧ u = s.trapped t x) ∨
    (u.mem = s.mem ∧ u.mesh = s.mesh ∧ u.reqs = s.reqs ∧ u.fences = s.fences ∧ u.pager = s.pager ∧ u.coll = s.coll ∧ u.xp = s.xp ∧
      u.rcv = s.rcv ∧ u.link = s.link ∧ u.obs = s.obs ∧ u.pkg = s.pkg ∧ u.out = s.out ∧ u.inputs = s.inputs ∧ u.groupReqs = s.groupReqs ∧
      u.handleReqs = s.handleReqs ∧ u.clk = s.clk ∧ u.seq = s.seq ∧ u.cur = s.cur ∧
      (∀ n, n ≠ s.cur.1 → u.site n = s.site n) ∧
      (let a := s.site s.cur.1
       let b := u.site s.cur.1
       b.feat = a.feat ∧ b.ctxs = a.ctxs ∧ b.tile = a.tile ∧ b.mx = a.mx ∧ b.port = a.port ∧ b.counts = a.counts ∧
       (∀ c, u.cregs s.cur.1 c = { s.cregs s.cur.1 c with gseq := (u.cregs s.cur.1 c).gseq }) ∧
       b.obs = { a.obs with ev := b.obs.ev } ∧
       (∀ k, k ≠ s.cur.2 → Tbl.get? b.seq.acts k = Tbl.get? a.seq.acts k) ∧
       (b.seq.ready = a.seq.ready ∨ b.seq.ready = a.seq.endOrder s.clk s.cur.2) ∧
       { b.seq with acts := a.seq.acts, ready := a.seq.ready } = a.seq))

/-! ### Traps -/

/-- raise(flag) of R113: policy 1 sets the activation's flag, policy 2 its poison, and any other policy nothing; at commit the flags that are set are
ORed into the context's field of SQ_STICKY; a trap discards them. -/
def Obligations.ExceptionPolicies : Prop :=
  (∀ (t : Activation) (exc : BitVec 8) (e : Exc),
    let u := t.raise exc e
    let pol (k : Nat) : BitVec 2 := exc.extractLsb' (2 * k) 2
    let out := e.missing || e.outOvf
    u = { t with inv := u.inv, ovf := u.ovf, dz := u.dz, out := u.out, pz := u.pz } ∧
    u.inv = (t.inv || (e.inv && pol 0 == 1)) ∧ u.ovf = (t.ovf || (e.ovf && pol 1 == 1)) ∧
    u.dz = (t.dz || (e.dz && pol 2 == 1)) ∧ u.out = (t.out || (out && pol 3 == 1)) ∧
    u.pz = (t.pz || (e.inv && pol 0 == 2) || (e.ovf && pol 1 == 2) || (e.dz && pol 2 == 2) || (out && pol 3 == 2))) ∧
  (∀ (s : State) (n k : Nat) (t : Activation) (b : Nat), t.ctx < 8 → b < 32 →
    ((s.commitEnd n k t).site n).seq.sticky.getLsbD b =
      ((s.site n).seq.sticky.getLsbD b ||
        ((b == 4 * t.ctx && t.inv) || (b == 4 * t.ctx + 1 && t.ovf) || (b == 4 * t.ctx + 2 && t.dz) || (b == 4 * t.ctx + 3 && t.out)))) ∧
  (∀ (s : State) (n k : Nat) (t : Activation) (x : Trap), ((s.takeTrap n k t x).site n).seq.sticky = (s.site n).seq.sticky)

/-- A trap (R17, R120, R121) of an activation that no trap token fired: the activation is gone with its effects, its claimed slot stands as it
did, and the trap enters the site's queue with what its frame will hold. -/
def Sys2Proof.Claims.FirstTrap : Prop :=
  ∀ (s : State) (n k : Nat) (t : Activation) (x : Trap), t.trapHandler = false →
    let u := s.takeTrap n k t x
    let q := (u.site n).seq
    Tbl.get? q.acts k = none ∧ (∀ j, j ≠ k → Tbl.get? q.acts j = Tbl.get? (s.site n).seq.acts j) ∧
    (∀ slot, slot ∉ (s.site n).seq.clearing → u.fslot n slot = s.fslot n slot) ∧
    q.halt = (s.site n).seq.halt ∧
    ∃ r : TrapRec, q.trapQ = (s.site n).seq.trapQ ++ [r] ∧ r.hdr = t.tok.hdr ∧ r.payload = t.tok.payload ∧
      r.partner = (if t.claim.isSome then t.partner else 0) ∧ r.detail = x.detail ∧ r.va = BitVec.ofNat 64 x.va ∧ r.time = s.obs.time ∧
      r.handle = BitVec.ofNat 64 x.handle ∧ r.itn = t.tok.itn ∧
      r.status.toNat % 2 ^ 16 = x.code % 2 ^ 16 ∧ r.status.toNat / 2 ^ 16 % 8 = k % 8 ∧ r.status.toNat / 2 ^ 19 % 2 ^ 11 = t.pc % 2 ^ 11 ∧
      r.status.getLsbD 30 = false ∧ r.status.getLsbD 31 = t.claim.isSome ∧ r.status.toNat / 2 ^ 48 = 0

/-- A trap of an activation that a trap token fired is a double trap: the site halts, no trap is queued, and the halted site issues nothing and grants no
activation slot (R122). -/
def Sys2Proof.Claims.DoubleTrap : Prop :=
  (∀ (s : State) (n k : Nat) (t : Activation) (x : Trap), t.trapHandler = true →
    let q := ((s.takeTrap n k t x).site n).seq
    q.halt = true ∧ q.trapQ = (s.site n).seq.trapQ ∧ Tbl.get? q.acts k = none) ∧
  (∀ (s : State) (n k : Nat), (s.site n).seq.halt = true → fetch s n k = .idle) ∧
  (∀ (s : State) (n : Nat), (s.site n).seq.halt = true → exec (.activationSlotGrant n) s = .next s)

/-- Taking a trap (R17, R120 to R122): a first trap is queued, a double trap halts its site. -/
def Obligations.TrapEntry : Prop := Claims.FirstTrap ∧ Claims.DoubleTrap

/-- The head of the trap queue takes a system frame, the frame is filled as R121 gives, and the handler at SQ_TRAPIP.IP is fired with FP the frame, ITN the
responsible token's, and payload slot 4 (R120 step 4); an unusable handler word sets TRAPBAD and holds the queue (R122). -/
def Sys2Proof.Claims.TrapDelivery : Prop :=
  ∀ (s : State) (n : Nat) (r : TrapRec) (rest : List TrapRec),
    let q := (s.site n).seq
    q.trapQ = r :: rest → q.trapEn = true → q.halt = false → q.fireQ.length < 32 → s.frozen7 n = false → ∀ fp, q.systemFrame = some fp →
    (∀ w, s.codeWord? n 7 q.trapIp.toNat = some w → isEnt w = true → entArity w = 1 →
      ∃ (u : State) (f : Fired), exec (.trapDelivery n) s = .next u ∧ (u.site n).seq.trapQ = rest ∧
        (u.fslot n fp).value = r.hdr ∧ (u.fslot n (fp + 1)).value = r.payload ∧ (u.fslot n (fp + 2)).value = r.partner ∧
        (u.fslot n (fp + 3)).value = r.detail ∧ (u.fslot n (fp + 4)).value = r.status ∧ (u.fslot n (fp + 5)).value = r.va ∧
        (u.fslot n (fp + 6)).value = r.time ∧ (u.fslot n (fp + 7)).value = r.handle ∧
        (u.site n).seq.fireQ = q.fireQ ++ [f] ∧ f.trapHandler = true ∧ f.tok.cls = 3 ∧ f.tok.ctx = 7 ∧ f.tok.ip = q.trapIp ∧
        f.tok.fp = BitVec.ofNat 17 fp ∧ f.tok.itn = r.itn ∧ f.tok.payload = r.status) ∧
    ((∀ w, s.codeWord? n 7 q.trapIp.toNat = some w → isEnt w = false ∨ entArity w ≠ 1) →
      exec (.trapDelivery n) s = .next (s.modSeq n fun q => { q with trapBad := true }))

/-- A held service request takes a system frame, filled as R123 gives, and its token goes to on_arrival at SQ_SYSIP.IP: a monadic handler fires with FP the frame, the caller's
ITN and PSN, and the service number; a token that must wait leaves the request held (R123, R126). -/
def Sys2Proof.Claims.ServiceDelivery : Prop :=
  ∀ (s : State) (n : Nat) (r : ServiceReq) (fp : Nat),
    let q := (s.site n).seq
    q.service = some r → q.systemFrame = some fp → q.sysEn = true → q.canFire = true → s.frozen7 n = false →
    (∃ (t : State) (f : Flight), (t.site n).seq.service = none ∧
      (t.fslot n fp).value.toNat = r.who.ctx % 8 + r.who.asid % 2 ^ 12 * 2 ^ 3 + r.gen % 2 ^ 16 * 2 ^ 15 ∧
      (t.fslot n (fp + 1)).value = r.arg ∧ (t.fslot n (fp + 2)).value = BitVec.ofNat 64 r.num ∧
      (t.fslot n (fp + 3)).value = withCtx r.reply.entry r.who.ctx ∧
      (t.fslot n (fp + 4)).value.toNat = r.reply.fp.toNat + r.reply.itn.toNat * 2 ^ 32 ∧ (t.fslot n (fp + 5)).value = 0 ∧ (t.fslot n (fp + 6)).value = 0 ∧ (t.fslot n (fp + 7)).value = 0 ∧
      f.tok.cls = 3 ∧ f.tok.ctx = 7 ∧ f.tok.ip = q.sysIp ∧ f.tok.fp = BitVec.ofNat 17 fp ∧ f.tok.itn = r.itn ∧ f.tok.psn = r.psn ∧
      f.tok.payload = BitVec.ofNat 64 r.num ∧
      (∀ u, t.onArrival n f = some u → exec (.serviceDelivery n) s = .next u) ∧
      (t.onArrival n f = none → exec (.serviceDelivery n) s = .next s)) ∧
    (∀ w, s.codeWord? n 7 q.sysIp.toNat = some w → isEnt w = true → entArity w = 1 →
      ∃ (u : State) (x : Fired), exec (.serviceDelivery n) s = .next u ∧ (u.site n).seq.service = none ∧ (u.site n).seq.fireQ = q.fireQ ++ [x] ∧
        x.tok.ctx = 7 ∧ x.tok.ip = q.sysIp ∧ x.tok.fp = BitVec.ofNat 17 fp ∧ x.tok.itn = r.itn ∧ x.pz = r.psn ∧ x.d1 = BitVec.ofNat 64 r.num ∧ x.claim = none)

/-- The committed return from a trap (R157): .go and .step present the token of slots 0 and 1 as they stand, .step marked, .drop discards it; the frame is no
longer allocated. -/
def Sys2Proof.Claims.TrapReturn : Prop :=
  ∀ (s : State) (n mode fp : Nat) (org : Origin) (deps : List Nat),
    let r := s.resume n mode fp org deps
    r.1.frame? n fp = none ∧
    (mode = 1 → r.2 = none) ∧
    (mode ≠ 1 → ∃ f, r.2 = some f ∧ f.tok = Token.ofWords (s.fslot n fp).value (s.fslot n (fp + 1)).value ∧ f.dst = n ∧ f.step = (mode == 2))

/-- Delivery to the context 7 handlers, and the return from a trap (R120 to R123, R157). -/
def Obligations.HandlerDelivery : Prop := Claims.TrapDelivery ∧ Claims.ServiceDelivery ∧ Claims.TrapReturn

/-! ### Tokens, matching and commit -/

/-- What the registers and predicates hold after a write (R56): register s0 and predicate p0 cannot be written, any other reads back the value
written, and no other changes. -/
def Sys2Proof.Claims.RegisterWrites : Prop :=
  (∀ (t : Activation) (v : Word), t.reg 0 = 0 ∧ t.setReg 0 v = t) ∧
  (∀ (t : Activation) (d r : Reg) (v : Word), d ≠ 0 → (t.setReg d v).reg r = if r = d then v else t.reg r) ∧
  (∀ (t : Activation), t.predOf 0 = true) ∧
  (∀ (t : Activation) (p q : PredReg) (v : Bool), p ≠ 0 → (t.setPred p v).predOf q = if q = p then v else t.predOf q)

/-- A token's header word holds its fields, and reading the header back gives the token (R33 to R36). -/
def Sys2Proof.Claims.TokenWords : Prop := ∀ t : Token, Token.ofWords t.hdr t.payload = t

/-- Firing sets the registers of an activation (R56): s1 and s2 the payloads of port 0 and port 1, s3 the frame pointer, s4 the iteration, s5 the header word
of the firing token, s6 to s15 zero, p1 to p7 false. -/
def Sys2Proof.Claims.FiredRegisters : Prop :=
  ∀ f : Fired,
    let t := f.start
    t.reg 1 = f.d1 ∧ t.reg 2 = f.d2 ∧ t.reg 3 = f.tok.fp.zeroExtend 64 ∧ t.reg 4 = f.tok.itn.zeroExtend 64 ∧ t.reg 5 = f.tok.hdr ∧
    (∀ r : Reg, 6 ≤ r.toNat → t.reg r = 0) ∧ (∀ p : PredReg, p ≠ 0 → t.predOf p = false) ∧
    t.fp = f.tok.fp ∧ t.itn = f.tok.itn ∧ t.pz = f.pz ∧ t.effects = [] ∧ t.ended = false ∧
    t.inv = false ∧ t.ovf = false ∧ t.dz = false ∧ t.out = false

/-- What registers hold: after a write, in a token's header word, and after firing (R33 to R36, R56). -/
def Obligations.RegistersAndTokens : Prop := Claims.RegisterWrites ∧ Claims.TokenWords ∧ Claims.FiredRegisters

/-- on_arrival of R106 at an entry that a token suits: a monadic or control-only entry fires with the payload; at a dyadic or two-arm one, an empty slot
parks the operand, a parked operand of the same port traps with 0x0106, and the partner fires with each payload in its port's register; a claimed slot
holds the token. What would fire or trap waits while it cannot (R108, R120). -/
def Obligations.Matching : Prop :=
  ∀ (s : State) (n : Nat) (f : Flight) (w : Word),
    let t := f.tok
    let q := (s.site n).seq
    let k := t.fp.toNat + entSlot w
    let p := s.fslot n k
    s.codeWord? n t.ctx.toNat t.ip.toNat = some w → isEnt w = true → classOk (entArity w) t = true →
    (entArity w ≤ 1 → q.canFire = true →
      ∃ (u : State) (x : Fired), s.onArrival n f = some u ∧ (u.site n).seq.fireQ = q.fireQ ++ [x] ∧
        x.d1 = t.payload ∧ x.d2 = 0 ∧ x.pz = t.psn ∧ x.claim = none ∧ x.tok = t) ∧
    (entArity w ≤ 1 → q.canFire = false → s.onArrival n f = none) ∧
    (2 ≤ entArity w → s.frameCheck n t.ctx.toNat t.fp.toNat (entSlot w) 1 = none →
      (s.claimed n k = true → q.retryQ.length < 16 →
        ∃ u : State, s.onArrival n f = some u ∧ (u.site n).seq.retryQ = q.retryQ ++ [f] ∧ u.fslot n k = p) ∧
      (s.claimed n k = true → 16 ≤ q.retryQ.length → s.onArrival n f = none) ∧
      (s.claimed n k = false → p.pres = false →
        ∃ u : State, s.onArrival n f = some u ∧ (u.site n).seq.fireQ = q.fireQ ∧
          u.fslot n k = { value := t.payload, pres := true, psn := t.psn, port := t.port, stamp := BitVec.ofNat 16 (s.clkAt n) }) ∧
      (s.claimed n k = false → p.pres = true → p.port = t.port →
        (q.trapQ.length < 16 → s.onArrival n f = some (s.trapArrival n f { code := 0x0106, detail := p.value })) ∧
        (16 ≤ q.trapQ.length → s.onArrival n f = none)) ∧
      (s.claimed n k = false → p.pres = true → p.port ≠ t.port → q.canFire = true →
        ∃ (u : State) (x : Fired), s.onArrival n f = some u ∧ (u.site n).seq.fireQ = q.fireQ ++ [x] ∧
          x.d1 = (if t.port then p.value else t.payload) ∧ x.d2 = (if t.port then t.payload else p.value) ∧ x.pz = (t.psn || p.psn) ∧
          x.claim = some k ∧ x.tok = t ∧ u.fslot n k = p))

/-- A token at the head of its queue at an open input is taken off the mesh and goes to on_arrival (R103, R106); a hold or release of a context takes effect at the site (R105); a
program's marker is discarded; a reply for an absent context goes to its cistern (R234). -/
def Obligations.ArrivalEvents : Prop :=
  ∀ (s : State) (i : Nat) (f : Flight),
    let n := f.dst
    let c := f.tok.payload.toNat % 8
    s.mesh[i]? = some f → atHead s.mesh i = true → retryWaits s n = false →
    (s.site n).seq.trapQ.length < 16 → (s.site n).seq.fireQ.length < 32 → dieOf n ∉ s.pkg.wiping →
    (arrivalKind s n f = .plain → replyStale s n f = true → exec (.tokenArrival i) s = .next ((s.takeFlight i f).fetched f)) ∧
    (arrivalKind s n f = .plain → replyStale s n f = false → (f.tok.cls ≠ 1 ∨ controlOk f.tok = true) →
      ∀ k, s.slot? n f.tok.ctx.toNat = some k → k.held = false → k.frozen = false → k.csw = false →
        (∀ u, (s.takeFlight i f).onArrival n f = some u → exec (.tokenArrival i) s = .next (u.fetched f)) ∧
        ((s.takeFlight i f).onArrival n f = none → exec (.tokenArrival i) s = .next s)) ∧
    (∀ k, s.slot? n c = some k →
      (arrivalKind s n f = .hold →
        ∃ u : State, exec (.cswHold i) s = .next u ∧ u.slot? n c = some { k with csw := true } ∧ u.mesh = listDrop1 s.mesh i) ∧
      (arrivalKind s n f = .release → k.csw = true → k.frozen = false →
        ∃ u : State, exec (.cswRelease i) s = .next u ∧ u.slot? n c = some { k with csw := false, captured := [] } ∧
          (u.mesh.take k.captured.length).map (·.tok) = k.captured.map (·.tok) ∧
          u.mesh.drop k.captured.length = listDrop1 s.mesh i)) ∧
    (arrivalKind s n f = .rmk → exec (.rmkArrival i) s = .next (s.takeFlight i f)) ∧
    (arrivalKind s n f = .cistern →
      let key := f.asid * 8 + f.tok.ctx.toNat
      let p := (s.site n).port
      Tbl.getD p.cistCount key 0 < Tbl.getD p.cistLen key 0 →
        ∃ u : State, exec (.cisternWrite i) s = .next u ∧ u.mesh = listDrop1 s.mesh i ∧
          Tbl.getD (u.site n).port.cistCount key 0 = Tbl.getD p.cistCount key 0 + 1)

/-- The effects of a commit go in order, each under the next commit number: `u` is what they leave of `s` (R16). No service request may be held before one (R123). -/
def Sys2Proof.Claims.CommitsTo (i : Issuer) (tag : Bool) (hist : Nat) (l : List Effect) (id : Nat) (s u : State) : Prop :=
  match l with
  | [] => u = s
  | e :: r => (s.site i.site).seq.service = none ∧ ∃ v, s.commitEffect i tag id hist e = some v ∧ CommitsTo i tag hist r (id + 1) v u

/-- What the effects of activation `t` of site `n` commit as from number `base` on, in the state `s` in which they begin to go (R15, R33, R68, R115). -/
def Sys2Proof.Claims.issuerOf (s : State) (base n : Nat) (t : Activation) : Issuer :=
  { site := n, who := t.who n (s.asidOf n t.ctx), gen := (s.gen (s.asidOf n t.ctx)).toNat, psn := t.pz,
    org := { site := n, idx := t.hist / 256, gen := t.hist % 256 }, itn := t.itn, deps := s.prune t.deps,
    all := s.prune t.deps ++ (t.effects.zipIdx base).filterMap fun p => if p.1.path?.isSome then some p.2 else none, act := base }

/-- ACTIVATION_SLOT_GRANT and HELD_TOKEN_RETRY (R96, R107, R108): the first fired activation for which a slot is free takes the lowest such slot, slot 7 only for context 7; a held token whose
slot's claim has ended is presented again, and an operand whose slot is empty then is parked in it. -/
def Sys2Proof.Claims.SlotsAndRetries : Prop :=
  ∀ (s : State) (n k i : Nat),
    let q := (s.site n).seq
    let free (c j : Nat) : Prop := j < 8 ∧ Tbl.get? q.acts j = none ∧ (j = 7 → c = 7)
    (∀ f, q.halt = false → q.fireQ[i]? = some f → (∀ g ∈ q.fireQ.take i, ∀ j, ¬free g.tok.ctx.toNat j) → free f.tok.ctx.toNat k →
      (∀ j < k, ¬free f.tok.ctx.toNat j) →
      exec (.activationSlotGrant n) s = .next (s.modSeq n fun q => { q with fireQ := listDrop1 q.fireQ i, acts := Tbl.set q.acts k f.start })) ∧
    (∀ f rest more x, q.released = k :: more → q.retryQ = f :: rest → matchSlot s n f.tok = some k → s.claimed n k = false →
      s.slot? n f.tok.ctx.toNat = some x → x.frozen = false → x.csw = false →
      (let t := s.modSeq n fun q => { q with retryQ := rest }
       (∀ u, t.onArrival n f = some u → exec (.heldTokenRetry n) s = .next u) ∧
       (t.onArrival n f = none → exec (.heldTokenRetry n) s = .next s)) ∧
      (∀ w, s.codeWord? n f.tok.ctx.toNat f.tok.ip.toNat = some w → classOk (entArity w) f.tok = true →
        s.frameCheck n f.tok.ctx.toNat f.tok.fp.toNat (entSlot w) 1 = none → (s.fslot n k).pres = false →
        ∃ u : State, exec (.heldTokenRetry n) s = .next u ∧ (u.site n).seq.retryQ = rest ∧
          u.fslot n k = { value := f.tok.payload, pres := true, psn := f.tok.psn, port := f.tok.port, stamp := BitVec.ofNat 16 (s.clkAt n) })) ∧
    (∀ f rest more, q.released = k :: more → q.retryQ = f :: rest → matchSlot s n f.tok = some k → s.claimed n k = true →
      exec (.heldTokenRetry n) s = .next (s.modSeq n fun q => { q with released := more }))

/-- COMMIT (R15, R16, R107, R123): the first activation in line begins its commit in the clk after its `end`; its effects go in order, and when all have gone it leaves its slot; at an effect that must wait it stops, to go on
with that effect later; a held service request stops the stage. -/
def Sys2Proof.Claims.CommitStage : Prop :=
  ∀ (s : State) (n k : Nat) (t : Activation) (more : List Nat),
    let q := (s.site n).seq
    let b := s.commitBegin n k t
    let i := issuerOf b s.seq n t
    q.ready = k :: more → s.act? n k = some t →
    (∀ r, q.service = some r → exec (.commit n) s = .next s) ∧
    (t.committing = none → s.clk ≤ t.endAt → exec (.commit n) s = .next s) ∧
    (q.service = none → t.committing = none → t.endAt < s.clk →
      (t.effects = [] → exec (.commit n) s = .next (b.commitEnd n k t)) ∧
      (∀ u, CommitsTo i t.tag t.hist t.effects s.seq b u → (u.site n).seq.service = none → exec (.commit n) s = .next (u.commitEnd n k t)) ∧
      (∀ e rest, t.effects = e :: rest → b.commitEffect i t.tag s.seq t.hist e = none →
        exec (.commit n) s = .next (b.setAct n k { t with committing := some (s.seq, s.seq) })))

/-- The sequencer's own steps (R15, R16, R96, R107, R108, R123). -/
def Obligations.SequencerEvents : Prop := Claims.SlotsAndRetries ∧ Claims.CommitStage

/-- What each buffered effect does when it commits (R99, R102, R114, R145, R146, R148, R151 to R156, R179, R216). Tokens carry act.pz. -/
def Obligations.CommittedEffects : Prop :=
  ∀ (s : State) (i : Issuer) (tag : Bool) (id hist : Nat) (t : Token) (fp off cnt num : Nat) (v : Word) (op : GroupOp) (r : Reply)
    (o : Option Reply) (shape : BitVec 32),
    let n := i.site
    let c := i.who.ctx
    s.commitEffect i tag id hist (.send t false cnt) =
      some (s.launchToken n { t with psn := i.psn, smp := tag } false cnt i.org i.all i.who.asid i.gen) ∧
    (∃ u : State, s.commitEffect i tag id hist (.frameWrite fp off v) = some u ∧
      u.fslot n (fp + off) = { s.fslot n (fp + off) with value := v, psn := i.psn } ∧
      ∀ k, k ≠ frameKey n (fp + off) → Tbl.getD u.mem.frames k Slot.empty = Tbl.getD s.mem.frames k Slot.empty) ∧
    (s.claimed n (fp + off) = false → ∃ u : State, s.commitEffect i tag id hist (.frameClear fp off 1) = some u ∧
      u.fslot n (fp + off) = Slot.empty) ∧
    (∃ u : State, s.commitEffect i tag id hist (.frameFree fp) = some u ∧ u.frame? n fp = none) ∧
    (∃ (u : State) (q : FrameReq), s.commitEffect i tag id hist (.frameAlloc fp off false r) = some u ∧
      (u.site n).seq.allocQ = (s.site n).seq.allocQ ++ [q] ∧ q.ctx = c ∧ q.cls = fp ∧ q.level = off ∧ q.useRes = false) ∧
    (∃ (u : State) (q : GroupReq), s.commitEffect i tag id hist (.group op v cnt o) = some u ∧ u.groupReqs = s.groupReqs ++ [q] ∧
      q.op = op ∧ q.id = v ∧ q.src = n ∧ q.ctx = c ∧ q.scope = cnt ∧ q.target = o ∧ q.psn = i.psn) ∧
    (∃ (u : State) (q : HallocReq), s.commitEffect i tag id hist (.halloc shape cnt r) = some u ∧
      (u.site n).tile.waiting = (s.site n).tile.waiting ++ [q] ∧ q.shape = shape ∧ q.kind = cnt ∧ q.target = r ∧ q.psn = i.psn) ∧
    (∃ (u : State) (q : ServiceReq), s.commitEffect i tag id hist (.service num v r) = some u ∧ (u.site n).seq.service = some q ∧
      q.num = num ∧ q.arg = v ∧ q.reply = r ∧ q.psn = i.psn ∧ q.itn = i.itn)

/-- The special registers (R57, R58, R141): `mfs` reads them at issue; `mts` hands the write to commit, and a policy of 3 traps. -/
def Sys2Proof.Claims.SpecialReads : Prop :=
  ∀ (g : Guard) (d a : Reg) (no : BitVec 16) (c : BitVec 3) (s : State) (t : Activation),
    let n := s.cur.1
    (Ready (.mfs g d no c) s t → ∃ v : Word, Writes (.mfs g d no c) s t d v ∧
        (no = 0 → v = BitVec.ofNat 64 n) ∧ (no = 2 → v = 7) ∧ (no = 5 → v = s.obs.time) ∧
        (no = 3 → v = BitVec.ofNat 64 (s.asidOf n 7)) ∧
        (no = 6 → v = BitVec.ofNat 64 (s.clkAt n)) ∧ (no = 7 → v = (s.site n).feat.zeroExtend 64) ∧
        (no = 8 → v = (s.cregs n c.toNat).seed) ∧ (no = 10 → v = (s.cregs n c.toNat).exc.zeroExtend 64) ∧
        (∀ k, s.slot? n 7 = some k → no = 1 →
          v = fieldsWord [(0, k.bx % 64), (8, k.by_ % 64), (16, (k.w - 1) % 64), (24, (k.h - 1) % 64)]) ∧
        (∀ p, s.page? n 7 = some p → no = 9 → v = BitVec.ofNat 64 p.pcls) ∧
        (∀ k, s.slot? n 7 = some k → no = 4 → v = (s.gen k.asid).zeroExtend 64)) ∧
    (Ready (.mts g a no c) s t →
      ¬(no = 10 ∧ ∃ k < 4, (t.reg a).extractLsb' (2 * k) 2 = 3) →
      Pushes (.mts g a no c) s t [.writeSpecial no.toNat (if no = 8 ∨ no = 10 then c.toNat else 7) (t.reg a)]) ∧
    (Ready (.mts g a no c) s t → no = 10 → (∃ k < 4, (t.reg a).extractLsb' (2 * k) 2 = 3) →
      Traps (.mts g a no c) s t { code := 0x0101, detail := encode (.mts g a no c) })

/-- A committed `mts` (R57, R58, R169): %feat clears the bits that are written as 1, %seed seeds the context's three generators, %exc takes its policies, and a write to a read-only register writes nothing. -/
def Sys2Proof.Claims.SpecialWrites : Prop :=
  ∀ (s : State) (i : Issuer) (tag : Bool) (id hist no c : Nat) (v : Word),
    let n := i.site
    ∃ u : State, s.commitEffect i tag id hist (.writeSpecial no c v) = some u ∧ u.mem = s.mem ∧
      (no = 7 → (u.site n).feat = (s.site n).feat &&& ~~~(v.truncate 5) ∧ u.cregs n c = s.cregs n c) ∧
      (no = 8 → u.cregs n c = { s.cregs n c with
        seed := v, gseq := genSeed v, gvec := genSeed (v ^^^ 0x5555555555555555), gmat := genSeed (v ^^^ 0xAAAAAAAAAAAAAAAA) }) ∧
      (no = 10 → u.cregs n c = { s.cregs n c with exc := v.truncate 8 }) ∧
      (∀ k, k ≠ c → u.cregs n k = s.cregs n k) ∧
      (no ≠ 7 → no ≠ 8 → no ≠ 10 → u = s)

/-- The special registers, at issue and at commit (R57, R58, R141, R169). -/
def Obligations.SpecialRegisters : Prop := Claims.SpecialReads ∧ Claims.SpecialWrites

/-! ### Requests served at a site -/

/-- What an engine sends (R187, R221): with no target nothing; to a remote entry, a token for the region-link table, whose entry the site's cache gives or is filled with (R297); else one reply-class token to the site
that the entry names in the region of the target's context, with the entry's CTX and IP, the port, FP and ITN of the reply, and the PSN given.
Nothing but the mesh, the links and the count of sent tokens changes, and an entry outside its region delivers nothing (R10). -/
def Obligations.EngineReplies : Prop :=
  ∀ (s : State) (src near : Nat) (r : Reply) (v : Word) (psn : Bool) (deps : List Nat) (asid gen : Nat),
    let e := Entry.of r.entry
    let u := s.replyFrom src near (some r) v psn deps asid gen
    let look := s.linkLookup near (s.linkKey e.ctx.toNat asid) e.link
    let b := if e.remote then look.2 else s
    let tok : Token :=
      { cls := 2, psn := psn, ctx := e.ctx, dx := e.dx, dy := e.dy, ip := e.ip, port := e.port, fp := r.fp, itn := r.itn, smp := false, payload := v }
    s.replyFrom src near none v psn deps asid gen = s ∧
    u.mem = b.mem ∧ u.reqs = b.reqs ∧ u.clk = b.clk ∧ u.out = b.out ∧
    (∀ n, (u.site n).seq = (b.site n).seq ∧ (u.site n).tile = (b.site n).tile ∧ (u.site n).mx = (b.site n).mx ∧
      (u.site n).port = (b.site n).port ∧ (u.site n).ctxs = (b.site n).ctxs ∧ (u.site n).obs = (b.site n).obs) ∧
    (e.remote = true → u.mesh = b.mesh ∧ ∃ f, u.pager.links = b.pager.links ++ [f] ∧ f.tok = tok ∧ f.link = e.link ∧ f.src = near ∧ f.entry = look.1) ∧
    (e.remote = false → u.pager = s.pager ∧
      (∀ k, s.region? near e.ctx.toNat asid = some k →
        (e.dx.toNat < k.w → e.dy.toNat < k.h →
          ∃ f, u.mesh = s.mesh ++ [f] ∧ f.tok = tok ∧ f.src = src ∧ f.dst = siteNear near (k.bx + e.dx.toNat) (k.by_ + e.dy.toNat) ∧ f.vn = .reply) ∧
        (k.w ≤ e.dx.toNat ∨ k.h ≤ e.dy.toNat → u = s)) ∧
      (s.region? near e.ctx.toNat asid = none → u = s))

/-- on_group of R118 at the home of a group: what each request leaves in the group's entry. A request of another ASID or context, a 65th member, a
65th waiter and an absent group are refused and leave it. -/
def Sys2Proof.Claims.GroupRules : Prop :=
  ∀ (s : State) (r : GroupReq) (t : Reply) (g : Group),
    let home := r.id.toNat / 2 ^ 12 % 2 ^ 12
    let k := r.id.toNat % 2 ^ 6
    let after := (s.onGroup r).group? home k
    let mine := g.asid = r.asid ∧ g.ctx = r.ctx
    let pz := g.poison || r.psn
    (s.group? home k = none →
      (r.op = .join → ∃ x, after = some x ∧ x.asid = r.asid ∧ x.ctx = r.ctx ∧ x.members = 1 ∧ x.arrived = 0 ∧ x.phase = 0) ∧
      (r.op ≠ .join → after = none)) ∧
    (s.group? home k = some g →
      (¬mine → after = some g) ∧
      (mine → r.op = .join → g.members < 64 → after = some { g with members := g.members + 1 }) ∧
      (mine → r.op = .join → g.members = 64 → after = some g) ∧
      (mine → r.op = .wait → r.target = some t → g.waiters.length < 64 →
        ∃ w, after = some { g with waiters := g.waiters ++ [w] } ∧ w.reply = t ∧ w.psn = r.psn ∧ w.site = r.src) ∧
      (mine → r.op = .arrive → g.arrived + 1 < g.members → ∃ d, after = some { g with arrived := g.arrived + 1, poison := pz, deps := d }) ∧
      (mine → r.op = .arrive → g.members ≤ g.arrived + 1 →
        after = some { g with arrived := 0, phase := g.phase + 1, waiters := [], poison := false, deps := [] }) ∧
      (mine → r.op = .leave → g.members = 1 → after = none) ∧
      (mine → r.op = .leave → 1 < g.members → 0 < g.arrived → g.members - 1 ≤ g.arrived →
        after = some { g with members := g.members - 1, arrived := 0, phase := g.phase + 1, waiters := [], poison := false, deps := [] }) ∧
      (mine → r.op = .leave → 1 < g.members → g.arrived = 0 ∨ g.arrived < g.members - 1 →
        ∃ d, after = some { g with members := g.members - 1, poison := pz, deps := d }))

/-- GROUP_REQUEST and HANDLE_REQUEST (R26, R75, R117 to R119, R153, R154): a request reaches its home behind the earlier ones of its site for that home; an
`arrive` waits until its release set has performed at its scope, at 8 and 9 behind a PCIe read; a reference count changes, or a reply leaves. -/
def Sys2Proof.Claims.RemoteRequests : Prop :=
  ∀ (s : State) (k : Nat),
    (∀ r, s.groupReqs[k]? = some r →
      (∀ x ∈ s.groupReqs.take k, x.src = r.src → x.id.toNat / 2 ^ 12 % 2 ^ 12 ≠ r.id.toNat / 2 ^ 12 % 2 ^ 12) →
      let t := { s with groupReqs := listDrop1 s.groupReqs k }
      (r.op ≠ .arrive → exec (.groupRequest k) s = .next (t.onGroup r)) ∧
      (r.op = .arrive →
        let g := s.groupAgent r
        let set := s.releaseSet g
        let gate := s.flushGate r.seq fun p => set.contains p.who.seq
        (s.setPerformed g = true → r.scope < 8 ∨ gate = none →
          exec (.groupRequest k) s = .next ((t.carry set g.obs).onGroup { r with deps := set })) ∧
        (s.setPerformed g = true → 8 ≤ r.scope → ∀ u, gate = some u → exec (.groupRequest k) s = .next u) ∧
        (s.setPerformed g = false → exec (.groupRequest k) s = .next s))) ∧
    (∀ r x, s.handleReqs[k]? = some r → (∀ y ∈ s.handleReqs.take k, y.src = r.src → (Desc.of y.desc).site ≠ (Desc.of r.desc).site) →
      let d := Desc.of r.desc
      s.liveTile? d.site d = some x →
      ∃ u : State, exec (.handleRequest k) s = .next u ∧ u.handleReqs = listDrop1 s.handleReqs k ∧
        (r.op = .inc → x.count ≠ BitVec.allOnes 16 → Tbl.get? (u.site d.site).tile.tiles d.gran = some { x with count := x.count + 1 }) ∧
        (r.op = .inc → x.count = BitVec.allOnes 16 → Tbl.get? (u.site d.site).tile.tiles d.gran = some x) ∧
        (r.op = .dec → x.count ≠ 1 → Tbl.get? (u.site d.site).tile.tiles d.gran = some { x with count := x.count - 1, dying := none }) ∧
        (r.op = .dec → x.count = 1 → ∃ q, Tbl.get? (u.site d.site).tile.tiles d.gran = some { x with count := 0, dying := some q }) ∧
        (∀ sel, r.op = .info sel → Tbl.get? (u.site d.site).tile.tiles d.gran = some x))

/-- Group and handle requests at their homes (R26, R117 to R119, R153, R154). -/
def Obligations.GroupsAndHandles : Prop := Claims.GroupRules ∧ Claims.RemoteRequests

/-- FRAME_GRANT (R100, R126): a request that can be served, first of its reserve or first that the pool can serve, of a context that is not frozen, gets a frame of its class, owned by its context, every slot of it empty; its reply carries the base
slot, and a waiting seed goes on with it as FP. -/
def Sys2Proof.Claims.FrameGrants : Prop :=
  ∀ (s : State) (n i : Nat) (r : FrameReq),
    let q := (s.site n).seq
    q.allocQ[i]? = some r →
    (q.canGrant (s.frozenAt n) i = false → exec (.frameGrant n i) s = .next s) ∧
    (q.canGrant (s.frozenAt n) i = true → ∃ (fp : Nat) (u : State),
      (u.site n).seq.allocQ = listDrop1 q.allocQ i ∧ u.mesh = s.mesh ∧
      (∃ f, u.frame? n fp = some f ∧ f.cls = r.cls ∧ f.owner = r.ctx) ∧
      (∀ k < 8 * 2 ^ r.cls, u.fslot n (fp + k) = Slot.empty) ∧
      (∀ t psn deps org, r.what = .reply t psn deps org →
        exec (.frameGrant n i) s =
          .next (u.replyFrom n n (some t) (BitVec.ofNat 64 fp) psn deps (u.asidOf n r.ctx) (u.gen (u.asidOf n r.ctx)).toNat)) ∧
      (∀ f, r.what = .seed f →
        exec (.frameGrant n i) s = .next (u.sendOff { f with tok := { f.tok with fp := BitVec.ofNat 17 fp } })))

/-- HALLOC_GRANT and TILE_FREE (R152, R153, R175, R176): the first waiting allocation of its context gets a live tile with one reference, no poison, the
owner and shape asked for, and the current generation of its granule in its descriptor; a tile that dies is gone once nothing
committed before uses it, and the generations of its granules move on. -/
def Sys2Proof.Claims.TileLifetimes : Prop :=
  ∀ (s : State) (n k g : Nat),
    (∀ r u, (s.site n).tile.waiting[k]? = some r → (∀ q ∈ (s.site n).tile.waiting.take k, q.who.ctx ≠ r.who.ctx) →
      (∀ d, s.allocTile n r.who.ctx r.kind r.shape = some (some d, u) →
        ∃ (gran : Nat) (t : Tile) (v : State), exec (.hallocGrant n k) s = .next (v.replyFrom n n (some r.target) d r.psn r.deps r.who.asid r.gen) ∧
          d = Desc.word n gran ((s.site n).tile.gen gran).toNat r.kind r.shape.toNat ∧ Tbl.get? (v.site n).tile.tiles gran = some t ∧
          t.owner = r.who.ctx ∧ t.kind = r.kind ∧ t.shape = r.shape ∧ t.count = 1 ∧ t.poison = 0 ∧ t.dying = none ∧
          (v.site n).tile.waiting = listDrop1 (s.site n).tile.waiting k) ∧
      (s.allocTile n r.who.ctx r.kind r.shape = none → exec (.hallocGrant n k) s = .next s)) ∧
    (∀ t q, Tbl.get? (s.site n).tile.tiles g = some t → t.dying = some q → (s.site n).tile.queue = [] → (s.site n).mx.queue = [] → s.reqs = [] →
      ∃ u : State, exec (.tileFree n g) s = .next u ∧ Tbl.get? (u.site n).tile.tiles g = none ∧
        (∀ j, j ≠ g → Tbl.get? (u.site n).tile.tiles j = Tbl.get? (s.site n).tile.tiles j) ∧
        (∀ j, g ≤ j → j < g + (Desc.of (t.shape.zeroExtend 64)).granules → (u.site n).tile.gen j = (s.site n).tile.gen j + 1) ∧
        (∀ j, j < g ∨ g + (Desc.of (t.shape.zeroExtend 64)).granules ≤ j → (u.site n).tile.gen j = (s.site n).tile.gen j))

/-- Frames and tiles: their grants, and the end of a tile (R100, R152, R153, R175, R176). -/
def Obligations.FrameAndTileGrants : Prop := Claims.FrameGrants ∧ Claims.TileLifetimes

/-! ### Vector and matrix engines -/

/-- VECTOR_OP_START, VECTOR_OP_COMPLETE and GAP_BOOKING_DROP (R169, R178 to R180, R187): operations start in order once their waits are over, an operation whose
tile is gone does nothing and completes with PSN 1 after a record 0x0204, a started one at the head finishes and its completion carries its D word; its PSN is set
when the operation carries poison; a booking is dropped when its operation has to wait for an earlier operation on its tiles, and for nothing else. -/
def Sys2Proof.Claims.VectorEngineSteps : Prop :=
  ∀ (s : State) (n : Nat) (o : TileOp) (rest : List TileOp), (s.site n).tile.queue = o :: rest →
    (o.started = false → s.tileWaits n 1 o = true →
      exec (.vectorOpStart n) s = .next s) ∧
    (o.started = false → o.booked = true →
      (s.tileBlocked n o = true → ∃ u : State, exec (.gapBookingDrop n) s = .next u ∧ (u.site n).tile.queue = { o with booked := false } :: rest) ∧
      (s.tileBlocked n o = false → (s.site n).mx.queue = [] → exec (.gapBookingDrop n) s = .next s)) ∧
    (o.started = false → s.tileWaits n 1 o = false →
      (∀ d, s.staleTile o = some d → ∃ u : State, exec (.vectorOpStart n) s = .next u ∧
        (u.site n).tile.queue = { o with started := true, result := some (o.vd, true) } :: rest) ∧
      (s.staleTile o = none → ∃ u : State, exec (.vectorOpStart n) s = .next u ∧
        (u.site n).tile.queue = { o with started := true, g := (s.cregs n o.who.ctx).gvec } :: rest ∧ u.mem = s.mem)) ∧
    (o.started = false → exec (.vectorOpComplete n) s = .next s) ∧
    (o.started = true → ∀ v p, o.result = some (v, p) → ∃ u : State, (u.site n).tile.queue = rest ∧ u.mem = s.mem ∧
      exec (.vectorOpComplete n) s = .next (u.replyFrom n n o.target v p (o.seq :: o.deps) o.who.asid o.gen)) ∧
    (o.started = true → o.result = none → ∃ (u : State) (p : Bool), (o.psn = true → p = true) ∧
      exec (.vectorOpComplete n) s = .next (u.replyFrom n n o.target o.vd p (o.seq :: o.deps) o.who.asid o.gen))

/-- BANK_RECONFIGURE and BANK_WIPE_DONE (R181, R182): an accepted command sets PEND in its banks, a command that breaks a rule changes no bank; when the wipe is done,
every byte of the banks is 0, nothing outside them has changed, and the new ownership holds with PEND clear. -/
def Sys2Proof.Claims.BankSteps : Prop :=
  ∀ (s : State) (n k : Nat) (v : Word),
    (let o := bankCommand v
     (∀ p ∈ (s.site n).tile.bankOps, p.wiping = true ∨ p.bank ≠ o.bank ∨ p.grp ≠ o.grp) →
     ((s.site n).tile.bankOk o = false → ∃ u : State, exec (.bankReconfigure n v) s = .next u ∧ (u.site n).tile = (s.site n).tile) ∧
     ((s.site n).tile.bankOk o = true → ∃ u : State, exec (.bankReconfigure n v) s = .next u ∧ u.mem = s.mem ∧
       ∀ b x, (s.site n).tile.banks[b]? = some x →
         (u.site n).tile.banks[b]? = some (if o.bank ≤ b ∧ b < o.bank + 2 ^ o.grp then { x with pend := true } else x))) ∧
    (∀ o, (s.site n).tile.bankOps[k]? = some o → o.wiping = true → ∃ u : State, exec (.bankWipeDone n k) s = .next u ∧
      (let lo := 0xC000000000 + n * 2 ^ 21 + o.bank * 2 ^ 18
       let hi := lo + 2 ^ o.grp * 2 ^ 18
       (∀ a, lo ≤ a → a < hi → u.mem.byte a = 0) ∧ (∀ a, a < lo ∨ hi ≤ a → u.mem.byte a = s.mem.byte a)) ∧
      (u.site n).tile.bankOps = listDrop1 (s.site n).tile.bankOps k ∧
      ∀ b x, (s.site n).tile.banks[b]? = some x →
        (u.site n).tile.banks[b]? =
          some (if o.bank ≤ b ∧ b < o.bank + 2 ^ o.grp then { grp := o.grp, shared := o.shared, pend := false, owner := o.owner } else x))

/-- Steps of a site's vector engine and of its tile banks (R169, R178 to R182, R187). -/
def Obligations.VectorEngine : Prop := Claims.VectorEngineSteps ∧ Claims.BankSteps

/-- MATRIX_OP_START and MATRIX_OP_COMPLETE (R261, R267, R270, R273): an operation that has to wait waits; one whose tile is gone, or whose context has lost the
engine, is dropped with the payload of a dropped operation; any other that is not `mldw` starts with the result that the engine's own step gives it, and a
started one completes with that result. -/
def Sys2Proof.Claims.MatrixEngineSteps : Prop :=
  ∀ (s : State) (n : Nat) (o : TileOp) (rest : List TileOp), (s.site n).mx.queue = o :: rest →
    (o.started = false → s.tileWaits n 2 o = true → (s.site n).mx.next? = some 0 → exec (.matrixOpStart n) s = .next s) ∧
    (o.started = false → s.tileWaits n 2 o = false → (s.site n).mx.next? = some 0 →
      ((∃ d, s.staleTile o = some d) ∨ ownerStops (s.site n).mx o = true → ∃ u : State, exec (.matrixOpStart n) s = .next u ∧
        (u.site n).mx.queue = { o with started := true, result := some (o.dropPayload, true) } :: rest ∧
        (u.site n).mx.core = (s.site n).mx.core) ∧
      (s.staleTile o = none → ownerStops (s.site n).mx o = false → o.ins.isMldw = false → ∃ u : State,
        exec (.matrixOpStart n) s = .next u ∧
        (u.site n).mx.queue = { o with started := true, result := some (mxRun n o none false s).1 } :: rest)) ∧
    (o.started = true → ∀ v p, o.result = some (v, p) → ∃ u : State, (u.site n).mx.queue = rest ∧ u.mem = s.mem ∧
      exec (.matrixOpComplete n) s = .next (u.replyFrom n n o.target v p (o.seq :: o.deps) o.who.asid o.gen))

/-- What matrix operations do to the engine (R249, R252, R258, R265, R267, R277, R279, R282, R284, R285): a swap exchanges the planes, and the plane that becomes active is not
valid when it is sparse without metadata; a mode changes only while every row is clear; `mclr` clears the rows of its mask; `mtkc` empties the lists; `mclaim` saves the engine
and resets it; `mrel` without a claim changes nothing; `mstat.take` clears the sticky bits. -/
def Sys2Proof.Claims.MatrixEffects : Prop :=
  ∀ (s : State) (n : Nat) (o : TileOp) (y : XF) (b : Bool),
    let m := (s.site n).mx
    let r := mxRun n o none false s
    let u := (r.2.site n).mx
    (o.ins = .mswp y → r.1 = (0, o.psn) ∧ u.core.shadow = m.core.active ∧
      u.core.active = { m.core.shadow with valid := m.core.shadow.valid && (m.core.shadow.sparsity == 0 || m.core.shadow.metaOk) }) ∧
    (o.ins = .macc b y → (m.core.accz = true → r.1 = (1, o.psn) ∧ u.core = { m.core with anchored := b }) ∧
      (m.core.accz = false → r.1 = (0, true) ∧ u.core = m.core)) ∧
    (o.ins = .manc y → (m.core.accz = true → r.1 = (1, o.psn) ∧ u.core = { m.core with anchor := o.va.toInt }) ∧
      (m.core.accz = false → r.1 = (0, true) ∧ u.core = m.core)) ∧
    (o.ins = .mclr y → r.1 = (0, o.psn) ∧ ∀ k x, m.core.acc[k]? = some x →
      u.core.acc[k]? = some (if y.m.getLsbD 0 = false ∧ k < 64 ∨ y.m.getLsbD 0 = true ∧ o.va.getLsbD k = true then AccRow.cleared else x)) ∧
    (o.ins = .mtkc y → r.1 = (0, o.psn) ∧ u.core.topk = List.replicate 64 { pairs := [], poison := false } ∧ u.core.acc = m.core.acc) ∧
    (o.ins = .mclaim y → (m.claim = false → m.owner ≠ some 7 → r.1 = (o.vd, o.psn) ∧ u.claim = true ∧ u.core = MxCore.reset) ∧
      (m.claim = true ∨ m.owner = some 7 → r.1 = (o.vd, true) ∧ u.claim = m.claim ∧ u.core = m.core)) ∧
    (o.ins = .mrel y → (m.claim = false → r.1 = (o.vd, true) ∧ u.core = m.core) ∧
      (m.claim = true → u.claim = false ∧ (m.void = true → r.1 = (o.vd, o.psn) ∧ u.core = MxCore.reset))) ∧
    (o.ins = .mstat b y → r.1.1.toNat % 8 = ((r.1.1.toNat % 8) ||| m.sticky.toNat) ∧ r.1.2 = o.psn ∧ u.sticky = if b then 0 else m.sticky)

/-- Steps of the matrix engine, and the effects of its operations (R249 to R285). -/
def Obligations.MatrixEngine : Prop := Claims.MatrixEngineSteps ∧ Claims.MatrixEffects

/-- Elements that vector operations write (R168, R190 to R195, R203 to R205): integer sums, differences and products wrap, or saturate where SAT says so; bitwise functions work on codes; comparisons
write 1 or 0; a selection, a transposition and the fills write what their entries give. -/
def Obligations.VectorElements : Prop :=
  ∀ (x : XF) (v : VecIn) (r j : Nat), r < v.dD.rows → j < v.dD.cols →
    let w := x.ef.width
    let el (i : Instr) : Nat := (vecRun i v).img.code r j
    let a := v.A.code r j
    let b := v.B.code r j
    let m := v.A.code r j
    let k := v.B.code (if x.m.getLsbD 0 then 0 else r) (if x.m.getLsbD 1 then 0 else j)
    let p := codeInt x.ef m
    let q := codeInt x.ef k
    (x.ef.isInt = true → x.sat = false →
      ((el (.vadd x) : Nat) : Int) = (p + q) % 2 ^ w ∧ ((el (.vsub x) : Nat) : Int) = (p - q) % 2 ^ w ∧
      ((el (.vmul x) : Nat) : Int) = p * q % 2 ^ w ∧ ((el (.vneg x) : Nat) : Int) = -p % 2 ^ w) ∧
    (x.ef.isInt = true → x.sat = true →
      ((el (.vadd x) : Nat) : Int) = max x.ef.minInt (min x.ef.maxInt (p + q)) % 2 ^ w) ∧
    (x.ef.isInt = true → ((el (.vmin x) : Nat) : Int) = min p q % 2 ^ w ∧ ((el (.vmax x) : Nat) : Int) = max p q % 2 ^ w) ∧
    (∀ i < w, (el (.vlog .and x)).testBit i = (a.testBit i && b.testBit i) ∧ (el (.vlog .or x)).testBit i = (a.testBit i || b.testBit i) ∧
      (el (.vlog .xor x)).testBit i = (a.testBit i ^^ b.testBit i)) ∧
    (x.ef.isInt = true → (el (.vcmp .eq x) = if p = q then 1 else 0) ∧ (el (.vcmp .lt x) = if p < q then 1 else 0) ∧
      (el (.vcmp .le x) = if p ≤ q then 1 else 0)) ∧
    el (.vsel x) = (if v.C.code r j = 0 then b else a) ∧
    el (.vtrn x) = v.A.code j r ∧
    el (.vfill .const x) = v.a.toNat % 2 ^ w ∧ el (.vfill .iota x) = (r * v.dD.cols + j) % 2 ^ w ∧
    el (.vfill .cix x) = j % 2 ^ w ∧ el (.vfill .rix x) = r % 2 ^ w ∧
    el (.vbc x) = if x.m.getLsbD 0 then v.A.code r v.b.toNat else v.A.code v.b.toNat j

/-! ### The memory port -/

/-- A request stands in the queue as it was, in this phase. -/
def Sys2Proof.Claims.Stands (u : State) (r : MemReq) (p : ReqPhase) : Prop :=
  ∃ since, u.reqs.find? (·.id == r.id) = some { r with phase := p, since := since }

/-- MEM_TRANSLATE (R215 to R217, R219): a physical access needs no translation; for a load or store within one page of a context that is here, an extent that allows the access translates it,
an extent that does not makes it fail, and a page with no extent parks it and asks the pager for a walk; a request waits while an earlier one of its port is to be looked up (R216), and while 256 requests
are parked there (R216, R217). -/
def Sys2Proof.Claims.TranslationSteps : Prop :=
  ∀ (s : State) (r : MemReq) (m : MF) (store : Bool) (page : Nat) (k : CtxSlot),
    let n := r.who.site
    r.ins = (if store then .st m else .ld m) → s.reqs.find? (·.id == r.id) = some r → r.phase = .committed →
    (∀ q ∈ s.reqs, q.who.site = n → q.id < r.id → q.phase = .committed → q.unread = true) →
    (m.md.getLsbD 3 = true → ∃ u : State, exec (.memTranslate r.id) s = .next u ∧ Stands u r (.ready [])) ∧
    (m.md.getLsbD 3 = false → pagesOf r.ranges = [page] → s.slot? n r.who.ctx = some k → k.asid = r.who.asid →
      (∀ e, s.extent? n r.who.ctx page = some e →
        ((if store then e.2.w else e.2.r) = true → ∃ u : State, exec (.memTranslate r.id) s = .next u ∧
          Stands u r (.ready [{ vpn := page, typ := e.2.typ, dev := e.2.dev, frame := e.2.frame + (page - e.2.vpn), r := e.2.r, w := e.2.w }])) ∧
        ((if store then e.2.w else e.2.r) = false → ∃ u : State, exec (.memTranslate r.id) s = .next u ∧ ∀ q ∈ u.reqs, q.id ≠ r.id)) ∧
      (s.extent? n r.who.ctx page = none → s.parkedReqs n < 256 → ∃ u : State, exec (.memTranslate r.id) s = .next u ∧ Stands u r (.parked [page] false) ∧
        (n, r.who.asid, r.who.ctx, page) ∈ u.pager.walks) ∧
      (s.extent? n r.who.ctx page = none → 256 ≤ s.parkedReqs n → exec (.memTranslate r.id) s = .next s))

/-- PAGE_WALK_DONE (R217): a leaf becomes an extent and the requests that waited only for its page go back to their translation; an invalid entry leaves them parked. -/
def Sys2Proof.Claims.WalkResults : Prop :=
  ∀ (s : State) (i n asid c page : Nat) (k : CtxSlot) (x : Xlat),
    let t := { s with pager := { s.pager with walks := listDrop1 s.pager.walks i } }
    s.pager.walks[i]? = some (n, asid, c, page) → s.slot? n c = some k → k.asid = asid →
    (∀ q ∈ s.waitingFor n asid c page, ∃ m : MF, q.ins = .ld m) →
    ((t.walk n (t.tableKey n c) (page * 2 ^ 21)).1 = .leaf x → ∃ u : State, exec (.pageWalkDone i) s = .next u ∧
      (∀ (j : Nat) (r : MemReq) (f : Bool), s.reqs[j]? = some r → r.phase = .parked [page] f → r.who.site = n → r.who.asid = asid → r.who.ctx = c →
        u.reqs[j]? = some { r with phase := .committed })) ∧
    (∀ level, (t.walk n (t.tableKey n c) (page * 2 ^ 21)).1 = .invalid level → ∃ u : State, exec (.pageWalkDone i) s = .next u ∧
      (∀ (j : Nat) (r : MemReq) (l : List Nat) (f : Bool), s.reqs[j]? = some r → r.phase = .parked l f → page ∈ l → r.who.site = n → r.who.asid = asid → r.who.ctx = c →
        u.reqs[j]? = some { r with phase := .parked l true }))

/-- FLTCTL_RETRY, FLTCTL_FAIL and STALE_GENERATION_RETRY (R217, R218, R247): the parked requests of the ASID at the site are looked up again, or complete; a request with an old generation
is translated again under the current one. -/
def Sys2Proof.Claims.FaultControl : Prop :=
  ∀ (s : State) (n asid : Nat),
    (∃ u : State, exec (.fltctlRetry n asid) s = .next u ∧ u.mem = s.mem ∧ ∀ (j : Nat) (r : MemReq), s.reqs[j]? = some r →
      (r.who.site = n → r.who.asid = asid → (∃ l f, r.phase = .parked l f) → u.reqs[j]? = some { r with phase := .committed }) ∧
      ((r.who.site ≠ n ∨ r.who.asid ≠ asid ∨ ∀ l f, r.phase ≠ .parked l f) → u.reqs[j]? = some r)) ∧
    (∃ u : State, exec (.fltctlFail n asid) s = .next u ∧ ∀ r ∈ u.reqs, r.who.site = n → r.who.asid = asid → ∀ l f, r.phase ≠ .parked l f) ∧
    (∀ (r : MemReq) (x : List Xlat), s.reqs.find? (·.id == r.id) = some r → r.phase = .ready x →
      (r.gen ≠ (s.gen r.who.asid).toNat → exec (.staleGenerationRetry r.id) s =
        .next ((s.count r.who.site 3).setReq { r with phase := .committed, gen := (s.gen r.who.asid).toNat })) ∧
      (r.gen = (s.gen r.who.asid).toNat → exec (.staleGenerationRetry r.id) s = .next s))

/-- Translation of memory requests: lookups, walks, fault control and stale generations (R215 to R219, R247). -/
def Obligations.Translation : Prop := Claims.TranslationSteps ∧ Claims.WalkResults ∧ Claims.FaultControl

/-- A write that performs leaves its bytes in memory and every other byte as it was, in every state; reading any range back gives them, and the memory's canonical form holds on. -/
def Sys2Proof.Claims.MemoryWrites : Prop :=
  ∀ (m : MemState) (g : Agent) (now a b : Nat) (l : List Byte),
    let w := m.write g now a l
    w.bytes a l.length = l ∧ (b < a ∨ a + l.length ≤ b → w.byte b = m.byte b) ∧ (∀ i < l.length, w.byte (a + i) = l.getD i 0) ∧
    w.host = m.host ∧ w.frames = m.frames ∧ (m.wf = true → w.wf = true)

/-- MEM_ACCESS_PERFORM of a physical store or load in HBM when nothing holds it (R210, R219, R239, R240): a store leaves the low bytes of its register at its address, in little-endian order, and
every other byte of memory as it was; a load leaves all memory as it was, and answers with the bytes there, zero- or sign-extended. -/
def Sys2Proof.Claims.AccessesInMemory : Prop :=
  ∀ (s : State) (r : MemReq) (m : MF),
    let n := r.who.site
    s.fences.find? (·.seq == r.id) = none → s.reqs.find? (·.id == r.id) = some r → r.phase = .ready [] → m.md.getLsbD 3 = true → m.ord = .plain → m.scp.toNat < 8 →
    r.gen = (s.gen r.who.asid).toNat → r.vat = none → s.fenced 3 n r.who.ctx r.who.asid r.id = false → (∀ q ∈ s.portAccs n, mustFollow q (s.portAcc r) = false) →
    r.ea % r.ins.unitBytes = 0 → r.ea + 8 ≤ 2 ^ 39 → inCellarRange s.rcv r.ea = false → s.pkg.wiping = [] → s.pager.migs = [] → s.pager.twins = [] → s.pager.twinPairs = [] →
    s.twinAt n r.who.ctx = none → s.pager.twinOk = [] →
    (r.ins = .st m → r.psn = false → ∃ u : State, exec (.memAccessPerform r.id) s = .next u ∧
      u.mem.bytes r.ea r.ins.unitBytes = toBytes r.vd.toNat r.ins.unitBytes ∧
      (∀ b, b < r.ea ∨ r.ea + r.ins.unitBytes ≤ b → u.mem.byte b = s.mem.byte b) ∧ u.mem.host = s.mem.host ∧ ∀ q ∈ u.reqs, q.id ≠ r.id) ∧
    (r.ins = .ld m → s.mem.recs = [] → s.mem.units = [] → s.mem.lines = [] → s.mem.inj = none → ∃ (t : State) (v : Word),
      exec (.memAccessPerform r.id) s = .next (t.finishReq r v false []) ∧ t.mem.cells = s.mem.cells ∧ t.mem.host = s.mem.host ∧
      (m.md.getLsbD 2 = false → v = BitVec.ofNat 64 (ofBytes (s.mem.bytes r.ea r.ins.unitBytes))) ∧
      (m.md.getLsbD 2 = true → v = BitVec.ofInt 64 (sext (ofBytes (s.mem.bytes r.ea r.ins.unitBytes)) (8 * r.ins.unitBytes))))

/-- What writes and accesses do to the bytes of memory (R210, R219, R239, R240). -/
def Obligations.MemoryContents : Prop := Claims.MemoryWrites ∧ Claims.AccessesInMemory

/-- MIGRATION_GRANULE_COPY and MIGRATION_COMPLETE (R232): granule P of the old frame is copied to the new one, nothing else in memory changes, and P advances; at P = 2,048 the `migr`
completes, and requests that name the old frame are sent on. -/
def Sys2Proof.Claims.MigrationSteps : Prop :=
  ∀ (s : State) (k : Nat) (m : Migration), s.pager.migs[k]? = some m →
    (m.p < 2048 →
      let a := m.old * 2 ^ 21 + m.p * 1024
      let b := m.new * 2 ^ 21 + m.p * 1024
      ∃ u : State, exec (.migrationGranuleCopy k) s = .next u ∧ u.mem.bytes b 1024 = s.mem.bytes a 1024 ∧
        (∀ c, c < b ∨ b + 1024 ≤ c → u.mem.byte c = s.mem.byte c) ∧ u.pager.migs[k]? = some { m with p := m.p + 1 }) ∧
    (m.p = 2048 → m.fwd = false → ∀ r, s.reqs.find? (·.id == m.req) = some r →
      ∃ u : State, exec (.migrationComplete k) s = .next u ∧ u.pager.migs[k]? = some { m with fwd := true } ∧ ∀ q ∈ u.reqs, q.id ≠ m.req)

/-- WS_REFRESH_START and WS_REFRESH_END (R213): at its time a bank enters refresh, and its next window begins 22,400 clk later; 168 clk later the refresh ends. -/
def Sys2Proof.Claims.RefreshWindows : Prop :=
  ∀ (s : State) (die bank : Nat),
    let k := die * 16 + bank
    let now := s.clkAt (die * 256)
    let t := s.nextWindow die bank
    (die < 8 → bank < 16 → k ∉ s.mem.refresh → t ≤ now → ∃ u : State, exec (.wsRefreshStart die bank) s = .next u ∧
      k ∈ u.mem.refresh ∧ u.nextWindow die bank = t + 22400 ∧ u.mem.cells = s.mem.cells) ∧
    (k ∈ s.mem.refresh → t + 168 ≤ now + 22400 → ∃ u : State, exec (.wsRefreshEnd die bank) s = .next u ∧
      k ∉ u.mem.refresh ∧ u.mem.cells = s.mem.cells) ∧
    (k ∈ s.mem.refresh → now + 22400 < t + 168 → exec (.wsRefreshEnd die bank) s = .next s)

/-- Migration of a page, and refresh windows of the weight store (R213, R232). -/
def Obligations.MigrationAndRefresh : Prop := Claims.MigrationSteps ∧ Claims.RefreshWindows

/-- CELLAR_LINE_WRITE (R382 to R384, R388): an unlogged `dst` to a cellar range that this context's extent gives puts its bytes at the primary mirror of its line and changes no other byte; the bytes are then on their way to
the other mirror, and stand there when the write has been acknowledged. -/
def Sys2Proof.Claims.CellarWrites : Prop :=
  ∀ (s : State) (r : MemReq) (m : MF) (x : Xlat),
    let n := r.who.site
    let pa := x.frame * 2 ^ 21 + r.ea % 2 ^ 21
    let a := cellarPrimary s.rcv pa
    let b := cellarSecondary s.rcv pa
    let len := r.ins.unitBytes
    r.ins = .dst m → s.fences.find? (·.seq == r.id) = none → s.reqs.find? (·.id == r.id) = some r → r.phase = .ready [x] → m.ord = .plain → m.scp.toNat < 8 →
    r.psn = false → r.gen = (s.gen r.who.asid).toNat → r.vat = none → s.fenced 3 n r.who.ctx r.who.asid r.id = false → (∀ q ∈ s.portAccs n, mustFollow q (s.portAcc r) = false) →
    x.vpn = r.ea / 2 ^ 21 → x.typ = 5 → r.ea % 64 + len ≤ 64 → 2 ^ 41 ≤ pa → cellarRegion pa < s.rcv.nreg → inLog s.rcv (cellarRegion pa) = false → s.rcv.openState = 0 → s.rcv.nreg % 8 = 0 →
    s.rcv.held = 0 → s.rcv.dirty = [] → s.pkg.wiping = [] → s.pager.migs = [] → s.pager.twins = [] → s.pager.twinPairs = [] → s.pager.twinOk = [] →
    s.twinAt n r.who.ctx = none →
    ∃ (u : State) (w : MirrorWrite), exec (.cellarLineWrite r.id) s = .next u ∧ u.mem.bytes a len = toBytes r.vd.toNat len ∧
      (∀ c, c < a ∨ a + len ≤ c → u.mem.byte c = s.mem.byte c) ∧
      u.rcv.mirrors = s.rcv.mirrors ++ [w] ∧ w.pa = pa ∧ w.data = toBytes r.vd.toNat len ∧ w.second = true ∧
      (s.rcv.mirrors = [] → ∃ v : State, step { u with turn := some (.mirror 0) } = .next v ∧ v.rcv.mirrors = [] ∧
        v.mem.bytes b len = toBytes r.vd.toNat len ∧ ∀ c, c < b ∨ b + len ≤ c → v.mem.byte c = u.mem.byte c)

/-- HOST_COMPLETION and HOST_COMPLETION_TIMEOUT (R413, R417): data of the host is what its memory holds and completes the read; Unsupported Request, Completer Abort and 50 µs without an answer
end it with 0x030B. -/
def Sys2Proof.Claims.HostAnswers : Prop :=
  ∀ (s : State) (r : MemReq) (x : List Xlat) (p : Piece) (l : List Byte),
    s.reqs.find? (·.id == r.id) = some r → r.phase = .remote x → r.answer = none → s.flushing r.id = false → s.hostPieces r x = [p] → r.ins.isMldw = false →
    (l.length = p.len → ∃ t : State, exec (.hostCompletion r.id 0 l) s = .next (t.complete r x) ∧
      t.mem.hostBytes (s.hostAddr p.pa) p.len = l ∧ t.mem.cells = s.mem.cells) ∧
    (∀ code, code = 1 ∨ code = 2 → ∃ u : State, exec (.hostCompletion r.id code l) s = .next u ∧ ∀ q ∈ u.reqs, q.id ≠ r.id) ∧
    (r.since + 70000 ≤ s.clk → ∃ u : State, exec (.hostCompletionTimeout r.id) s = .next u ∧ ∀ q ∈ u.reqs, q.id ≠ r.id) ∧
    (s.clk < r.since + 70000 → exec (.hostCompletionTimeout r.id) s = .next s)

/-- Stores to the cellar, and the host's answers (R382, R384, R388, R413, R417). -/
def Obligations.CellarAndHost : Prop := Claims.CellarWrites ∧ Claims.HostAnswers

/-- STREAM_GENERATOR_GRANT, BUB_EMIT and STREAM_ITEM (R71, R72, R81, R228 to R230, R238, R300): the first waiting `sopen` gets the lowest free generator; DUTY item times at the start of a run of 256 are held; a
scalar item of an HBM page, when nothing of its port orders it after itself, is the bytes there, and the position advances; a miss parks the generator, while the port has room, and asks for a walk; a misaligned item fails; with
its last item the generator is free. -/
def Obligations.StreamSteps : Prop :=
  ∀ (s : State) (n k : Nat),
    let p := (s.site n).port
    (∀ r rest m t, p.sopens = r :: rest → r.ins = .sopen m → r.target = some t → (∀ g ∈ p.gens, g.1 < 8) → k < 8 → Tbl.get? p.gens k = none →
      (∀ j < k, (Tbl.get? p.gens j).isSome) → ∃ (u : State) (g : StreamRun), exec (.streamGeneratorGrant n) s = .next u ∧
        (u.site n).port.sopens = rest ∧ Tbl.get? (u.site n).port.gens k = some g ∧ g.sdx = m.md.toNat ∧ g.who = r.who ∧ g.target = t ∧ g.pos = 0 ∧
        g.off = r.va ∧ g.parked = false ∧ g.desc = s.streamWords n r.who.ctx m.md.toNat) ∧
    (∀ g, k < 8 → Tbl.get? p.gens k = some g → g.parked = false → s.sourcesStopped n g.who.ctx = false →
      let d := g.d
      let va := d.itemVa g.off g.pos
      (g.beat = 0 → 0 < s.duty n → exec (.streamItem n k) s = .next s ∧
        ∃ u : State, exec (.bubEmit n k) s = .next u ∧ Tbl.get? (u.site n).port.gens k = some { g with beat := s.duty n }) ∧
      (g.beat ≠ 0 ∨ s.duty n = 0 →
        (d.replay = false → d.tile = false →
          (0 ≤ va → va + d.itemBytes ≤ 2 ^ 56 → va % d.itemBytes ≠ 0 → exec (.streamItem n k) s = .next (s.failItem n k g 0x0304 va.toNat va.toNat)) ∧
          (0 ≤ va → va + d.itemBytes ≤ 2 ^ 56 → va % d.itemBytes = 0 →
            let page := va.toNat / 2 ^ 21
            (s.extent? n g.who.ctx page = none → s.parkedReqs n < 256 → ∃ u : State, exec (.streamItem n k) s = .next u ∧
              Tbl.get? (u.site n).port.gens k = some { g with parked := true, since := s.clk } ∧ (n, g.who.asid, g.who.ctx, page) ∈ u.pager.walks) ∧
            (s.extent? n g.who.ctx page = none → 256 ≤ s.parkedReqs n → exec (.streamItem n k) s = .next s) ∧
            (∀ e, s.extent? n g.who.ctx page = some e → e.2.r = false →
              exec (.streamItem n k) s = .next (s.failItem n k g 0x0302 0 va.toNat)) ∧
            (∀ e, s.extent? n g.who.ctx page = some e → e.2.r = true → e.2.typ = 0 → (e.2.frame + (page - e.2.vpn)) * 2 ^ 21 < 2 ^ 39 →
              inCellarRange s.rcv ((e.2.frame + (page - e.2.vpn)) * 2 ^ 21 + va.toNat % 2 ^ 21) = false → s.pkg.wiping = [] → s.pager.migs = [] →
              s.mem.recs = [] → s.mem.units = [] → s.mem.lines = [] → s.mem.inj = none → s.fences = [] →
              (let acc := s.itemAcc g.who g.seq g.act g.alc g.deps d g.off g.pos (g.pos + 1)
               ∀ q ∈ s.portAccs g.who.site, mustFollow q acc = false) →
              ∃ t u : State, t.mem.cells = s.mem.cells ∧ exec (.streamItem n k) s = .next u ∧
                u = (t.sendItem n g
                  (BitVec.ofNat 64 (ofBytes (s.mem.bytes ((e.2.frame + (page - e.2.vpn)) * 2 ^ 21 + va.toNat % 2 ^ 21) d.itemBytes))) false).nextItem n k g ∧
                (d.count ≤ g.pos + 1 → Tbl.get? (u.site n).port.gens k = none) ∧
                (g.pos + 1 < d.count → Tbl.get? (u.site n).port.gens k = some { g with pos := g.pos + 1, parked := false, beat := (g.beat + 1) % 256 }))))))

/-! ### Launches -/

/-- SEED_RELEASE and LINK_TOKEN_ROUTE (R297, R301): a launch that is IDLE or RUNNING and not freezing takes the seed at the head of its queue, or else its first link token, and runs then; any other takes
nothing. A token for a launch of this device waits behind the earlier ones of its site and entry; one whose entry cannot be used is discarded with a record; one for another device leaves. -/
def Obligations.SeedsAndLinks : Prop :=
  ∀ (s : State) (h i : Nat),
    (∀ l, s.launch? h = some l →
      (l.open_ = false → exec (.seedRelease h) s = .next s) ∧
      (∀ x rest, l.open_ = true → l.seeds = x :: rest → exec (.seedRelease h) s = .next ((s.setLaunch h { l with seeds := rest }).releaseSeed h x) ∧
        ∃ (u : State) (k : Launch), exec (.seedRelease h) s = .next u ∧ u.launch? h = some k ∧ k.state = .running ∧ k.seeds = rest) ∧
      (∀ f rest, l.open_ = true → l.seeds = [] → l.links = f :: rest →
        exec (.seedRelease h) s = .next ((s.setLaunch h { l with links := rest }).releaseLink h f) ∧
        ∃ (u : State) (k : Launch), exec (.seedRelease h) s = .next u ∧ u.launch? h = some k ∧ k.state = .running ∧ k.links = rest)) ∧
    (∀ f, s.pager.links[i]? = some f → (∀ g ∈ s.pager.links.take i, g.src ≠ f.src ∨ g.link ≠ f.link) → s.twinAt f.src f.sctx = none →
      let t := s.modPager fun p => { p with links := listDrop1 p.links i }
      (linkTo f.entry = none → exec (.linkTokenRoute i) s = .next (t.linkRefused f f.entry)) ∧
      (∀ dev k, linkTo f.entry = some (dev, k) → s.isSelf dev = false → s.reachable dev = true → s.link.unacked = [] →
        ∃ (u : State) (num p : Nat), exec (.linkTokenRoute i) s = .next u ∧ u.pager.links = listDrop1 s.pager.links i ∧
          .pod dev 5 num p (.token dev k f.tok) ∈ u.out) ∧
      (∀ dev k l, linkTo f.entry = some (dev, k) → s.isSelf dev = true → s.launch? k = some l → l.asid = f.asid → f.tok.dx.toNat < l.w → f.tok.dy.toNat < l.h →
        l.open_ = false → l.state ≠ .failed → l.state ≠ .evicted →
        (l.links.length < 256 → ∃ (u : State) (q : Launch) (y : Flight), exec (.linkTokenRoute i) s = .next u ∧ u.pager.links = listDrop1 s.pager.links i ∧
          u.launch? k = some q ∧ q.links = l.links ++ [y] ∧ y.tok = f.tok) ∧
        (256 ≤ l.links.length → exec (.linkTokenRoute i) s = .next s)))

/-- PLACEMENT_RETRY and CONFIG_WAVE_DONE (R294, R295, R301, R310): the first waiting launch takes the base that the search finds for it, with the copy of a twin placed beside it (R298, R315), and leaves the list; one for which it finds none stays; the wave over its
loaded sites makes a placed launch IDLE with the empty image as its replay base, a resumed one what it was with its saved image, and a contained one RUNNING. -/
def Sys2Proof.Claims.PlacementSteps : Prop :=
  ∀ (s t : State) (h : Nat) (l : Launch) (w : WaitPlace) (plans : List Plan),
    (∀ rest, s.pager.waiting = w :: rest → w.handle = h → s.launch? h = some l → w.what = .place → s.plans l = (some plans, t) →
      let f := t.search l plans l.twin.isSome l.twin.toList l.bases
      (∀ b, f.base = some b → exec (.placementRetry 0) s = .next ((t.settled 0).settleAt h l plans b w.data fun _ _ => 0)) ∧
      (f.base = none → f.feat = none → exec (.placementRetry 0) s = .next t)) ∧
    (s.launch? h = some l → s.heldSites h l ≠ [] →
      (l.state = .placing → s.rcv.roll = none → ∃ (u : State) (k : Launch), exec (.configWaveDone h) s = .next u ∧ u.launch? h = some k ∧ k.state = .idle ∧ k.base = .empty ∧ k.log = [] ∧ k.replies = []) ∧
      (l.state = .resuming → ∃ (u : State) (k : Launch), exec (.configWaveDone h) s = .next u ∧ u.launch? h = some k ∧
        k.state = (if l.inRun then .running else .idle) ∧ k.base = .saved ∧ k.log = [] ∧ k.replies = []) ∧
      (l.state = .containing → ∃ (u : State) (k : Launch), exec (.configWaveDone h) s = .next u ∧ u.launch? h = some k ∧ k.state = .running ∧ k.replies = [])) ∧
    (s.launch? h = some l → s.heldSites h l = [] → exec (.configWaveDone h) s = .next s)

/-- QUIESCENCE_WAVE (R303, R304, R307): one still wave is remembered by its ΣSENT; a second one with the same ΣSENT ends the run of a running launch whose ends of rank 4 have reached PR_NSINK, or confirms a freeze; a wave that
is not still starts over. -/
def Sys2Proof.Claims.QuiescenceWaves : Prop :=
  ∀ (s : State) (h : Nat) (l : Launch), s.launch? h = some l →
    let t := s.sums l.ctx l.allSites
    let still := t.sent = t.recv ∧ t.live = 0 ∧ t.tile = 0
    (l.freeze = none → l.state = .running → l.nsink ≤ (s.sums l.ctx l.sites).eos4 + l.eosBase →
      (still → t.req = 0 → l.quiet ≠ some t.sent → exec (.quiescenceWave h) s = .next (s.setLaunch h { l with quiet := some t.sent })) ∧
      (still → t.req = 0 → l.quiet = some t.sent → exec (.quiescenceWave h) s = .next (s.endRun h l) ∧
        (l.evictAtEnd = false → l.twinOff = false → ∃ (u : State) (k : Launch), exec (.quiescenceWave h) s = .next u ∧ u.launch? h = some k ∧ k.state = .idle ∧
          k.inRun = false ∧ k.runs = l.runs + 1)) ∧
      (¬still ∨ t.req ≠ 0 → exec (.quiescenceWave h) s = .next (s.setLaunch h { l with quiet := none }))) ∧
    (l.freeze = none → l.state ≠ .running → exec (.quiescenceWave h) s = .next s) ∧
    (∀ f r, l.freeze = some f → f.why = .freeze r →
      (s.allFrozen l = true → still → l.quiet ≠ some t.sent → exec (.quiescenceWave h) s = .next (s.setLaunch h { l with quiet := some t.sent })) ∧
      (s.allFrozen l = true → still → l.quiet = some t.sent → l.behind = [] → l.twinOff = false → ∃ (u : State) (k : Launch),
        exec (.quiescenceWave h) s = .next u ∧ u.launch? h = some k ∧ k.state = .frozen ∧ k.freeze = none) ∧
      (s.allFrozen l = false ∨ ¬still → exec (.quiescenceWave h) s = .next (s.setLaunch h { l with quiet := none })))

/-- Placing a launch and ending its runs (R294, R295, R301, R303, R304, R307, R310). -/
def Obligations.PlacementAndQuiescence : Prop := Claims.PlacementSteps ∧ Claims.QuiescenceWaves

/-- POWER_WINDOW, THERMAL_DUTY_STEP and FAULT_TIME_SAMPLE (R299, R300, R306): a window forgets what it measured, reporting a context only where it exceeded its page's class; every 14,000 clk DUTY moves by 16 within 0 to 240 against the
reading and the die's threshold; a launch whose oldest parked request has waited more than the limit, in µs, is frozen. -/
def Obligations.GovernorSteps : Prop :=
  ∀ (s : State) (n die : Nat),
    (∃ u : State, exec (.powerWindow n) s = .next u ∧ (u.site n).obs.power = []) ∧
    ((∀ c x, (c, x) ∈ (s.site n).obs.power → ∀ k, s.slot? n c = some k → x.cls ≤ (match k.page with | some p => p.pcls | none => 0)) →
      ∃ u : State, exec (.powerWindow n) s = .next u ∧ u.mem = s.mem ∧ u.pager = s.pager) ∧
    (Tbl.getD s.pager.dutyAt die 0 + 14000 ≤ s.clk → Tbl.getD s.pager.duty die 0 ≤ 240 → ∃ (u : State) (reading : Nat), exec (.thermalDutyStep die) s = .next u ∧
      (let d := Tbl.getD s.pager.duty die 0
       let limit := Tbl.getD s.pager.tlim die 95
       (limit ≤ reading → Tbl.getD u.pager.duty die 0 = min 240 (d + 16)) ∧
       (reading < limit → reading + 5 ≤ limit → Tbl.getD u.pager.duty die 0 = d - 16) ∧
       (reading < limit → limit < reading + 5 → Tbl.getD u.pager.duty die 0 = d)) ∧
      Tbl.getD u.pager.temp die 0 = reading ∧ Tbl.getD u.pager.dutyAt die 0 = s.clk) ∧
    (s.clk < Tbl.getD s.pager.dutyAt die 0 + 14000 → exec (.thermalDutyStep die) s = .next s) ∧
    (s.pager.fltLimit = 0 → exec (.faultTimeSample n) s = .next s) ∧
    (∀ c k l, (s.site n).ctxs = [(c, k)] → s.launch? k.handle = some l → l.open_ = true → s.pager.fltLimit ≠ 0 →
      (s.pager.fltLimit < s.parkedAge n c / 1400 → ∃ (u : State) (q : Launch), exec (.faultTimeSample n) s = .next u ∧ u.launch? k.handle = some q ∧
        q.freeze.isSome = true ∧ q.round = l.round + 1) ∧
      (s.parkedAge n c / 1400 ≤ s.pager.fltLimit → exec (.faultTimeSample n) s = .next s))

/-- CONTAINMENT_TRIGGER, TWIN_DIGEST and TWIN_DIGEST_TIMEOUT (R289, R311, R312, R316): a launch in a state that containment may begin in is contained for an uncorrectable error or a halted site, and no other is; two matching exits go on as one; a
difference, or 65,536 clk without a partner, is a mismatch. A contained context keeps nothing at a site: no activation, token, operation or parked request of its own. -/
def Obligations.ContainmentSteps : Prop :=
  ∀ (s : State) (h cause i : Nat) (l : Launch) (x y : TwinExit) (n c : Nat),
    (s.launch? h = some l →
      ((l.state = .idle ∨ l.state = .running ∨ l.state = .frozen) → (cause = 0 ∨ cause = 1 ∧ ∃ n ∈ l.allSites, (s.site n).seq.halt = true) →
        exec (.containmentTrigger h cause) s = .next (s.contain h l cause none)) ∧
      (¬(l.state = .idle ∨ l.state = .running ∨ l.state = .frozen) ∨ 2 ≤ cause ∨ cause = 1 ∧ (∀ n ∈ l.allSites, (s.site n).seq.halt = false) →
        exec (.containmentTrigger h cause) s = .next s)) ∧
    (s.pager.twins[i]? = some x →
      s.pager.twins.find? (fun y => y.handle == x.handle && y.copy != x.copy && y.pos == x.pos && y.cls == x.cls && y.num == x.num) = some y →
      (∀ a b, x.digest = y.digest → x.what = .req a → y.what = .req b → ∃ u : State, exec (.twinDigest i) s = .next u ∧
        (x.copy = false → a ∈ u.pager.twinOk ∧ (a, b) ∈ u.pager.twinPairs) ∧ (x.copy = true → b ∈ u.pager.twinOk ∧ (b, a) ∈ u.pager.twinPairs) ∧
        x ∉ u.pager.twins ∧ y ∉ u.pager.twins) ∧
      (x.digest ≠ y.digest → exec (.twinDigest i) s = .next (s.mismatch x))) ∧
    (s.pager.twins[i]? = some x → ∀ k, x.since = some k →
      (k + 65536 ≤ s.clk → exec (.twinDigestTimeout i) s = .next (s.mismatch x)) ∧ (s.clk < k + 65536 → exec (.twinDigestTimeout i) s = .next s)) ∧
    (let u := s.discardAt n c
     (∀ f ∈ u.mesh, f.dst ≠ n ∨ f.tok.ctx.toNat ≠ c) ∧
     (∀ r ∈ u.reqs, r.who.site = n → r.who.ctx = c → r.target = none ∧ ∀ l f, r.phase ≠ .parked l f) ∧
     (∀ k t, Tbl.get? (u.site n).seq.acts k = some t → t.ctx ≠ c) ∧ (∀ f ∈ (u.site n).seq.fireQ, f.tok.ctx.toNat ≠ c) ∧
     (∀ f ∈ (u.site n).seq.retryQ, f.tok.ctx.toNat ≠ c) ∧ (u.site n).seq.halt = false ∧
     (∀ r ∈ (u.site n).seq.allocQ, r.ctx ≠ c) ∧ (∀ g ∈ (u.site n).port.gens, g.2.who.ctx ≠ c) ∧ (∀ r ∈ (u.site n).port.sopens, r.who.ctx ≠ c))

/-! ### Collectives and experts -/

/-- COLL_MESSAGE, CE_LTCTL_WRITE and COL_STALL (R331, R333, R350): no message is taken while its engine's buffer of 256 is full; one with an older table version is dropped, one with a newer version is held. Versions advance modulo
2^32; that the nearer way round says which is older is the model's choice (log entry 115). A table is adopted only with the next version, and a rejected one changes nothing but the record; a message held for longer than CE_STALL
is dropped with a record. -/
def Sys2Proof.Claims.CollectiveMessages : Prop :=
  ∀ (s : State) (e i : Nat) (m : CollMsg) (v : Word),
    (256 ≤ (s.coll.held.getD e []).length → exec (.collMessage e m) s = .next s) ∧
    ((s.coll.held.getD e []).length < 256 → m.ver ≠ s.coll.ltVer.toNat →
      let ahead := (s.coll.ltVer.toNat + 2 ^ 32 - m.ver) % 2 ^ 32
      (ahead < 2 ^ 31 → exec (.collMessage e m) s = .next s.reholdAll) ∧
      (2 ^ 31 ≤ ahead → e < s.coll.held.length → ∃ (u : State) (x : HeldMsg), exec (.collMessage e m) s = .next u ∧
        u.coll.held.getD e [] = s.coll.held.getD e [] ++ [x] ∧ x.msg = m ∧ x.since = s.clk)) ∧
    (∃ u : State, exec (.ceLtctlWrite v) s = .next u ∧
      (∀ a t, s.links = (.error a, t) → u.coll = t.coll) ∧
      (∀ l t, s.links = (.ok l, t) → v.toNat % 2 ^ 32 ≠ (t.coll.ltVer.toNat + 1) % 2 ^ 32 → u.coll = t.coll) ∧
      (∀ l t, s.links = (.ok l, t) → t.coll.groups = [] → t.coll.held = [] → v.toNat % 2 ^ 32 = (t.coll.ltVer.toNat + 1) % 2 ^ 32 →
        u.coll.ltVer = t.coll.ltVer + 1)) ∧
    (∀ x, (s.coll.held.getD e [])[i]? = some x →
      (s.clk < x.since + (s.coll.stall.getD e 0).toNat → exec (.colStall e i) s = .next s) ∧
      (x.since + (s.coll.stall.getD e 0).toNat ≤ s.clk → e < s.coll.held.length → ∃ u : State, exec (.colStall e i) s = .next u ∧
        u.coll.held.getD e [] = listDrop1 (s.coll.held.getD e []) i))

/-- COLLECTIVE_OP_START and CHUNK_STALL (R330, R335, R336, R345, R346, R350): an operation waits until every other participant has issued it, and starts then with no bit marked and its bitmap cleared, by the mark exchange where all had issued it before the table in
force was adopted (log entry 116); digests that differ fail it with 0x0604, a bad field, found when it reaches the engine, with 0x0606 when its turn comes, and it is then no longer current; a chunk of a started operation that has made no progress for CE_STALL clk is
reported once. -/
def Sys2Proof.Claims.CollectiveOperations : Prop :=
  ∀ (s : State) (g : CollGroup) (o : CollOp) (c b : Nat), s.collGroup? g.asid g.gtag = some g → g.cur = some o →
    let told (m : Nat) : Option (Nat × Bool) := (g.issued.find? fun i => i.1 == m && i.2.1 == o.num).map (·.2.2)
    let others := g.members.filter (· ≠ s.link.devno)
    let agreed := ∀ m ∈ others, (told m).map (·.1) = some (collDigest o.fn o.desc)
    (o.started = false →
      ((∃ m ∈ others, told m = none) → exec (.collectiveOpStart g.asid g.gtag) s = .next s) ∧
      ((∀ m ∈ others, told m ≠ none) → ¬agreed → ∃ (u : State) (q : CollGroup),
        exec (.collectiveOpStart g.asid g.gtag) s = .next u ∧ u.collGroup? g.asid g.gtag = some q ∧ q.cur = none ∧ q.opNum = g.opNum + 1) ∧
      (agreed →
        let d := CollDesc.of o.desc
        let run := { o with started := true, marks := List.replicate d.nbits false, progress := (List.range g.trees.length).map fun k => (k, s.clk) }
        let t := s.collWrite run d.marks (List.replicate d.markBytes 0)
        let again := o.earlier = true ∧ ∀ m ∈ others, (told m).map (·.2) = some true
        (¬again → exec (.collectiveOpStart g.asid g.gtag) s = .next (t.collRun g run).reholdAll) ∧
        (again → exec (.collectiveOpStart g.asid g.gtag) s = .next (t.collRestart g run).reholdAll))) ∧
    (let d := CollDesc.of o.desc
     let t := c % g.trees.length
     o.done = false → o.bitOf d g.trees.length t = some b → b % d.nch = c → o.exch = false → o.started = true → b ∉ o.stalled →
     (s.clk < Tbl.getD o.progress t 0 + (s.coll.stall.getD (g.gtag % 2) 0).toNat → exec (.chunkStall g.asid g.gtag c) s = .next s) ∧
     (Tbl.getD o.progress t 0 + (s.coll.stall.getD (g.gtag % 2) 0).toNat ≤ s.clk → ∃ (u : State) (q : CollGroup) (x : CollOp),
       exec (.chunkStall g.asid g.gtag c) s = .next u ∧ u.collGroup? g.asid g.gtag = some q ∧ q.cur = some x ∧ x.stalled = o.stalled ++ [b]))

/-- What a descriptor's check finds when a `cred` reaches the engine, and what becomes of an operation that failed it when its turn comes (R336, R346). -/
def Sys2Proof.Claims.BadOperations : Prop :=
  ∀ (s : State) (g : CollGroup) (o : CollOp) (rest : List CollOp) (off code detail : Nat),
    let d := CollDesc.of o.desc
    let me := s.link.devno
    (d.badField o.desc o.fn me g.members = some off → (s.collRanges g o).1 = .error (0x0606, off)) ∧
    (d.badField o.desc o.fn me g.members = none → overlapOf (d.ranges o.fn me g.members) = some off → (s.collRanges g o).1 = .error (0x0606, off)) ∧
    (s.collGroup? g.asid g.gtag = some g → g.cur = none → g.waiting = o :: rest → g.trees ≠ [] → o.bad = some (code, detail) →
      ∃ q : CollGroup, (s.collBegin g).collGroup? g.asid g.gtag = some q ∧ q.cur = none ∧ q.waiting = rest ∧ q.opNum = g.opNum + 1)

/-- Collective messages, tables and operations (R330, R331, R333, R335, R336, R345, R346, R350). -/
def Obligations.Collectives : Prop := Claims.CollectiveMessages ∧ Claims.CollectiveOperations ∧ Claims.BadOperations

/-- ROUTE_ENTRY, PAGE_RELEASE and PAGE_RETIRE (R88, R359 to R362, R374): the head of the dispatch for an expert beyond XP_NEXP is skipped; for an expert with no replica it waits; else its word goes to the open page of its replica, whose fill grows by one, or the
request ends where that write finds no page of memory. A closed page leaves its replica's queue for its redo log, as a seed for its launch, while that log holds fewer than 64 and no earlier STORE of this device to itself is pending; a page whose run has ended is
free. -/
def Sys2Proof.Claims.ExpertSteps : Prop :=
  ∀ (s : State) (k : Nat),
    (∀ c d rest, s.xp.waiting = [] → s.xp.cur = some c → c.rest = d :: rest → rest ≠ [] →
      (s.xp.nexp ≤ d.expert → ∃ u : State, exec .routeEntry s = .next u ∧ u.xp.cur = some { c with rest := rest } ∧ u.xp.waiting = []) ∧
      (d.expert < s.xp.nexp → s.xp.row d.expert = [] → ∃ u : State, exec .routeEntry s = .next u ∧
        u.xp.cur = some { c with rest := rest, done := c.done + 1 } ∧ u.xp.waiting = [d]) ∧
      (∀ j r p pg, d.expert < s.xp.nexp → s.xp.replicaFor d = some j → Tbl.get? s.xp.reps j = some r → r.openPage = some p → Tbl.get? s.xp.pages p = some pg →
        pg.rows.length + 1 < r.batch →
        let t := s.bumpFree
        let written := (t.ownerWrite (t.reqAgent 5 d.req) d.who (s.xp.pageVa p + 8 * pg.rows.length) (toBytes d.payload.toNat 8)).1
        (written = true → ∃ u : State, exec .routeEntry s = .next u ∧ u.xp.cur = some { c with rest := rest, done := c.done + 1 } ∧
          Tbl.get? u.xp.pages p = some { pg with rows := pg.rows ++ [d.payload], stamp := s.xp.ver }) ∧
        (written = false → ∃ u : State, exec .routeEntry s = .next u ∧ u.xp.cur = none ∧ Tbl.get? u.xp.pages p = some pg))) ∧
    (∀ r p rest l, Tbl.get? s.xp.reps k = some r → r.queue = p :: rest → s.launch? r.handle = some l →
      let behind := s.homeStores
      (64 ≤ r.redo.length ∨ behind = true → exec (.pageRelease k) s = .next s) ∧
      (r.redo.length < 64 → behind = false → l.open_ = false → l.state ≠ .failed → l.state ≠ .evicted →
        (64 ≤ l.seeds.length → exec (.pageRelease k) s = .next s) ∧
        (l.seeds.length < 64 → ∃ (u : State) (q : Launch) (x : Seed), exec (.pageRelease k) s = .next u ∧
          Tbl.get? u.xp.reps k = some { r with queue := rest, redo := r.redo ++ [(p, 0)] } ∧ u.launch? r.handle = some q ∧ q.seeds = l.seeds ++ [x] ∧
          x.entry = r.entry ∧ x.tag = some p))) ∧
    (∀ r l p n, Tbl.get? s.xp.reps k = some r → r.state = .live → s.launch? r.handle = some l → (p, n) ∈ r.redo → 0 < n → n ≤ l.runs → ∃ u : State,
      exec (.pageRetire k) s = .next u ∧ (∀ x ∈ u.xp.pages, x.1 ≠ p) ∧
      Tbl.get? u.xp.reps k = some { r with redo := r.redo.filter fun x => decide (x.2 = 0 ∨ l.runs < x.2) })

/-- GRAFT_STAGE_DONE and REPLICA_FAILED (R363, R366): a copy waits for a bank in refresh; the fence of stage 5 leads to stage 6, which publishes the replica as live in its expert's row; a replica whose launch has failed leaves its row, keeps no page and
is FAILED; a healthy one is left alone. -/
def Sys2Proof.Claims.ReplicaSteps : Prop :=
  ∀ (s : State) (k e : Nat),
    (∀ g, s.xp.graft = some g →
      (g.stage = 2 ∨ g.stage = 3 → s.mem.refreshing (field g.desc 8 8) = true → exec .graftStageDone s = .next s) ∧
      (g.stage = 5 → ∃ (u : State) (q : Nat), exec .graftStageDone s = .next u ∧
        u.xp.graft = some { g with stage := 6, req := { g.req with deps := q :: g.req.deps } }) ∧
      (g.stage = 6 → k < 1024 → Tbl.get? s.xp.reps k = none → (∀ j < k, (Tbl.get? s.xp.reps j).isSome) → e = field g.desc 0x14 2 →
        s.xp.orphans = [] → ∃ (u : State) (r : Replica), exec .graftStageDone s = .next u ∧ u.xp.graft = none ∧ Tbl.get? u.xp.reps k = some r ∧
          r.state = .live ∧ r.expert = e ∧ k ∈ u.xp.row e)) ∧
    (∀ r l, Tbl.get? s.xp.reps k = some r → r.state = .live ∨ r.state = .retiring → s.launch? r.handle = some l → l.state = .failed ∨ r.handle ∈ s.xp.hurt →
      ∃ (u : State) (q : Replica), exec (.replicaFailed k) s = .next u ∧ Tbl.get? u.xp.reps k = some q ∧ q.state = .failed ∧ q.queue = [] ∧ q.redo = [] ∧
        q.openPage = none ∧ k ∉ u.xp.row r.expert ∧ u.launch? r.handle = none) ∧
    (∀ r l, Tbl.get? s.xp.reps k = some r → s.launch? r.handle = some l → l.state ≠ .failed → r.handle ∉ s.xp.hurt →
      exec (.replicaFailed k) s = .next s)

/-- Dispatch to experts, their pages and replicas (R359 to R363, R366). -/
def Obligations.Experts : Prop := Claims.ExpertSteps ∧ Claims.ReplicaSteps

/-! ### Recovery, links, observation, package -/

/-- SEAL_ABANDONED, RESILVER_REGION, SLOT_SCAN and ESCALATED_ROLLBACK (R384, R390, R391, R394, R396): a seal whose write a die reset has discarded is abandoned, and its point is torn; the lowest dirty region that can be mended is copied from its live
copy and is clean; a scan ends with nothing to scan; an escalated launch of the owner starts a rollback. -/
def Obligations.RecoverySteps : Prop :=
  ∀ (s : State) (h k : Nat),
    (∀ x, s.rcv.sealing = some x →
      (x.lost = true → ∃ u : State, exec (.sealAbandoned 2) s = .next u ∧ u.rcv.sealing = none ∧ u.rcv.openState = 3) ∧
      (x.lost = false → exec (.sealAbandoned 2) s = .next s)) ∧
    (s.rcv.sealing = none → exec (.sealAbandoned 2) s = .next s) ∧
    (MemOk s → s.rcv.mirrors = [] → (s.rcv.dirty.find? fun p => mendable s.rcv p.1).map (·.1) = some k → ∃ u : State, exec (.resilverRegion k) s = .next u ∧
      Tbl.get? u.rcv.dirty k = none ∧
      (let a := cellarPrimary s.rcv (0x20000000000 + k * 2 ^ 21)
       let b := cellarSecondary s.rcv (0x20000000000 + k * 2 ^ 21)
       a + 2 ^ 21 ≤ 2 ^ 39 → b + 2 ^ 21 ≤ 2 ^ 39 →
       (staleOf s.rcv k = 1 → (∀ i < 2 ^ 21, u.mem.byte (a + i) = s.mem.byte (b + i)) ∧ ∀ c, c < a ∨ a + 2 ^ 21 ≤ c → u.mem.byte c = s.mem.byte c) ∧
       (staleOf s.rcv k = 2 → (∀ i < 2 ^ 21, u.mem.byte (b + i) = s.mem.byte (a + i)) ∧ ∀ c, c < b ∨ b + 2 ^ 21 ≤ c → u.mem.byte c = s.mem.byte c))) ∧
    (s.rcv.scan = true → 8 ∈ s.pkg.wiping → exec .slotScan s = .next s) ∧
    (s.rcv.scan = true → 8 ∉ s.pkg.wiping → s.rcv.roll = none → ∃ u : State, exec .slotScan s = .next u ∧ u.rcv.scan = false) ∧
    (s.rcv.scan = false → exec .slotScan s = .next s) ∧
    (∀ l, s.launch? h = some l → s.rcv.roll = none → s.rcv.scan = false →
      (l.escalated = true → l.state = .containing → l.asid = s.rcv.asid → exec (.escalatedRollback h) s = .next (s.beginRoll none)) ∧
      (l.escalated = false ∨ l.state ≠ .containing ∨ l.asid ≠ s.rcv.asid → exec (.escalatedRollback h) s = .next s))

/-- FLIT_REPLAY, PORT_DOWN, PORT_TRAIN, LK_IRQ_WRITE and TIME_EVENT_MESSAGE (R403, R404, R414, R416, R422): a replay counts, and the eighth of one flit takes the port down; a port that loses its lanes is down; a training that ends well brings it up; an interrupt
leaves unless the host masks it; an event message leaves with the time, or arrives with it in its first word's bits 62:0, and any other message is as it was. -/
def Sys2Proof.Claims.LinkSteps : Prop :=
  ∀ (s : State) (p : Nat) (x : PortState) (v w0 w1 : Word),
    (s.link.ports[p]? = some x →
      (x.up = true → x.tries + 1 < 8 → ∃ u : State, exec (.flitReplay p true) s = .next u ∧
        u.link.ports[p]? = some { x with replays := x.replays + 1, tries := x.tries + 1 }) ∧
      (x.up = true → ∃ u : State, exec (.flitReplay p false) s = .next u ∧ u.link.ports[p]? = some { x with replays := x.replays + 1, tries := 1 }) ∧
      (x.up = true → 8 ≤ x.tries + 1 → ∃ u : State, exec (.flitReplay p true) s = .next u ∧
        u.link.ports[p]? = some { x with replays := x.replays + 1, tries := 0, up := false }) ∧
      (x.up = true → ∃ u : State, exec (.portDown p) s = .next u ∧ u.link.ports[p]? = some { x with up := false, tries := 0 }) ∧
      (x.up = false → exec (.portDown p) s = .next s) ∧
      (∀ ok, x.train = true → ∃ u : State, exec (.portTrain p ok) s = .next u ∧ u.link.ports[p]? = some { x with train := false, up := x.up || ok, tries := 0 })) ∧
    (∃ u : State, exec (.lkIrqWrite v) s = .next u ∧ u.mem = s.mem ∧ (u.out = s.out ++ [.msix (v.toNat % 32)] ∨ u.out = s.out)) ∧
    (∃ a b : Word, exec (.timeEventMessage true w0 w1) s = .next { s with out := s.out ++ [.time a b] } ∧ a = w0 ∧ b = (if w0.getLsbD 63 then s.obs.time else w1)) ∧
    (∃ a b : Word, exec (.timeEventMessage false w0 w1) s = .next { s with out := s.out ++ [.time a b] } ∧ b = w1 ∧
      (w0.getLsbD 63 = true → a.getLsbD 63 = true ∧ ∀ k < 63, a.getLsbD k = s.obs.time.getLsbD k) ∧ (w0.getLsbD 63 = false → a = w0))

/-- SEED_RECORD, AFTER_RELEASE and INBOUND_REQUEST (R88, R407, R409 to R411, R440): a record with none of its source's before it that breaks the table, or that names no launch, is discarded; an AFTER record is held; one whose source's STOREs have not performed
waits, and with flag bit 3 for a PCIe read too; the host's read above the register blocks of BAR0 is answered with zeros, even while a device reset wipes the memories, and what must wait is kept. -/
def Sys2Proof.Claims.HeadgateSteps : Prop :=
  ∀ (s : State) (die : Nat) (r : HeadRec) (rest : List HeadRec),
    (s.link.inq.getD die [] = r :: rest → s.headBehind r = false →
      let t := s.modLink fun l => { l with inq := listUpd l.inq die fun _ => rest }
      (∀ b, t.badField? r = some b → exec (.seedRecord die) s = .next ((t.headDiscard die 0x0901 (b + r.source * 2 ^ 8)).headDone r 0x0901)) ∧
      (t.badField? r = none → t.launch? r.handle = none → exec (.seedRecord die) s = .next ((t.headDiscard die 0x0902 r.handle).headDone r 0x0902)) ∧
      (∀ l, t.badField? r = none → t.launch? r.handle = some l → r.flags % 2 = 1 → r.req = none → die < s.link.hold.length →
        (s.link.hold.getD die []).length < 64 → ∃ u : State, exec (.seedRecord die) s = .next u ∧ u.link.hold.getD die [] = s.link.hold.getD die [] ++ [r])) ∧
    (s.link.hold.getD die [] = r :: rest →
      let gate := s.flushGate r.num fun p => p.who.path == 7
      (s.storesDone r = false → exec (.afterRelease die 0) s = .next s) ∧
      (s.storesDone r = true → r.flags / 8 % 2 = 1 → ∀ u, gate = some u → exec (.afterRelease die 0) s = .next u) ∧
      (s.storesDone r = true → r.flags / 8 % 2 = 0 ∨ gate = none → die < s.link.hold.length → ∀ l, s.launch? r.handle = some l → l.open_ = false → l.state ≠ .failed → l.state ≠ .evicted → l.seeds.length < 64 →
        ∃ (u : State) (q : Launch) (x : Seed), exec (.afterRelease die 0) s = .next u ∧ u.link.hold.getD die [] = rest ∧ u.launch? r.handle = some q ∧ q.seeds = l.seeds ++ [x])) ∧
    (∀ (q : Inbound) (n : Nat), q.src = none → q.port = 0 → q.kind = .read false n → 0xE000820000 ≤ q.pa → q.pa < 0xF000000000 → s.link.inbound = [] → s.pkg.boot = .wiping ∨ s.pkg.wiping = [] → ∃ u : State,
      exec (.inboundRequest q) s = .next u ∧ u.mem = s.mem ∧ u.out = s.out ++ [.answer none q.tag 0 (List.replicate n 0)]) ∧
    (∀ q : Inbound, q.src = none → q.port ≠ 0 → s.link.inbound = [] → s.pkg.boot = .wiping → 8 ∈ s.pkg.wiping → ∃ u : State,
      exec (.inboundRequest q) s = .next u ∧ u.link.inbound = [q])

/-- Links, events from outside and the headgates (R403, R404, R409 to R411, R414, R416, R422). -/
def Obligations.LinksAndHeadgates : Prop := Claims.LinkSteps ∧ Claims.HeadgateSteps

/-- SWEEP_VISIT, OB_TADJ_WRITE, OB_LMSELm, MONITOR_SAMPLE, WALK_STEP, STOP_HIT and INJECTION_HIT (R419, R422, R425, R428, R430, R431): at its time in the period the sweeper's next site is visited, and its counters are zero then (log entry 121); a positive adjustment moves the time at once, a negative one is withheld; selecting a source clears a monitor; an
enabled monitor keeps the largest and the least sample; a walk whose entry is gone ends; the condition is disarmed by its hit, and by its read the injection. -/
def Obligations.ObservationSteps : Prop :=
  ∀ (s : State) (n m i : Nat) (v : Word),
    (let due := s.obs.swEn = true ∧ s.obs.swSite = n ∧ s.obs.swFrom + n * (s.obs.period * 1400000) / 2080 ≤ s.clk
     (due → ∃ u : State, exec (.sweepVisit n) s = .next u ∧ (n + 1 < 2080 → u.obs.swSite = n + 1) ∧
       ∀ e, e ∈ (s.site n).obs.ev.map (·.1) → e ≠ 4 → e ≠ 5 → Tbl.getD (u.site n).obs.ev e 0 = 0) ∧
     (¬due → exec (.sweepVisit n) s = .next s)) ∧
    (∃ u : State, exec (.obTadjWrite v) s = .next u ∧ u.mem = s.mem ∧
      (0 ≤ v.toInt → u.obs.time = s.obs.time + v ∧ u.obs.withhold = 0) ∧ (v.toInt < 0 → u.obs.time = s.obs.time ∧ (u.obs.withhold : Int) = -v.toInt)) ∧
    (∀ x, s.obs.mons[m]? = some x →
      (∃ (u : State) (y : Monitor), exec (.obLmselWrite m v) s = .next u ∧ u.obs.mons[m]? = some y ∧ y.en = v.getLsbD 0 ∧ y.src = v.extractLsb' 4 12 ∧ y.max = 0 ∧ y.min = BitVec.allOnes 32) ∧
      (x.en = true → i < 2 ^ 32 → ∃ (u : State) (y : Monitor), exec (.monitorSample m i) s = .next u ∧ u.obs.mons[m]? = some y ∧ y.max.toNat = max x.max.toNat i ∧ y.min.toNat = min x.min.toNat i ∧
        y.src = x.src) ∧
      (x.en = false → ∃ u : State, exec (.monitorSample m i) s = .next u ∧ u.obs.mons[m]? = some x)) ∧
    (∀ w, s.obs.walks[i]? = some w → Tbl.get? (s.site w.site).obs.hist w.idx = none → ∃ u : State, exec (.walkStep i) s = .next u ∧ u.obs.walks = listDrop1 s.obs.walks i) ∧
    (∀ w e, s.obs.walks[i]? = some w → Tbl.get? (s.site w.site).obs.hist w.idx = some e →
      (w.depth ≤ w.steps + 1 ∨ e.org.site = 0xFFF → ∃ u : State, exec (.walkStep i) s = .next u ∧ u.obs.walks = listDrop1 s.obs.walks i) ∧
      (∀ x, w.steps + 1 < w.depth → e.org.site ≠ 0xFFF → s.obs.trLen = 0 → Tbl.get? (s.site e.org.site).obs.hist e.org.idx = some x → x.gen = e.org.gen → ∃ u : State,
        exec (.walkStep i) s = .next u ∧ u.obs.walks[i]? = some { w with steps := w.steps + 1, site := e.org.site, idx := e.org.idx, gen := e.org.gen })) ∧
    (∀ f, s.mesh[i]? = some f → atHead s.mesh i = true → retryWaits s f.dst = false → arrivalKind s f.dst f = .stop →
      (s.site f.dst).seq.trapQ.length < 16 → (s.site f.dst).seq.fireQ.length < 32 → dieOf f.dst ∉ s.pkg.wiping → ∃ u : State,
      exec (.stopHit i) s = .next u ∧ u.obs.stopArmed = false ∧
      (∀ k, f.dst < 2080 → s.slot? f.dst f.tok.ctx.toNat = some k → ∃ x, u.slot? f.dst f.tok.ctx.toNat = some x ∧ f ∈ x.stopped)) ∧
    (∀ a k, s.mem.inj = some (a, k) → paTarget a ≠ .tile → (s.injectAt i) / 64 = a / 64 → ∃ u : State, exec (.injectionHit i) s = .next u ∧ u.mem.inj = none ∧ u.mem.cells = s.mem.cells) ∧
    (∀ a k, s.mem.inj = some (a, k) → paTarget a ≠ .tile → (s.injectAt i) / 64 ≠ a / 64 → exec (.injectionHit i) s = .next s)

/-- What a device reset leaves (R211, R437 to R440, R442): INPUT_LOSS and DEVICE_RESET make everything as after reset, the fused state apart; a die reset wipes its sites and its memory, and leaves the other sites' memory; a wipe that ends frees its die, and the last one
of a device reset opens the boot window; a returned die is no longer in RECOV and restarts its %clk. -/
def Sys2Proof.Claims.ResetSteps : Prop :=
  ∀ (s : State) (d n : Nat),
    (∀ i ∈ [Instr.inputLoss, .deviceReset], s.pkg.boot ≠ .wiping ∨ i = .inputLoss → ∃ u : State, exec i s = .next u ∧ u.sites = [] ∧ u.mem = State.reset.mem ∧ u.mesh = [] ∧ u.reqs = [] ∧
      u.pager = State.reset.pager ∧ u.clk = 0 ∧ u.obs.time = 0 ∧ u.pkg.svn = s.pkg.svn ∧ u.pkg.boot = .wiping ∧
      u.pkg.life = (if s.pkg.ladv = true ∧ s.pkg.life < 3 then s.pkg.life + 1 else s.pkg.life)) ∧
    (s.pkg.boot = .wiping → ∀ i ∈ [Instr.deviceReset, .ioDie1Reset, .ioDie0Reset, .computeDieReset d], exec i s = .next s) ∧
    (d < 8 → s.pkg.boot ≠ .wiping → ∃ u : State, exec (.computeDieReset d) s = .next u ∧ d ∈ u.pkg.wiping ∧ u.pkg.recov.getLsbD d = true ∧
      (s.rcv.nreg = 0 → ∀ f ∈ u.mesh, dieOf f.dst ≠ d)) ∧
    (s.pkg.boot ≠ .wiping → (∃ u : State, exec .ioDie1Reset s = .next u ∧ 9 ∈ u.pkg.wiping ∧ u.xp = State.reset.xp ∧ ∀ f ∈ u.mesh, dieOf f.dst ≠ 9) ∧
      (∃ u : State, exec .ioDie0Reset s = .next u ∧ 8 ∈ u.pkg.wiping ∧ ∀ f ∈ u.mesh, dieOf f.dst ≠ 8)) ∧
    (n ∈ s.pkg.wiping →
      (s.pkg.boot = .wiping → ∃ u : State, exec (.wipeComplete n) s = .next u ∧ u.pkg.wiping = s.pkg.wiping.filter (· ≠ n) ∧
        (u.pkg.wiping = [] → u.pkg.bootWin = true ∧ u.pkg.boot = .waiting)) ∧
      (s.pkg.boot ≠ .wiping → n < 8 → ∃ u : State, exec (.wipeComplete n) s = .next u ∧ u.pkg.wiping = s.pkg.wiping.filter (· ≠ n)) ∧
      (s.pkg.boot ≠ .wiping → n = 9 → ∃ u : State, exec (.wipeComplete n) s = .next u ∧ u.pkg.wiping = s.pkg.wiping.filter (· ≠ n) ∧ ∀ x ∈ u.pkg.unanswered, x.1 ≠ 9) ∧
      (s.pkg.boot ≠ .wiping → n = 8 → ∃ u : State, exec (.wipeComplete n) s = .next u ∧ u.pkg.wiping = s.pkg.wiping.filter (· ≠ n) ∧ ∀ x ∈ u.pkg.unanswered, x.1 ≠ 8)) ∧
    (d < 8 → s.pkg.recov.getLsbD d = true → d ∉ s.pkg.wiping → ∃ u : State, exec (.calibrationEnd d) s = .next u ∧ u.pkg.recov.getLsbD d = false ∧
      u.rcv.held.getLsbD d = false ∧ u.clkAt (d * 256) = 0 ∧ u.mem = s.mem)

/-- PK_BOOT, LADV, REGISTER_WRITE and ATTESTATION_REPORT (R440 to R443): a boot write outside the boot window does nothing; an image whose signature fails sets BOOTFAIL and starts nothing, and one that passes every check is placed, with its seed of payload 0; the life cycle never
goes beyond RETURNED; a register write of an address outside the register blocks does nothing; a report leaves while the firmware runs in a life cycle state that has an identity key. -/
def Sys2Proof.Claims.PackageSteps : Prop :=
  ∀ (s : State) (v : Word) (pa : Nat),
    (s.pkg.bootWin = false → exec (.pkBootWrite v) s = .next s) ∧
    (s.pkg.bootWin = true → ∀ l t, s.sysRead coordSite 0 (v.toNat % 2 ^ 32) = (l, t) → t.fwVerified l = false → t.pkg.bootWin = true → ∃ u : State, exec (.pkBootWrite v) s = .next u ∧
      u.pkg.bootFail = true ∧ u.pkg.bootWin = true ∧ u.pager = t.pager) ∧
    (s.pkg.bootWin = true → ∀ l t cd x, s.sysRead coordSite 0 (v.toNat % 2 ^ 32) = (l, t) → t.sysRead coordSite bootCd 64 = (cd, x) → x.fwVerified l = true →
      x.descriptorOk cd = true → imageFails (fwGraph l) 7 (field cd 4 4) = none → ∃ (u : State) (k : Launch), exec (.pkBootWrite v) s = .next u ∧
        u.pkg.boot = .running ∧ u.pkg.bootWin = false ∧ u.pkg.bootFail = false ∧ u.launch? (field cd 0 2 * 2 ^ 20) = some k ∧ k.state = .placing ∧ k.ctx = 7 ∧
        k.seeds = [bootSeed 0]) ∧
    (∃ u : State, exec .lifeCycleAdvance s = .next u ∧ u.pkg.life = s.pkg.life ∧ (s.pkg.life < 3 → u.pkg.ladv = true) ∧ (3 ≤ s.pkg.life → u = s)) ∧
    (paTarget pa ≠ .regs → exec (.registerWrite pa v) s = .next s) ∧
    (∀ n off, n < 2080 → off < 512 → exec (.registerWrite (0xE000000000 + n * 4096 + 8 * off) v) s = .next (s.regWrite n (8 * off) v)) ∧
    (s.pkg.life = 0 ∨ s.pkg.life = 3 ∨ s.pkg.boot ≠ .running ∨ s.pkg.fw = none → exec .attestationReport s = .next s) ∧
    (s.pkg.life = 1 ∨ s.pkg.life = 2 → s.pkg.boot = .running → 8 ∉ s.pkg.wiping → ∀ h b k, s.pkg.fw = some (h, b) → s.launch? h = some k → k.ctx = 7 →
      k.state ≠ .placing → k.state ≠ .failed → ∃ r, exec .attestationReport s = .next { s with out := s.out ++ [.report r] } ∧ Config.shake256 b 64 <+: r)

/-- Resets, boot, life cycle and reports (R211, R437 to R442). -/
def Obligations.ResetAndPackage : Prop := Claims.ResetSteps ∧ Claims.PackageSteps

/-! ### Registers, memory, reset, steps -/

/-- The sequencer's own registers at a site (R124): SQ_TRAPIP and SQ_SYSIP read back their IP and EN, writing 1 to SQ_STICKY clears its bits and writing 0 keeps them, and no write of one changes memory or another site. -/
def Obligations.SequencerRegisters : Prop :=
  ∀ (s : State) (n m : Nat) (v : Word), n < 2080 → m ≠ n →
    (let u := s.regWrite n 0 v
     (u.site n).seq.trapIp = v.truncate 11 ∧ (u.site n).seq.trapEn = v.getLsbD 16 ∧ (u.regRead n 0).toNat = v.toNat % 2 ^ 11 + v.toNat / 2 ^ 16 % 2 * 2 ^ 16 ∧
     u.mem = s.mem ∧ u.site m = s.site m) ∧
    (let u := s.regWrite n 8 v
     (u.site n).seq.sysIp = v.truncate 11 ∧ (u.site n).seq.sysEn = v.getLsbD 16 ∧ (u.regRead n 8).toNat = v.toNat % 2 ^ 11 + v.toNat / 2 ^ 16 % 2 * 2 ^ 16 ∧
     u.mem = s.mem ∧ u.site m = s.site m) ∧
    (let u := s.regWrite n 0x18 v
     (u.site n).seq.sticky = (s.site n).seq.sticky &&& ~~~(v.truncate 32) ∧ u.mem = s.mem ∧ u.site m = s.site m)

/-- The example words of the instructions' entries decode to the statements beside them. -/
def Sys2Proof.Claims.ExampleWords : Prop :=
  decode 0x0267890000000000 = .ok (.sub { pg := 3, pn := false } 7 8 9) ∧
  decode 0x1606200020000000 = .ok (.bitop { pg := 0, pn := false } .popc 6 2) ∧
  decode 0x1706100000002308 = .ok (.bfx { pg := 0, pn := false } 6 1 8 12 true) ∧
  decode 0x1F011005FFFFFFFB = .ok (.cmpi { pg := 0, pn := false } .ge 1 1 0xFFFFFFFB) ∧
  decode 0x20061200D0000000 = .ok (.fadd { pg := 0, pn := false } .double .rup 6 1 2) ∧
  decode 0x300060000003000A = .ok (.mts { pg := 0, pn := false } 6 10 3) ∧
  decode 0x49060000301C0002 = .ok (.swt { g := { pg := 0, pn := false }, v := 6, f := 0, i := 0, port := false, tix := 6 } 7 2) ∧
  decode 0xC008900000000001 =
    .ok (.pplace false { g := { pg := 0, pn := false }, d := 8, a := 9, b := 0, rt := 1, hi := 0 })

/-- Opcodes that the opcode map leaves open, group 7 among them, are no instructions (R53, R54). -/
def Sys2Proof.Claims.ReservedOpcodes : Prop :=
  ∀ w : Word,
    let opc := w.toNat / 2 ^ 56
    (0x33 ≤ opc ∧ opc ≤ 0x3F ∨ 0x5A ≤ opc ∧ opc ≤ 0x5F ∨ opc = 0x7F ∨ 0x92 ≤ opc ∧ opc ≤ 0x9F ∨ 0xB3 ≤ opc ∧ opc ≤ 0xBF ∨ 0xDA ≤ opc) →
    decode w = .error .reservedOpcode

/-- Words of the opcode map: the example words of the instructions' entries are the statements beside them, and an opcode that the map leaves open is no instruction. -/
def Obligations.OpcodeWords : Prop := Claims.ExampleWords ∧ Claims.ReservedOpcodes

/-- A step runs the decoded instruction: where an activation is to issue its next word, which lies in its code area and its arm and decodes, the step is the execution of that instruction by it, and the clk from which a multi-clk result can be
read is noted beside it (R112); where an event or an own step of the part is settled, the step is the meaning of its row (R14, R53; log entry 2). -/
def Sys2Proof.Claims.StepIsExec : Prop :=
  ∀ (s : State) (n k : Nat) (t : Activation) (w : Word) (i : Instr) (m : Move),
    let r := { s with turn := none }
    (s.turn = some (.issue n k) → s.act? n k = some t → t.ended = false → (s.site n).seq.halt = false → s.codeWord? n t.ctx t.pc = some w → t.pc < t.limit →
      decode w = .ok i →
      let o := exec i { r.turnTaken n k with cur := (n, k) }
      (∀ u, o = .next u → step s = .next (u.resultDue r n k i)) ∧ (∀ f, o = .fault f → step s = .fault f) ∧ (∀ f, o = .refused f → step s = .refused f) ∧
      (∀ u, o = .next u → lateResult i = none → step s = .next u) ∧
      (∀ u b, o = .next u → u.act? n k = some b → ∃ l, (u.resultDue r n k i).act? n k = some { b with avail := l })) ∧
    (s.turn = some (.event i) → step s = exec i r) ∧
    (s.turn = some (.own m) → step s = m.run r) ∧ (∃ e : Instr, e.isWord = false ∧ ∀ v, m.run v = exec e v)

/-- A word that is no instruction, a word past the end of its arm, and a word outside the code area take 0x0101, or wait as they stand while the trap queue is full (R53, R120; what DETAIL shows past the end of an arm and outside the code area is the
model's choice, log entries 97 and 99). -/
def Sys2Proof.Claims.UndecodableTraps : Prop :=
  ∀ (s : State) (n k : Nat) (t : Activation), s.turn = some (.issue n k) → s.act? n k = some t → t.ended = false → (s.site n).seq.halt = false →
    let r := { s with turn := none }.turnTaken n k
    let x (w : Word) : State := if t.trapHandler = true ∨ (s.site n).seq.trapRoom = true then r.takeTrap n k t { code := 0x0101, detail := w } else r
    (s.codeWord? n t.ctx t.pc = none → step s = .next (x 0)) ∧
    (∀ w, s.codeWord? n t.ctx t.pc = some w → (t.limit ≤ t.pc ∨ ∃ e, decode w = .error e) → step s = .next (x w))

/-- A step runs the decoded instruction, and a word that is none takes 0x0101 (R14, R53; log entry 2). -/
def Obligations.StepRunsDecoded : Prop := Claims.StepIsExec ∧ Claims.UndecodableTraps

/-- A clk passes (R3, R421, R422): %clk advances by 1, and with nothing withheld the time base by five sevenths of a nanosecond. -/
def Sys2Proof.Claims.ClockTick : Prop :=
  ∀ s : State, s.turn = some .tick → s.obs.withhold = 0 → s.obs.timeFrac < 7 → s.obs.time.toNat + 1 < 2 ^ 64 →
    ∃ u : State, step s = .next u ∧ u.clk = s.clk + 1 ∧ u.obs.timeFrac < 7 ∧
      7 * u.obs.time.toNat + u.obs.timeFrac = 7 * s.obs.time.toNat + s.obs.timeFrac + 5

/-- No step is a stop: it answers a next state, unless an outside event names an instruction word that no activation issues. -/
def Sys2Proof.Claims.StepsGoOn : Prop :=
  ∀ s : State, (∃ u, step s = .next u) ∨ (∃ i t, nextMove s = (.event i, t) ∧ i.isWord = true ∧ t.act? t.cur.1 t.cur.2 = none)

/-- The passing of a clk, and that no step but one is a stop (R3, R421, R422). -/
def Obligations.StepsAndTime : Prop := Claims.ClockTick ∧ Claims.StepsGoOn

/-- The canonical form of memory is kept by every step in which an activation issues a word, whatever the word and however it ends (R438; log entry 4). -/
def Obligations.IssueKeepsMemory : Prop :=
  ∀ (s u : State) (n k : Nat), s.turn = some (.issue n k) → MemOk s → step s = .next u → MemOk u

/-- After reset (R94, R95, R117, R124, R182, R271, R290, R421, R438, R440): memory has its canonical form and every byte is 0; no context, token, request or launch; at every site no activation, no frame but those of the system reserve, no trap or service handler enabled,
no halt, nothing sticky, every tile bank shared and no engine owned; time 0; the reset's wipe in progress. -/
def Obligations.ResetValues : Prop :=
  let s := State.reset
  MemOk s ∧ (∀ a, s.mem.byte a = 0) ∧ (∀ n slot, s.fslot n slot = Slot.empty) ∧ s.mesh = [] ∧ s.reqs = [] ∧ s.fences = [] ∧ s.pager.launches = [] ∧
  s.clk = 0 ∧ s.obs.time = 0 ∧ s.pkg.boot = .wiping ∧ s.pkg.wiping = List.range 10 ∧
  ∀ n,
    let x := s.site n
    x.ctxs = [] ∧ x.seq.acts = [] ∧ x.seq.trapQ = [] ∧ x.seq.fireQ = [] ∧ x.seq.retryQ = [] ∧ x.seq.trapEn = false ∧ x.seq.sysEn = false ∧ x.seq.trapIp = 0 ∧ x.seq.sysIp = 0 ∧
    x.seq.halt = false ∧ x.seq.trapBad = false ∧ x.seq.sticky = 0 ∧ x.seq.groups = [] ∧ x.seq.frames = [] ∧ x.seq.systemFrame = some 0 ∧
    x.tile.banks = List.replicate 8 { grp := 0, shared := true, pend := false, owner := 0 } ∧ x.tile.sticky = 0 ∧ x.tile.outflg = 0 ∧ x.tile.tiles = [] ∧
    x.mx.owner = none ∧ x.mx.claim = false ∧ x.mx.sticky = 0 ∧ x.port.ext = [] ∧ x.port.gens = [] ∧
    ∀ c, (s.cregs n c).seed = BitVec.ofNat 64 n ∧ (s.cregs n c).exc = 0

/-! ### Where each step of an engine completes -/

/-- The sequencer's steps on their simplest operands (R16, R96, R100, R107, R117, R120, R123, R153): the one fired activation takes slot 0; a held operand is parked once its slot is free; an activation with no effect, and one that writes a frame slot, commits and is
gone; a trap and a service request fire their monadic handlers at the system frame; a frame is granted; a first join makes a group; a reference is counted. -/
def Sys2Proof.Claims.SequencerComplete : Prop :=
  ∀ (s : State) (n k fp off : Nat) (t : Activation) (f : Fired) (h : Flight) (w v : Word) (r : TrapRec) (q : ServiceReq) (a : Reply),
    let u := (s.site n).seq
    (u.halt = false → u.fireQ = [f] → u.acts = [] →
      ∃ x : State, exec (.activationSlotGrant n) s = .next x ∧ (x.site n).seq.fireQ = [] ∧ x.act? n 0 = some f.start) ∧
    (u.released = [k] → u.retryQ = [h] → s.codeWord? n h.tok.ctx.toNat h.tok.ip.toNat = some w → isEnt w = true → 2 ≤ entArity w → classOk (entArity w) h.tok = true →
      k = h.tok.fp.toNat + entSlot w → s.claimed n k = false → (∀ c, s.slot? n h.tok.ctx.toNat = some c → c.frozen = false ∧ c.csw = false) → s.frameCheck n h.tok.ctx.toNat h.tok.fp.toNat (entSlot w) 1 = none →
      (s.fslot n k).pres = false → ∃ x : State, exec (.heldTokenRetry n) s = .next x ∧ (x.site n).seq.retryQ = [] ∧
        x.fslot n k = { value := h.tok.payload, pres := true, psn := h.tok.psn, port := h.tok.port, stamp := BitVec.ofNat 16 (s.clkAt n) }) ∧
    (u.ready = [k] → u.service = none → s.act? n k = some t → t.committing = none → t.endAt < s.clk → t.claim = none →
      (t.effects = [] → ∃ x : State, exec (.commit n) s = .next x ∧ x.act? n k = none ∧ (x.site n).seq.ready = []) ∧
      (t.effects = [.frameWrite fp off v] → ∃ x : State, exec (.commit n) s = .next x ∧ x.act? n k = none ∧ (x.site n).seq.ready = [] ∧
        x.fslot n (fp + off) = { s.fslot n (fp + off) with value := v, psn := t.pz })) ∧
    (u.systemFrame = some fp → u.halt = false → u.fireQ = [] → s.frozen7 n = false → isEnt w = true → entArity w = 1 →
      (u.trapQ = [r] → u.trapEn = true → s.codeWord? n 7 u.trapIp.toNat = some w →
        ∃ (x : State) (y : Fired), exec (.trapDelivery n) s = .next x ∧ (x.site n).seq.trapQ = [] ∧ (x.site n).seq.fireQ = [y] ∧ y.trapHandler = true ∧
          y.tok.ip = u.trapIp ∧ y.tok.fp = BitVec.ofNat 17 fp ∧ y.tok.payload = r.status ∧ (x.fslot n (fp + 4)).value = r.status) ∧
      (u.trapQ = [] → u.service = some q → u.sysEn = true → s.codeWord? n 7 u.sysIp.toNat = some w →
        ∃ (x : State) (y : Fired), exec (.serviceDelivery n) s = .next x ∧ (x.site n).seq.service = none ∧ (x.site n).seq.fireQ = [y] ∧
          y.tok.ip = u.sysIp ∧ y.tok.fp = BitVec.ofNat 17 fp ∧ y.d1 = BitVec.ofNat 64 q.num)) ∧
    (∀ g : FrameReq, u.allocQ = [g] → g.useRes = false → g.what = .reply a false [] engineOrigin → s.frozenAt n g.ctx = false → u.poolFrame g.cls = some fp →
      ∃ x : State, exec (.frameGrant n 0) s = .next (x.replyFrom n n (some a) (BitVec.ofNat 64 fp) false [] (s.asidOf n g.ctx) (s.gen (s.asidOf n g.ctx)).toNat) ∧
        (x.site n).seq.allocQ = [] ∧ ∃ o, x.frame? n fp = some o ∧ o.cls = g.cls ∧ o.owner = g.ctx) ∧
    (∀ g : GroupReq, s.groupReqs = [g] → g.op = .join → (∀ t, g.target = some t → (Entry.of t.entry).remote = false) → s.group? (g.id.toNat / 2 ^ 12 % 2 ^ 12) (g.id.toNat % 2 ^ 6) = none →
      ∃ (x : State) (y : Group), exec (.groupRequest 0) s = .next x ∧ x.groupReqs = [] ∧ x.group? (g.id.toNat / 2 ^ 12 % 2 ^ 12) (g.id.toNat % 2 ^ 6) = some y ∧
        y.asid = g.asid ∧ y.ctx = g.ctx ∧ y.members = 1) ∧
    (∀ (g : HandleReq) (b : Tile), s.handleReqs = [g] → g.op = .inc → s.liveTile? (Desc.of g.desc).site (Desc.of g.desc) = some b → b.count ≠ BitVec.allOnes 16 →
      ∃ x : State, exec (.handleRequest 0) s = .next x ∧ x.handleReqs = [] ∧
        Tbl.get? (x.site (Desc.of g.desc).site).tile.tiles (Desc.of g.desc).gran = some { b with count := b.count + 1 })

/-- Tiles, banks and the vector and matrix engines on their simplest operands (R152, R176, R179 to R182, R187, R261): an allocation is granted, a dead tile is freed, an operation starts, drops its booking and completes, a bank command is taken and its wipe ends. -/
def Sys2Proof.Claims.EnginesComplete : Prop :=
  ∀ (s : State) (n g : Nat) (o : TileOp) (c : Word) (p : Bool),
    let u := (s.site n).tile
    let m := (s.site n).mx
    (∀ r d v, u.waiting = [r] → s.allocTile n r.who.ctx r.kind r.shape = some (some d, v) →
      ∃ x : State, exec (.hallocGrant n 0) s = .next (x.replyFrom n n (some r.target) d r.psn r.deps r.who.asid r.gen) ∧ (x.site n).tile.waiting = []) ∧
    (∀ t q, Tbl.get? u.tiles g = some t → t.dying = some q → u.queue = [] → m.queue = [] → s.reqs = [] →
      ∃ x : State, exec (.tileFree n g) s = .next x ∧ Tbl.get? (x.site n).tile.tiles g = none) ∧
    (u.queue = [o] → o.started = false → s.tileWaits n 1 o = false → s.staleTile o = none →
      ∃ x : State, exec (.vectorOpStart n) s = .next x ∧ (x.site n).tile.queue = [{ o with started := true, g := (s.cregs n o.who.ctx).gvec }]) ∧
    (u.queue = [o] → o.started = false → o.booked = true → s.tileBlocked n o = true →
      ∃ x : State, exec (.gapBookingDrop n) s = .next x ∧ (x.site n).tile.queue = [{ o with booked := false }]) ∧
    (u.queue = [o] → o.started = true → o.result = some (c, p) →
      ∃ x : State, exec (.vectorOpComplete n) s = .next (x.replyFrom n n o.target c p (o.seq :: o.deps) o.who.asid o.gen) ∧ (x.site n).tile.queue = []) ∧
    (u.queue = [o] → o.started = true → o.result = none → ∃ (x : State) (z : Bool),
      exec (.vectorOpComplete n) s = .next (x.replyFrom n n o.target o.vd z (o.seq :: o.deps) o.who.asid o.gen) ∧ (x.site n).tile.queue = []) ∧
    (u.bankOps = [] → u.bankOk (bankCommand c) = true → ∃ x : State, exec (.bankReconfigure n c) s = .next x ∧ x.mem = s.mem ∧
      ∀ b y, u.banks[b]? = some y → (bankCommand c).bank ≤ b → b < (bankCommand c).bank + 2 ^ (bankCommand c).grp → (x.site n).tile.banks[b]? = some { y with pend := true }) ∧
    (∀ b, u.bankOps = [b] → b.wiping = true → ∃ x : State, exec (.bankWipeDone n 0) s = .next x ∧ (x.site n).tile.bankOps = [] ∧
      ∀ k y, u.banks[k]? = some y → b.bank ≤ k → k < b.bank + 2 ^ b.grp →
        (x.site n).tile.banks[k]? = some { grp := b.grp, shared := b.shared, pend := false, owner := b.owner }) ∧
    (m.queue = [o] → o.started = false → (m.claim = false ∨ o.who.ctx = 7) → s.tileWaits n 2 o = false → s.staleTile o = none → ownerStops m o = false → o.ins.isMldw = false →
      ∃ x : State, exec (.matrixOpStart n) s = .next x ∧ (x.site n).mx.queue = [{ o with started := true, result := some (mxRun n o none false s).1 }]) ∧
    (m.queue = [o] → o.started = true → o.result = some (c, p) →
      ∃ x : State, exec (.matrixOpComplete n) s = .next (x.replyFrom n n o.target c p (o.seq :: o.deps) o.who.asid o.gen) ∧ (x.site n).mx.queue = [])

/-- The memory port on its simplest operands (R213, R217 to R219, R228, R230, R232, R239, R388, R413, R417): a physical load is translated, a walk and firmware release a parked load, a `gbump` and a store perform, a stale request is looked up again, a refresh window begins and ends, a stream
starts, sends a held beat and an item, a page migrates, the host answers or is late, and a `dst` reaches its line's primary mirror. -/
def Sys2Proof.Claims.PortComplete : Prop :=
  ∀ (s : State) (n asid c page : Nat) (r : MemReq) (m : MF) (x : Xlat) (f : Bool),
    let p := (s.site n).port
    (s.reqs = [r] → r.ins = .ld m → m.md.getLsbD 3 = true → r.phase = .committed →
      ∃ u : State, exec (.memTranslate r.id) s = .next u ∧ u.reqs = [{ r with phase := .ready [] }]) ∧
    (s.reqs = [r] → r.ins = .ld m → r.phase = .parked [page] f → r.who.site = n → r.who.asid = asid → r.who.ctx = c →
      (s.pager.walks = [(n, asid, c, page)] → (∃ k, s.slot? n c = some k ∧ k.asid = asid) →
        (({ s with pager := { s.pager with walks := [] } } : State).walk n (s.tableKey n c) (page * 2 ^ 21)).1 = .leaf x →
        ∃ u : State, exec (.pageWalkDone 0) s = .next u ∧ u.reqs = [{ r with phase := .committed }]) ∧
      (∃ u : State, exec (.fltctlRetry n asid) s = .next u ∧ u.reqs = [{ r with phase := .committed }]) ∧
      (∃ u : State, exec (.fltctlFail n asid) s = .next u ∧ u.reqs = [])) ∧
    (s.reqs = [r] → s.fences = [] → r.ins = .gbump m → r.phase = .ready [] → r.gen = (s.gen r.who.asid).toNat →
      ∃ u : State, exec (.memAccessPerform r.id) s = .next u ∧ u.reqs = []) ∧
    (s.reqs = [r] → s.fences = [] → p.gens = [] → r.who.site = n → r.ins = .st m → r.phase = .ready [] → m.md.getLsbD 3 = true → m.ord = .plain → m.scp.toNat < 8 → r.psn = false →
      r.gen = (s.gen r.who.asid).toNat → r.vat = none → (∀ q ∈ s.portAccs n, mustFollow q (s.portAcc r) = false) → r.ea % r.ins.unitBytes = 0 → r.ea + 8 ≤ 2 ^ 39 →
      inCellarRange s.rcv r.ea = false → s.pkg.wiping = [] → s.pager.migs = [] → s.pager.twins = [] → s.pager.twinPairs = [] → s.twinAt n r.who.ctx = none → s.pager.twinOk = [] →
      ∃ u : State, exec (.memAccessPerform r.id) s = .next u ∧ u.reqs = [] ∧ u.mem.bytes r.ea r.ins.unitBytes = toBytes r.vd.toNat r.ins.unitBytes) ∧
    (s.reqs = [r] → r.phase = .ready [x] → r.gen ≠ (s.gen r.who.asid).toNat →
      ∃ u : State, exec (.staleGenerationRetry r.id) s = .next u ∧ u.reqs = [{ r with phase := .committed, gen := (s.gen r.who.asid).toNat }]) ∧
    (n < 8 → c < 16 → s.mem.refresh = [] → s.nextWindow n c ≤ s.clkAt (n * 256) → ∃ u : State, exec (.wsRefreshStart n c) s = .next u ∧ u.mem.refresh = [n * 16 + c]) ∧
    (s.mem.refresh = [n * 16 + c] → s.nextWindow n c + 168 ≤ s.clkAt (n * 256) + 22400 → ∃ u : State, exec (.wsRefreshEnd n c) s = .next u ∧ u.mem.refresh = []) ∧
    (∀ t, p.sopens = [r] → p.gens = [] → r.ins = .sopen m → r.target = some t →
      ∃ (u : State) (g : StreamRun), exec (.streamGeneratorGrant n) s = .next u ∧ (u.site n).port.sopens = [] ∧ Tbl.get? (u.site n).port.gens 0 = some g ∧ g.target = t ∧ g.pos = 0) ∧
    (∀ g, p.gens = [(0, g)] → g.beat = 0 → 0 < s.duty n → s.sourcesStopped n g.who.ctx = false →
      ∃ u : State, exec (.bubEmit n 0) s = .next u ∧ Tbl.get? (u.site n).port.gens 0 = some { g with beat := s.duty n }) ∧
    (∀ g e, p.gens = [(0, g)] → g.beat = 1 → g.parked = false → s.sourcesStopped n g.who.ctx = false → g.d.replay = false → g.d.tile = false →
      let va := g.d.itemVa g.off g.pos
      let page := va.toNat / 2 ^ 21
      let pa := (e.2.frame + (page - e.2.vpn)) * 2 ^ 21 + va.toNat % 2 ^ 21
      let acc := s.itemAcc g.who g.seq g.act g.alc g.deps g.d g.off g.pos (g.pos + 1)
      0 ≤ va → va + g.d.itemBytes ≤ 2 ^ 56 → va % g.d.itemBytes = 0 → s.extent? n g.who.ctx page = some e → e.2.r = true → e.2.typ = 0 →
      (e.2.frame + (page - e.2.vpn)) * 2 ^ 21 < 2 ^ 39 → inCellarRange s.rcv pa = false → s.pkg.wiping = [] → s.pager.migs = [] → s.mem.recs = [] → s.mem.units = [] →
      s.mem.lines = [] → s.mem.inj = none → s.fences = [] → (∀ q ∈ s.portAccs g.who.site, mustFollow q acc = false) →
      ∃ t u : State, exec (.streamItem n 0) s = .next u ∧
        u = (t.sendItem n g (BitVec.ofNat 64 (ofBytes (s.mem.bytes pa g.d.itemBytes))) false).nextItem n 0 g ∧
        (g.pos + 1 < g.d.count → Tbl.get? (u.site n).port.gens 0 = some { g with pos := g.pos + 1, parked := false, beat := 2 })) ∧
    (∀ g, s.pager.migs = [g] → g.p = 0 → ∃ u : State, exec (.migrationGranuleCopy 0) s = .next u ∧
      u.mem.bytes (g.new * 2 ^ 21) 1024 = s.mem.bytes (g.old * 2 ^ 21) 1024 ∧ u.pager.migs = [{ g with p := 1 }]) ∧
    (∀ g, s.pager.migs = [g] → g.p = 2048 → g.fwd = false → s.reqs = [r] → r.id = g.req →
      ∃ u : State, exec (.migrationComplete 0) s = .next u ∧ u.pager.migs = [{ g with fwd := true }] ∧ u.reqs = []) ∧
    (∀ (h : Piece) (l : List Byte), s.reqs = [r] → r.phase = .remote [x] → r.answer = none → s.flushing r.id = false → s.hostPieces r [x] = [h] → r.ins = .ld m →
      (l.length = h.len → ∃ t : State, exec (.hostCompletion r.id 0 l) s = .next (t.complete r [x]) ∧ t.mem.hostBytes (s.hostAddr h.pa) h.len = l) ∧
      (r.since + 70000 ≤ s.clk → ∃ u : State, exec (.hostCompletionTimeout r.id) s = .next u ∧ u.reqs = [])) ∧
    (let pa := x.frame * 2 ^ 21 + r.ea % 2 ^ 21
     let len := r.ins.unitBytes
     s.reqs = [r] → s.fences = [] → p.gens = [] → r.who.site = n → r.ins = .dst m → r.phase = .ready [x] → m.ord = .plain → m.scp.toNat < 8 → r.psn = false →
     r.gen = (s.gen r.who.asid).toNat → r.vat = none → (∀ q ∈ s.portAccs n, mustFollow q (s.portAcc r) = false) → x.vpn = r.ea / 2 ^ 21 → x.typ = 5 → r.ea % 64 + len ≤ 64 → 2 ^ 41 ≤ pa →
     cellarRegion pa < s.rcv.nreg → inLog s.rcv (cellarRegion pa) = false → s.rcv.openState = 0 → s.rcv.nreg % 8 = 0 → s.rcv.held = 0 → s.rcv.dirty = [] →
     s.pkg.wiping = [] → s.pager.migs = [] → s.pager.twins = [] → s.pager.twinPairs = [] → s.pager.twinOk = [] → s.twinAt n r.who.ctx = none →
     ∃ u : State, exec (.cellarLineWrite r.id) s = .next u ∧ u.mem.bytes (cellarPrimary s.rcv pa) len = toBytes r.vd.toNat len)

/-- Launches on their simplest operands (R294, R295, R297, R299 to R301, R303, R306, R311, R316): a queued seed starts a run, a link token joins its launch's queue, a waiting launch is placed, its configuration arrives and makes it IDLE, still waves end its run, the governor's steps are taken,
containment begins, and two exits of a twin are compared. -/
def Sys2Proof.Claims.LaunchesComplete : Prop :=
  ∀ (s t : State) (h n a b : Nat) (l : Launch) (x y : TwinExit),
    (∀ z, s.launch? h = some l → l.state = .idle → l.freeze = none → l.seeds = [z] →
      ∃ (u : State) (k : Launch), exec (.seedRelease h) s = .next u ∧ u.launch? h = some k ∧ k.state = .running ∧ k.seeds = []) ∧
    (∀ f dev, s.pager.links = [f] → s.twinAt f.src f.sctx = none → linkTo f.entry = some (dev, h) → s.isSelf dev = true → s.launch? h = some l → l.asid = f.asid →
      f.tok.dx.toNat < l.w → f.tok.dy.toNat < l.h → l.state = .placing → l.links = [] →
      ∃ (u : State) (q : Launch) (g : Flight), exec (.linkTokenRoute 0) s = .next u ∧ u.pager.links = [] ∧ u.launch? h = some q ∧ q.links = [g] ∧ g.tok = f.tok) ∧
    (∀ w plans c, s.pager.waiting = [w] → w.handle = h → s.launch? h = some l → w.what = .place → s.plans l = (some plans, t) →
      (t.search l plans l.twin.isSome l.twin.toList l.bases).base = some c →
      exec (.placementRetry 0) s = .next ((t.settled 0).settleAt h l plans c w.data fun _ _ => 0)) ∧
    (s.launch? h = some l → s.heldSites h l ≠ [] → l.state = .placing → s.rcv.roll = none →
      ∃ (u : State) (k : Launch), exec (.configWaveDone h) s = .next u ∧ u.launch? h = some k ∧ k.state = .idle ∧ k.base = .empty ∧ k.log = []) ∧
    (∃ u : State, exec (.powerWindow n) s = .next u ∧ (u.site n).obs.power = []) ∧
    (Tbl.getD s.pager.dutyAt n 0 + 14000 ≤ s.clk → ∃ (u : State) (reading : Nat), exec (.thermalDutyStep n) s = .next u ∧
      Tbl.getD u.pager.temp n 0 = reading ∧ Tbl.getD u.pager.dutyAt n 0 = s.clk ∧
      (Tbl.getD s.pager.tlim n 95 ≤ reading → Tbl.getD u.pager.duty n 0 = min 240 (Tbl.getD s.pager.duty n 0 + 16))) ∧
    (s.launch? h = some l → l.freeze = none → l.state = .running → l.nsink ≤ (s.sums l.ctx l.sites).eos4 + l.eosBase →
      (s.sums l.ctx l.allSites).still true = true → l.evictAtEnd = false → l.twinOff = false →
      (l.quiet = none → exec (.quiescenceWave h) s = .next (s.setLaunch h { l with quiet := some (s.sums l.ctx l.allSites).sent })) ∧
      (l.quiet = some (s.sums l.ctx l.allSites).sent →
        ∃ (u : State) (k : Launch), exec (.quiescenceWave h) s = .next u ∧ u.launch? h = some k ∧ k.state = .idle ∧ k.runs = l.runs + 1)) ∧
    (∀ c k, (s.site n).ctxs = [(c, k)] → s.launch? k.handle = some l → l.open_ = true → s.pager.fltLimit ≠ 0 → s.pager.fltLimit < s.parkedAge n c / 1400 →
      ∃ (u : State) (q : Launch), exec (.faultTimeSample n) s = .next u ∧ u.launch? k.handle = some q ∧ q.freeze.isSome = true) ∧
    (s.launch? h = some l → l.state = .running → exec (.containmentTrigger h 0) s = .next (s.contain h l 0 none)) ∧
    (s.pager.twins = [x, y] → y.handle = x.handle → x.copy = false → y.copy = true → y.pos = x.pos → y.cls = x.cls → y.num = x.num → y.digest = x.digest →
      x.what = .req a → y.what = .req b → ∃ u : State, exec (.twinDigest 0) s = .next u ∧ u.pager.twins = [] ∧ a ∈ u.pager.twinOk) ∧
    (∀ c, s.pager.twins = [x] → x.since = some c → c + 65536 ≤ s.clk → exec (.twinDigestTimeout 0) s = .next (s.mismatch x))

/-- The collective engine and expert placement on their simplest operands (R331, R333, R335, R350, R359, R361, R363, R366): a message of a newer table is held, and after its time dropped; an operation of one device starts; a stalled chunk is reported once; a table of the next version is adopted;
an entry is routed to an open page, the page released and retired, a graft published, a replica marked failed. -/
def Sys2Proof.Claims.CollectivesComplete : Prop :=
  ∀ (s : State) (e c b k p : Nat) (m : CollMsg) (v : Word) (g : CollGroup) (o : CollOp) (r : Replica),
    (s.coll.held = [[], []] → e < 2 → m.ver = (s.coll.ltVer.toNat + 1) % 2 ^ 32 →
      ∃ (u : State) (x : HeldMsg), exec (.collMessage e m) s = .next u ∧ u.coll.held.getD e [] = [x] ∧ x.msg = m ∧ x.since = s.clk) ∧
    (∀ x, s.coll.held.getD e [] = [x] → e < s.coll.held.length → x.since + (s.coll.stall.getD e 0).toNat ≤ s.clk →
      ∃ u : State, exec (.colStall e 0) s = .next u ∧ u.coll.held.getD e [] = []) ∧
    (s.collGroup? g.asid g.gtag = some g → g.cur = some o → o.started = false → o.earlier = false → g.members = [s.link.devno] →
      let d := CollDesc.of o.desc
      let run := { o with started := true, marks := List.replicate d.nbits false, progress := (List.range g.trees.length).map fun k => (k, s.clk) }
      exec (.collectiveOpStart g.asid g.gtag) s = .next ((s.collWrite run d.marks (List.replicate d.markBytes 0)).collRun g run).reholdAll) ∧
    (s.collGroup? g.asid g.gtag = some g → g.cur = some o → o.done = false → o.bitOf (CollDesc.of o.desc) g.trees.length (c % g.trees.length) = some b → b % (CollDesc.of o.desc).nch = c →
      o.exch = false → o.started = true → o.stalled = [] → Tbl.getD o.progress (c % g.trees.length) 0 + (s.coll.stall.getD (g.gtag % 2) 0).toNat ≤ s.clk →
      ∃ (u : State) (q : CollGroup) (x : CollOp), exec (.chunkStall g.asid g.gtag c) s = .next u ∧ u.collGroup? g.asid g.gtag = some q ∧ q.cur = some x ∧ x.stalled = [b]) ∧
    (∀ l t, s.links = (.ok l, t) → t.coll.groups = [] → t.coll.held = [] → v.toNat % 2 ^ 32 = (t.coll.ltVer.toNat + 1) % 2 ^ 32 →
      ∃ u : State, exec (.ceLtctlWrite v) s = .next u ∧ u.coll.ltVer = t.coll.ltVer + 1) ∧
    (∀ x d d2 pg, s.xp.waiting = [] → s.xp.cur = some x → x.rest = [d, d2] → d.expert < s.xp.nexp → s.xp.replicaFor d = some k → Tbl.get? s.xp.reps k = some r → r.openPage = some p →
      Tbl.get? s.xp.pages p = some pg → pg.rows.length + 1 < r.batch →
      (s.bumpFree.ownerWrite (s.bumpFree.reqAgent 5 d.req) d.who (s.xp.pageVa p + 8 * pg.rows.length) (toBytes d.payload.toNat 8)).1 = true →
      ∃ u : State, exec .routeEntry s = .next u ∧ u.xp.cur = some { x with rest := [d2], done := x.done + 1 } ∧
        Tbl.get? u.xp.pages p = some { pg with rows := pg.rows ++ [d.payload], stamp := s.xp.ver }) ∧
    (∀ l, Tbl.get? s.xp.reps k = some r → s.launch? r.handle = some l →
      (r.queue = [p] → r.redo = [] → s.reqs = [] → l.state = .placing → l.seeds = [] → ∃ (u : State) (q : Launch) (x : Seed),
        exec (.pageRelease k) s = .next u ∧ Tbl.get? u.xp.reps k = some { r with queue := [], redo := [(p, 0)] } ∧ u.launch? r.handle = some q ∧ q.seeds = [x] ∧ x.tag = some p) ∧
      (r.state = .live → r.redo = [(p, 1)] → 1 ≤ l.runs → ∃ u : State, exec (.pageRetire k) s = .next u ∧ Tbl.get? u.xp.reps k = some { r with redo := [] } ∧ ∀ x ∈ u.xp.pages, x.1 ≠ p) ∧
      (r.state = .live → l.state = .failed → ∃ (u : State) (q : Replica), exec (.replicaFailed k) s = .next u ∧ Tbl.get? u.xp.reps k = some q ∧ q.state = .failed ∧ q.queue = [] ∧ q.redo = [])) ∧
    (∀ z, s.xp.graft = some z → z.stage = 6 → s.xp.reps = [] → s.xp.orphans = [] → ∃ (u : State) (q : Replica), exec .graftStageDone s = .next u ∧ u.xp.graft = none ∧
      Tbl.get? u.xp.reps 0 = some q ∧ q.state = .live ∧ q.expert = field z.desc 0x14 2)

/-- Recovery, links, observation and the package on their simplest operands (R384, R390, R394, R396, R403, R404, R410, R411, R414, R419, R422, R425, R428 to R431, R437 to R442). -/
def Sys2Proof.Claims.PackageComplete : Prop :=
  ∀ (s : State) (h n k : Nat) (v w : Word) (r : HeadRec) (l : Launch),
    (∀ x, s.rcv.sealing = some x → x.lost = true → ∃ u : State, exec (.sealAbandoned 2) s = .next u ∧ u.rcv.sealing = none ∧ u.rcv.openState = 3) ∧
    (s.rcv.mirrors = [] → (s.rcv.dirty.find? fun p => mendable s.rcv p.1).map (·.1) = some k → ∃ u : State, exec (.resilverRegion k) s = .next u ∧ Tbl.get? u.rcv.dirty k = none) ∧
    (s.rcv.scan = true → 8 ∉ s.pkg.wiping → s.rcv.roll = none → ∃ u : State, exec .slotScan s = .next u ∧ u.rcv.scan = false) ∧
    (s.launch? h = some l → l.escalated = true → l.state = .containing → l.asid = s.rcv.asid → s.rcv.roll = none → s.rcv.scan = false →
      exec (.escalatedRollback h) s = .next (s.beginRoll none)) ∧
    (n < s.link.hold.length → s.link.inq.getD n [] = [r] → s.headBehind r = false → s.badField? r = none → s.launch? r.handle = some l → r.flags % 2 = 1 → r.req = none →
      s.link.hold.getD n [] = [] → ∃ u : State, exec (.seedRecord n) s = .next u ∧ u.link.hold.getD n [] = [r]) ∧
    (n < s.link.hold.length → s.link.hold.getD n [] = [r] → s.storesDone r = true → r.flags / 8 % 2 = 0 → s.launch? r.handle = some l → l.state = .placing → l.freeze = none → l.seeds = [] →
      ∃ (u : State) (q : Launch) (x : Seed), exec (.afterRelease n 0) s = .next u ∧ u.link.hold.getD n [] = [] ∧ u.launch? r.handle = some q ∧ q.seeds = [x]) ∧
    (∀ q : Inbound, q.src = none → q.port = 0 → q.kind = .read false n → 0xE000820000 ≤ q.pa → q.pa < 0xF000000000 → s.link.inbound = [] → s.pkg.wiping = [] →
      ∃ u : State, exec (.inboundRequest q) s = .next u ∧ u.out = s.out ++ [.answer none q.tag 0 (List.replicate n 0)]) ∧
    (∀ x, s.link.ports[k]? = some x →
      (x.up = true → x.tries = 0 → ∃ u : State, exec (.flitReplay k true) s = .next u ∧ u.link.ports[k]? = some { x with replays := x.replays + 1, tries := 1 }) ∧
      (x.up = true → ∃ u : State, exec (.portDown k) s = .next u ∧ u.link.ports[k]? = some { x with up := false, tries := 0 }) ∧
      (x.train = true → ∃ u : State, exec (.portTrain k true) s = .next u ∧ u.link.ports[k]? = some { x with train := false, up := true, tries := 0 })) ∧
    (∃ u : State, exec (.lkIrqWrite v) s = .next u ∧ (u.out = s.out ++ [.msix (v.toNat % 32)] ∨ u.out = s.out)) ∧
    (v.getLsbD 63 = true → exec (.timeEventMessage true v w) s = .next { s with out := s.out ++ [.time v s.obs.time] }) ∧
    (s.obs.swEn = true → s.obs.swSite = n → s.obs.swFrom + n * (s.obs.period * 1400000) / 2080 ≤ s.clk → n + 1 < 2080 → ∃ u : State, exec (.sweepVisit n) s = .next u ∧ u.obs.swSite = n + 1) ∧
    (0 ≤ v.toInt → ∃ u : State, exec (.obTadjWrite v) s = .next u ∧ u.obs.time = s.obs.time + v) ∧
    (∀ x e y, s.obs.walks = [x] → Tbl.get? (s.site x.site).obs.hist x.idx = some e → x.steps + 1 < x.depth → e.org.site ≠ 0xFFF → s.obs.trLen = 0 →
      Tbl.get? (s.site e.org.site).obs.hist e.org.idx = some y → y.gen = e.org.gen → ∃ u : State, exec (.walkStep 0) s = .next u ∧
        u.obs.walks = [{ x with steps := x.steps + 1, site := e.org.site, idx := e.org.idx, gen := e.org.gen }]) ∧
    (∀ f, s.mesh = [f] → f.here = true → retryWaits s f.dst = false → arrivalKind s f.dst f = .stop → inputOpen s f.dst = true →
      ∃ u : State, exec (.stopHit 0) s = .next u ∧ u.obs.stopArmed = false) ∧
    (∀ x, s.obs.mons[k]? = some x →
      (x.en = true → n < 2 ^ 32 → ∃ (u : State) (y : Monitor), exec (.monitorSample k n) s = .next u ∧ u.obs.mons[k]? = some y ∧ y.max.toNat = max x.max.toNat n) ∧
      (∃ (u : State) (y : Monitor), exec (.obLmselWrite k v) s = .next u ∧ u.obs.mons[k]? = some y ∧ y.en = v.getLsbD 0 ∧ y.max = 0)) ∧
    (∀ a j, s.mem.inj = some (a, j) → paTarget a ≠ .tile → s.injectAt k / 64 = a / 64 → ∃ u : State, exec (.injectionHit k) s = .next u ∧ u.mem.inj = none) ∧
    (∃ u : State, exec .inputLoss s = .next u ∧ u.sites = [] ∧ u.pkg.boot = .wiping) ∧
    (s.pkg.boot ≠ .wiping → (∃ u : State, exec .deviceReset s = .next u ∧ u.sites = [] ∧ u.pkg.boot = .wiping) ∧
      (n < 8 → ∃ u : State, exec (.computeDieReset n) s = .next u ∧ n ∈ u.pkg.wiping ∧ u.pkg.recov.getLsbD n = true) ∧
      (∃ u : State, exec .ioDie1Reset s = .next u ∧ 9 ∈ u.pkg.wiping) ∧ (∃ u : State, exec .ioDie0Reset s = .next u ∧ 8 ∈ u.pkg.wiping) ∧
      (s.pkg.wiping = [n] → n < 8 → ∃ u : State, exec (.wipeComplete n) s = .next u ∧ u.pkg.wiping = [])) ∧
    (n < 8 → s.pkg.recov.getLsbD n = true → n ∉ s.pkg.wiping → ∃ u : State, exec (.calibrationEnd n) s = .next u ∧ u.pkg.recov.getLsbD n = false) ∧
    (s.pkg.bootWin = true → ∀ a t cd x, s.sysRead coordSite 0 (v.toNat % 2 ^ 32) = (a, t) → t.sysRead coordSite bootCd 64 = (cd, x) → x.fwVerified a = true →
      x.descriptorOk cd = true → imageFails (fwGraph a) 7 (field cd 4 4) = none → ∃ u : State, exec (.pkBootWrite v) s = .next u ∧ u.pkg.boot = .running ∧ u.pkg.bootWin = false) ∧
    (s.pkg.life < 3 → ∃ u : State, exec .lifeCycleAdvance s = .next u ∧ u.pkg.ladv = true) ∧
    (n < 2080 → k < 512 → exec (.registerWrite (0xE000000000 + n * 4096 + 8 * k) v) s = .next (s.regWrite n (8 * k) v)) ∧
    (s.pkg.life = 1 → s.pkg.boot = .running → 8 ∉ s.pkg.wiping → ∀ a b, s.pkg.fw = some (a, b) → s.launch? a = some l → l.ctx = 7 → l.state = .running →
      ∃ x, exec .attestationReport s = .next { s with out := s.out ++ [.report x] })

/-- Every row of the opcode table that is an event completes with its own effect on operands that the conditions name (R14): the sequencer's, the tile and compute engines', the memory port's, the pager's, the collective and expert engines',
and those of recovery, links, observation and the package. -/
def Obligations.EventsComplete : Prop :=
  Claims.SequencerComplete ∧ Claims.EnginesComplete ∧ Claims.PortComplete ∧ Claims.LaunchesComplete ∧ Claims.CollectivesComplete ∧ Claims.PackageComplete
end

