-- ==== Sys2Proof/Laws/State.lean ====
section
/-! SUPPORT. What each update of the state leaves in each field: one lemma for each field and update, each true by `rfl`. -/
namespace Sys2Proof.Machine

/-! ### `setSite` -/

@[simp] theorem State.setSite_sites (s : State) (n : Nat) (x : Site) : (s.setSite n x).sites = Tbl.set s.sites n x := rfl
@[simp] theorem State.setSite_mem (s : State) (n : Nat) (x : Site) : (s.setSite n x).mem = s.mem := rfl
@[simp] theorem State.setSite_mesh (s : State) (n : Nat) (x : Site) : (s.setSite n x).mesh = s.mesh := rfl
@[simp] theorem State.setSite_groupReqs (s : State) (n : Nat) (x : Site) : (s.setSite n x).groupReqs = s.groupReqs := rfl
@[simp] theorem State.setSite_handleReqs (s : State) (n : Nat) (x : Site) : (s.setSite n x).handleReqs = s.handleReqs := rfl
@[simp] theorem State.setSite_reqs (s : State) (n : Nat) (x : Site) : (s.setSite n x).reqs = s.reqs := rfl
@[simp] theorem State.setSite_fences (s : State) (n : Nat) (x : Site) : (s.setSite n x).fences = s.fences := rfl
@[simp] theorem State.setSite_pager (s : State) (n : Nat) (x : Site) : (s.setSite n x).pager = s.pager := rfl
@[simp] theorem State.setSite_coll (s : State) (n : Nat) (x : Site) : (s.setSite n x).coll = s.coll := rfl
@[simp] theorem State.setSite_xp (s : State) (n : Nat) (x : Site) : (s.setSite n x).xp = s.xp := rfl
@[simp] theorem State.setSite_rcv (s : State) (n : Nat) (x : Site) : (s.setSite n x).rcv = s.rcv := rfl
@[simp] theorem State.setSite_link (s : State) (n : Nat) (x : Site) : (s.setSite n x).link = s.link := rfl
@[simp] theorem State.setSite_obs (s : State) (n : Nat) (x : Site) : (s.setSite n x).obs = s.obs := rfl
@[simp] theorem State.setSite_pkg (s : State) (n : Nat) (x : Site) : (s.setSite n x).pkg = s.pkg := rfl
@[simp] theorem State.setSite_clk (s : State) (n : Nat) (x : Site) : (s.setSite n x).clk = s.clk := rfl
@[simp] theorem State.setSite_seq (s : State) (n : Nat) (x : Site) : (s.setSite n x).seq = s.seq := rfl
@[simp] theorem State.setSite_free (s : State) (n : Nat) (x : Site) : (s.setSite n x).free = s.free := rfl
@[simp] theorem State.setSite_cur (s : State) (n : Nat) (x : Site) : (s.setSite n x).cur = s.cur := rfl
@[simp] theorem State.setSite_turn (s : State) (n : Nat) (x : Site) : (s.setSite n x).turn = s.turn := rfl
@[simp] theorem State.setSite_inputs (s : State) (n : Nat) (x : Site) : (s.setSite n x).inputs = s.inputs := rfl
@[simp] theorem State.setSite_out (s : State) (n : Nat) (x : Site) : (s.setSite n x).out = s.out := rfl

/-! ### `modSite` -/

@[simp] theorem State.modSite_sites (s : State) (n : Nat) (f : Site → Site) : (s.modSite n f).sites = Tbl.set s.sites n (f (s.site n)) := rfl
@[simp] theorem State.modSite_mem (s : State) (n : Nat) (f : Site → Site) : (s.modSite n f).mem = s.mem := rfl
@[simp] theorem State.modSite_mesh (s : State) (n : Nat) (f : Site → Site) : (s.modSite n f).mesh = s.mesh := rfl
@[simp] theorem State.modSite_groupReqs (s : State) (n : Nat) (f : Site → Site) : (s.modSite n f).groupReqs = s.groupReqs := rfl
@[simp] theorem State.modSite_handleReqs (s : State) (n : Nat) (f : Site → Site) : (s.modSite n f).handleReqs = s.handleReqs := rfl
@[simp] theorem State.modSite_reqs (s : State) (n : Nat) (f : Site → Site) : (s.modSite n f).reqs = s.reqs := rfl
@[simp] theorem State.modSite_fences (s : State) (n : Nat) (f : Site → Site) : (s.modSite n f).fences = s.fences := rfl
@[simp] theorem State.modSite_pager (s : State) (n : Nat) (f : Site → Site) : (s.modSite n f).pager = s.pager := rfl
@[simp] theorem State.modSite_coll (s : State) (n : Nat) (f : Site → Site) : (s.modSite n f).coll = s.coll := rfl
@[simp] theorem State.modSite_xp (s : State) (n : Nat) (f : Site → Site) : (s.modSite n f).xp = s.xp := rfl
@[simp] theorem State.modSite_rcv (s : State) (n : Nat) (f : Site → Site) : (s.modSite n f).rcv = s.rcv := rfl
@[simp] theorem State.modSite_link (s : State) (n : Nat) (f : Site → Site) : (s.modSite n f).link = s.link := rfl
@[simp] theorem State.modSite_obs (s : State) (n : Nat) (f : Site → Site) : (s.modSite n f).obs = s.obs := rfl
@[simp] theorem State.modSite_pkg (s : State) (n : Nat) (f : Site → Site) : (s.modSite n f).pkg = s.pkg := rfl
@[simp] theorem State.modSite_clk (s : State) (n : Nat) (f : Site → Site) : (s.modSite n f).clk = s.clk := rfl
@[simp] theorem State.modSite_seq (s : State) (n : Nat) (f : Site → Site) : (s.modSite n f).seq = s.seq := rfl
@[simp] theorem State.modSite_free (s : State) (n : Nat) (f : Site → Site) : (s.modSite n f).free = s.free := rfl
@[simp] theorem State.modSite_cur (s : State) (n : Nat) (f : Site → Site) : (s.modSite n f).cur = s.cur := rfl
@[simp] theorem State.modSite_turn (s : State) (n : Nat) (f : Site → Site) : (s.modSite n f).turn = s.turn := rfl
@[simp] theorem State.modSite_inputs (s : State) (n : Nat) (f : Site → Site) : (s.modSite n f).inputs = s.inputs := rfl
@[simp] theorem State.modSite_out (s : State) (n : Nat) (f : Site → Site) : (s.modSite n f).out = s.out := rfl

/-! ### `modSeq` -/

@[simp] theorem State.modSeq_mem (s : State) (n : Nat) (f : SeqUnit → SeqUnit) : (s.modSeq n f).mem = s.mem := rfl
@[simp] theorem State.modSeq_mesh (s : State) (n : Nat) (f : SeqUnit → SeqUnit) : (s.modSeq n f).mesh = s.mesh := rfl
@[simp] theorem State.modSeq_groupReqs (s : State) (n : Nat) (f : SeqUnit → SeqUnit) : (s.modSeq n f).groupReqs = s.groupReqs := rfl
@[simp] theorem State.modSeq_handleReqs (s : State) (n : Nat) (f : SeqUnit → SeqUnit) : (s.modSeq n f).handleReqs = s.handleReqs := rfl
@[simp] theorem State.modSeq_reqs (s : State) (n : Nat) (f : SeqUnit → SeqUnit) : (s.modSeq n f).reqs = s.reqs := rfl
@[simp] theorem State.modSeq_fences (s : State) (n : Nat) (f : SeqUnit → SeqUnit) : (s.modSeq n f).fences = s.fences := rfl
@[simp] theorem State.modSeq_pager (s : State) (n : Nat) (f : SeqUnit → SeqUnit) : (s.modSeq n f).pager = s.pager := rfl
@[simp] theorem State.modSeq_coll (s : State) (n : Nat) (f : SeqUnit → SeqUnit) : (s.modSeq n f).coll = s.coll := rfl
@[simp] theorem State.modSeq_xp (s : State) (n : Nat) (f : SeqUnit → SeqUnit) : (s.modSeq n f).xp = s.xp := rfl
@[simp] theorem State.modSeq_rcv (s : State) (n : Nat) (f : SeqUnit → SeqUnit) : (s.modSeq n f).rcv = s.rcv := rfl
@[simp] theorem State.modSeq_link (s : State) (n : Nat) (f : SeqUnit → SeqUnit) : (s.modSeq n f).link = s.link := rfl
@[simp] theorem State.modSeq_obs (s : State) (n : Nat) (f : SeqUnit → SeqUnit) : (s.modSeq n f).obs = s.obs := rfl
@[simp] theorem State.modSeq_pkg (s : State) (n : Nat) (f : SeqUnit → SeqUnit) : (s.modSeq n f).pkg = s.pkg := rfl
@[simp] theorem State.modSeq_clk (s : State) (n : Nat) (f : SeqUnit → SeqUnit) : (s.modSeq n f).clk = s.clk := rfl
@[simp] theorem State.modSeq_seq (s : State) (n : Nat) (f : SeqUnit → SeqUnit) : (s.modSeq n f).seq = s.seq := rfl
@[simp] theorem State.modSeq_free (s : State) (n : Nat) (f : SeqUnit → SeqUnit) : (s.modSeq n f).free = s.free := rfl
@[simp] theorem State.modSeq_cur (s : State) (n : Nat) (f : SeqUnit → SeqUnit) : (s.modSeq n f).cur = s.cur := rfl
@[simp] theorem State.modSeq_turn (s : State) (n : Nat) (f : SeqUnit → SeqUnit) : (s.modSeq n f).turn = s.turn := rfl
@[simp] theorem State.modSeq_inputs (s : State) (n : Nat) (f : SeqUnit → SeqUnit) : (s.modSeq n f).inputs = s.inputs := rfl
@[simp] theorem State.modSeq_out (s : State) (n : Nat) (f : SeqUnit → SeqUnit) : (s.modSeq n f).out = s.out := rfl

/-! ### `modTile` -/

@[simp] theorem State.modTile_mem (s : State) (n : Nat) (f : TileUnit → TileUnit) : (s.modTile n f).mem = s.mem := rfl
@[simp] theorem State.modTile_mesh (s : State) (n : Nat) (f : TileUnit → TileUnit) : (s.modTile n f).mesh = s.mesh := rfl
@[simp] theorem State.modTile_groupReqs (s : State) (n : Nat) (f : TileUnit → TileUnit) : (s.modTile n f).groupReqs = s.groupReqs := rfl
@[simp] theorem State.modTile_handleReqs (s : State) (n : Nat) (f : TileUnit → TileUnit) : (s.modTile n f).handleReqs = s.handleReqs := rfl
@[simp] theorem State.modTile_reqs (s : State) (n : Nat) (f : TileUnit → TileUnit) : (s.modTile n f).reqs = s.reqs := rfl
@[simp] theorem State.modTile_fences (s : State) (n : Nat) (f : TileUnit → TileUnit) : (s.modTile n f).fences = s.fences := rfl
@[simp] theorem State.modTile_pager (s : State) (n : Nat) (f : TileUnit → TileUnit) : (s.modTile n f).pager = s.pager := rfl
@[simp] theorem State.modTile_coll (s : State) (n : Nat) (f : TileUnit → TileUnit) : (s.modTile n f).coll = s.coll := rfl
@[simp] theorem State.modTile_xp (s : State) (n : Nat) (f : TileUnit → TileUnit) : (s.modTile n f).xp = s.xp := rfl
@[simp] theorem State.modTile_rcv (s : State) (n : Nat) (f : TileUnit → TileUnit) : (s.modTile n f).rcv = s.rcv := rfl
@[simp] theorem State.modTile_link (s : State) (n : Nat) (f : TileUnit → TileUnit) : (s.modTile n f).link = s.link := rfl
@[simp] theorem State.modTile_obs (s : State) (n : Nat) (f : TileUnit → TileUnit) : (s.modTile n f).obs = s.obs := rfl
@[simp] theorem State.modTile_pkg (s : State) (n : Nat) (f : TileUnit → TileUnit) : (s.modTile n f).pkg = s.pkg := rfl
@[simp] theorem State.modTile_clk (s : State) (n : Nat) (f : TileUnit → TileUnit) : (s.modTile n f).clk = s.clk := rfl
@[simp] theorem State.modTile_seq (s : State) (n : Nat) (f : TileUnit → TileUnit) : (s.modTile n f).seq = s.seq := rfl
@[simp] theorem State.modTile_free (s : State) (n : Nat) (f : TileUnit → TileUnit) : (s.modTile n f).free = s.free := rfl
@[simp] theorem State.modTile_cur (s : State) (n : Nat) (f : TileUnit → TileUnit) : (s.modTile n f).cur = s.cur := rfl
@[simp] theorem State.modTile_turn (s : State) (n : Nat) (f : TileUnit → TileUnit) : (s.modTile n f).turn = s.turn := rfl
@[simp] theorem State.modTile_inputs (s : State) (n : Nat) (f : TileUnit → TileUnit) : (s.modTile n f).inputs = s.inputs := rfl
@[simp] theorem State.modTile_out (s : State) (n : Nat) (f : TileUnit → TileUnit) : (s.modTile n f).out = s.out := rfl

/-! ### `modMx` -/

@[simp] theorem State.modMx_mem (s : State) (n : Nat) (f : MatrixUnit → MatrixUnit) : (s.modMx n f).mem = s.mem := rfl
@[simp] theorem State.modMx_mesh (s : State) (n : Nat) (f : MatrixUnit → MatrixUnit) : (s.modMx n f).mesh = s.mesh := rfl
@[simp] theorem State.modMx_groupReqs (s : State) (n : Nat) (f : MatrixUnit → MatrixUnit) : (s.modMx n f).groupReqs = s.groupReqs := rfl
@[simp] theorem State.modMx_handleReqs (s : State) (n : Nat) (f : MatrixUnit → MatrixUnit) : (s.modMx n f).handleReqs = s.handleReqs := rfl
@[simp] theorem State.modMx_reqs (s : State) (n : Nat) (f : MatrixUnit → MatrixUnit) : (s.modMx n f).reqs = s.reqs := rfl
@[simp] theorem State.modMx_fences (s : State) (n : Nat) (f : MatrixUnit → MatrixUnit) : (s.modMx n f).fences = s.fences := rfl
@[simp] theorem State.modMx_pager (s : State) (n : Nat) (f : MatrixUnit → MatrixUnit) : (s.modMx n f).pager = s.pager := rfl
@[simp] theorem State.modMx_coll (s : State) (n : Nat) (f : MatrixUnit → MatrixUnit) : (s.modMx n f).coll = s.coll := rfl
@[simp] theorem State.modMx_xp (s : State) (n : Nat) (f : MatrixUnit → MatrixUnit) : (s.modMx n f).xp = s.xp := rfl
@[simp] theorem State.modMx_rcv (s : State) (n : Nat) (f : MatrixUnit → MatrixUnit) : (s.modMx n f).rcv = s.rcv := rfl
@[simp] theorem State.modMx_link (s : State) (n : Nat) (f : MatrixUnit → MatrixUnit) : (s.modMx n f).link = s.link := rfl
@[simp] theorem State.modMx_obs (s : State) (n : Nat) (f : MatrixUnit → MatrixUnit) : (s.modMx n f).obs = s.obs := rfl
@[simp] theorem State.modMx_pkg (s : State) (n : Nat) (f : MatrixUnit → MatrixUnit) : (s.modMx n f).pkg = s.pkg := rfl
@[simp] theorem State.modMx_clk (s : State) (n : Nat) (f : MatrixUnit → MatrixUnit) : (s.modMx n f).clk = s.clk := rfl
@[simp] theorem State.modMx_seq (s : State) (n : Nat) (f : MatrixUnit → MatrixUnit) : (s.modMx n f).seq = s.seq := rfl
@[simp] theorem State.modMx_free (s : State) (n : Nat) (f : MatrixUnit → MatrixUnit) : (s.modMx n f).free = s.free := rfl
@[simp] theorem State.modMx_cur (s : State) (n : Nat) (f : MatrixUnit → MatrixUnit) : (s.modMx n f).cur = s.cur := rfl
@[simp] theorem State.modMx_turn (s : State) (n : Nat) (f : MatrixUnit → MatrixUnit) : (s.modMx n f).turn = s.turn := rfl
@[simp] theorem State.modMx_inputs (s : State) (n : Nat) (f : MatrixUnit → MatrixUnit) : (s.modMx n f).inputs = s.inputs := rfl
@[simp] theorem State.modMx_out (s : State) (n : Nat) (f : MatrixUnit → MatrixUnit) : (s.modMx n f).out = s.out := rfl

/-! ### `modPort` -/

@[simp] theorem State.modPort_mem (s : State) (n : Nat) (f : PortUnit → PortUnit) : (s.modPort n f).mem = s.mem := rfl
@[simp] theorem State.modPort_mesh (s : State) (n : Nat) (f : PortUnit → PortUnit) : (s.modPort n f).mesh = s.mesh := rfl
@[simp] theorem State.modPort_groupReqs (s : State) (n : Nat) (f : PortUnit → PortUnit) : (s.modPort n f).groupReqs = s.groupReqs := rfl
@[simp] theorem State.modPort_handleReqs (s : State) (n : Nat) (f : PortUnit → PortUnit) : (s.modPort n f).handleReqs = s.handleReqs := rfl
@[simp] theorem State.modPort_reqs (s : State) (n : Nat) (f : PortUnit → PortUnit) : (s.modPort n f).reqs = s.reqs := rfl
@[simp] theorem State.modPort_fences (s : State) (n : Nat) (f : PortUnit → PortUnit) : (s.modPort n f).fences = s.fences := rfl
@[simp] theorem State.modPort_pager (s : State) (n : Nat) (f : PortUnit → PortUnit) : (s.modPort n f).pager = s.pager := rfl
@[simp] theorem State.modPort_coll (s : State) (n : Nat) (f : PortUnit → PortUnit) : (s.modPort n f).coll = s.coll := rfl
@[simp] theorem State.modPort_xp (s : State) (n : Nat) (f : PortUnit → PortUnit) : (s.modPort n f).xp = s.xp := rfl
@[simp] theorem State.modPort_rcv (s : State) (n : Nat) (f : PortUnit → PortUnit) : (s.modPort n f).rcv = s.rcv := rfl
@[simp] theorem State.modPort_link (s : State) (n : Nat) (f : PortUnit → PortUnit) : (s.modPort n f).link = s.link := rfl
@[simp] theorem State.modPort_obs (s : State) (n : Nat) (f : PortUnit → PortUnit) : (s.modPort n f).obs = s.obs := rfl
@[simp] theorem State.modPort_pkg (s : State) (n : Nat) (f : PortUnit → PortUnit) : (s.modPort n f).pkg = s.pkg := rfl
@[simp] theorem State.modPort_clk (s : State) (n : Nat) (f : PortUnit → PortUnit) : (s.modPort n f).clk = s.clk := rfl
@[simp] theorem State.modPort_seq (s : State) (n : Nat) (f : PortUnit → PortUnit) : (s.modPort n f).seq = s.seq := rfl
@[simp] theorem State.modPort_free (s : State) (n : Nat) (f : PortUnit → PortUnit) : (s.modPort n f).free = s.free := rfl
@[simp] theorem State.modPort_cur (s : State) (n : Nat) (f : PortUnit → PortUnit) : (s.modPort n f).cur = s.cur := rfl
@[simp] theorem State.modPort_turn (s : State) (n : Nat) (f : PortUnit → PortUnit) : (s.modPort n f).turn = s.turn := rfl
@[simp] theorem State.modPort_inputs (s : State) (n : Nat) (f : PortUnit → PortUnit) : (s.modPort n f).inputs = s.inputs := rfl
@[simp] theorem State.modPort_out (s : State) (n : Nat) (f : PortUnit → PortUnit) : (s.modPort n f).out = s.out := rfl

/-! ### `modCtx` -/

@[simp] theorem State.modCtx_mem (s : State) (n c : Nat) (f : CtxSlot → CtxSlot) : (s.modCtx n c f).mem = s.mem := rfl
@[simp] theorem State.modCtx_mesh (s : State) (n c : Nat) (f : CtxSlot → CtxSlot) : (s.modCtx n c f).mesh = s.mesh := rfl
@[simp] theorem State.modCtx_groupReqs (s : State) (n c : Nat) (f : CtxSlot → CtxSlot) : (s.modCtx n c f).groupReqs = s.groupReqs := rfl
@[simp] theorem State.modCtx_handleReqs (s : State) (n c : Nat) (f : CtxSlot → CtxSlot) : (s.modCtx n c f).handleReqs = s.handleReqs := rfl
@[simp] theorem State.modCtx_reqs (s : State) (n c : Nat) (f : CtxSlot → CtxSlot) : (s.modCtx n c f).reqs = s.reqs := rfl
@[simp] theorem State.modCtx_fences (s : State) (n c : Nat) (f : CtxSlot → CtxSlot) : (s.modCtx n c f).fences = s.fences := rfl
@[simp] theorem State.modCtx_pager (s : State) (n c : Nat) (f : CtxSlot → CtxSlot) : (s.modCtx n c f).pager = s.pager := rfl
@[simp] theorem State.modCtx_coll (s : State) (n c : Nat) (f : CtxSlot → CtxSlot) : (s.modCtx n c f).coll = s.coll := rfl
@[simp] theorem State.modCtx_xp (s : State) (n c : Nat) (f : CtxSlot → CtxSlot) : (s.modCtx n c f).xp = s.xp := rfl
@[simp] theorem State.modCtx_rcv (s : State) (n c : Nat) (f : CtxSlot → CtxSlot) : (s.modCtx n c f).rcv = s.rcv := rfl
@[simp] theorem State.modCtx_link (s : State) (n c : Nat) (f : CtxSlot → CtxSlot) : (s.modCtx n c f).link = s.link := rfl
@[simp] theorem State.modCtx_obs (s : State) (n c : Nat) (f : CtxSlot → CtxSlot) : (s.modCtx n c f).obs = s.obs := rfl
@[simp] theorem State.modCtx_pkg (s : State) (n c : Nat) (f : CtxSlot → CtxSlot) : (s.modCtx n c f).pkg = s.pkg := rfl
@[simp] theorem State.modCtx_clk (s : State) (n c : Nat) (f : CtxSlot → CtxSlot) : (s.modCtx n c f).clk = s.clk := rfl
@[simp] theorem State.modCtx_seq (s : State) (n c : Nat) (f : CtxSlot → CtxSlot) : (s.modCtx n c f).seq = s.seq := rfl
@[simp] theorem State.modCtx_free (s : State) (n c : Nat) (f : CtxSlot → CtxSlot) : (s.modCtx n c f).free = s.free := rfl
@[simp] theorem State.modCtx_cur (s : State) (n c : Nat) (f : CtxSlot → CtxSlot) : (s.modCtx n c f).cur = s.cur := rfl
@[simp] theorem State.modCtx_turn (s : State) (n c : Nat) (f : CtxSlot → CtxSlot) : (s.modCtx n c f).turn = s.turn := rfl
@[simp] theorem State.modCtx_inputs (s : State) (n c : Nat) (f : CtxSlot → CtxSlot) : (s.modCtx n c f).inputs = s.inputs := rfl
@[simp] theorem State.modCtx_out (s : State) (n c : Nat) (f : CtxSlot → CtxSlot) : (s.modCtx n c f).out = s.out := rfl

/-! ### `setAct` -/

@[simp] theorem State.setAct_mem (s : State) (n k : Nat) (a : Activation) : (s.setAct n k a).mem = s.mem := rfl
@[simp] theorem State.setAct_mesh (s : State) (n k : Nat) (a : Activation) : (s.setAct n k a).mesh = s.mesh := rfl
@[simp] theorem State.setAct_groupReqs (s : State) (n k : Nat) (a : Activation) : (s.setAct n k a).groupReqs = s.groupReqs := rfl
@[simp] theorem State.setAct_handleReqs (s : State) (n k : Nat) (a : Activation) : (s.setAct n k a).handleReqs = s.handleReqs := rfl
@[simp] theorem State.setAct_reqs (s : State) (n k : Nat) (a : Activation) : (s.setAct n k a).reqs = s.reqs := rfl
@[simp] theorem State.setAct_fences (s : State) (n k : Nat) (a : Activation) : (s.setAct n k a).fences = s.fences := rfl
@[simp] theorem State.setAct_pager (s : State) (n k : Nat) (a : Activation) : (s.setAct n k a).pager = s.pager := rfl
@[simp] theorem State.setAct_coll (s : State) (n k : Nat) (a : Activation) : (s.setAct n k a).coll = s.coll := rfl
@[simp] theorem State.setAct_xp (s : State) (n k : Nat) (a : Activation) : (s.setAct n k a).xp = s.xp := rfl
@[simp] theorem State.setAct_rcv (s : State) (n k : Nat) (a : Activation) : (s.setAct n k a).rcv = s.rcv := rfl
@[simp] theorem State.setAct_link (s : State) (n k : Nat) (a : Activation) : (s.setAct n k a).link = s.link := rfl
@[simp] theorem State.setAct_obs (s : State) (n k : Nat) (a : Activation) : (s.setAct n k a).obs = s.obs := rfl
@[simp] theorem State.setAct_pkg (s : State) (n k : Nat) (a : Activation) : (s.setAct n k a).pkg = s.pkg := rfl
@[simp] theorem State.setAct_clk (s : State) (n k : Nat) (a : Activation) : (s.setAct n k a).clk = s.clk := rfl
@[simp] theorem State.setAct_seq (s : State) (n k : Nat) (a : Activation) : (s.setAct n k a).seq = s.seq := rfl
@[simp] theorem State.setAct_free (s : State) (n k : Nat) (a : Activation) : (s.setAct n k a).free = s.free := rfl
@[simp] theorem State.setAct_cur (s : State) (n k : Nat) (a : Activation) : (s.setAct n k a).cur = s.cur := rfl
@[simp] theorem State.setAct_turn (s : State) (n k : Nat) (a : Activation) : (s.setAct n k a).turn = s.turn := rfl
@[simp] theorem State.setAct_inputs (s : State) (n k : Nat) (a : Activation) : (s.setAct n k a).inputs = s.inputs := rfl
@[simp] theorem State.setAct_out (s : State) (n k : Nat) (a : Activation) : (s.setAct n k a).out = s.out := rfl

/-! ### `modCregs` -/

@[simp] theorem State.modCregs_mem (s : State) (n c : Nat) (f : CtxRegs → CtxRegs) : (s.modCregs n c f).mem = s.mem := rfl
@[simp] theorem State.modCregs_mesh (s : State) (n c : Nat) (f : CtxRegs → CtxRegs) : (s.modCregs n c f).mesh = s.mesh := rfl
@[simp] theorem State.modCregs_groupReqs (s : State) (n c : Nat) (f : CtxRegs → CtxRegs) : (s.modCregs n c f).groupReqs = s.groupReqs := rfl
@[simp] theorem State.modCregs_handleReqs (s : State) (n c : Nat) (f : CtxRegs → CtxRegs) : (s.modCregs n c f).handleReqs = s.handleReqs := rfl
@[simp] theorem State.modCregs_reqs (s : State) (n c : Nat) (f : CtxRegs → CtxRegs) : (s.modCregs n c f).reqs = s.reqs := rfl
@[simp] theorem State.modCregs_fences (s : State) (n c : Nat) (f : CtxRegs → CtxRegs) : (s.modCregs n c f).fences = s.fences := rfl
@[simp] theorem State.modCregs_pager (s : State) (n c : Nat) (f : CtxRegs → CtxRegs) : (s.modCregs n c f).pager = s.pager := rfl
@[simp] theorem State.modCregs_coll (s : State) (n c : Nat) (f : CtxRegs → CtxRegs) : (s.modCregs n c f).coll = s.coll := rfl
@[simp] theorem State.modCregs_xp (s : State) (n c : Nat) (f : CtxRegs → CtxRegs) : (s.modCregs n c f).xp = s.xp := rfl
@[simp] theorem State.modCregs_rcv (s : State) (n c : Nat) (f : CtxRegs → CtxRegs) : (s.modCregs n c f).rcv = s.rcv := rfl
@[simp] theorem State.modCregs_link (s : State) (n c : Nat) (f : CtxRegs → CtxRegs) : (s.modCregs n c f).link = s.link := rfl
@[simp] theorem State.modCregs_obs (s : State) (n c : Nat) (f : CtxRegs → CtxRegs) : (s.modCregs n c f).obs = s.obs := rfl
@[simp] theorem State.modCregs_pkg (s : State) (n c : Nat) (f : CtxRegs → CtxRegs) : (s.modCregs n c f).pkg = s.pkg := rfl
@[simp] theorem State.modCregs_clk (s : State) (n c : Nat) (f : CtxRegs → CtxRegs) : (s.modCregs n c f).clk = s.clk := rfl
@[simp] theorem State.modCregs_seq (s : State) (n c : Nat) (f : CtxRegs → CtxRegs) : (s.modCregs n c f).seq = s.seq := rfl
@[simp] theorem State.modCregs_free (s : State) (n c : Nat) (f : CtxRegs → CtxRegs) : (s.modCregs n c f).free = s.free := rfl
@[simp] theorem State.modCregs_cur (s : State) (n c : Nat) (f : CtxRegs → CtxRegs) : (s.modCregs n c f).cur = s.cur := rfl
@[simp] theorem State.modCregs_turn (s : State) (n c : Nat) (f : CtxRegs → CtxRegs) : (s.modCregs n c f).turn = s.turn := rfl
@[simp] theorem State.modCregs_inputs (s : State) (n c : Nat) (f : CtxRegs → CtxRegs) : (s.modCregs n c f).inputs = s.inputs := rfl
@[simp] theorem State.modCregs_out (s : State) (n c : Nat) (f : CtxRegs → CtxRegs) : (s.modCregs n c f).out = s.out := rfl

/-! ### `count` -/

@[simp] theorem State.count_mem (s : State) (n e : Nat) : (s.count n e).mem = s.mem := rfl
@[simp] theorem State.count_mesh (s : State) (n e : Nat) : (s.count n e).mesh = s.mesh := rfl
@[simp] theorem State.count_groupReqs (s : State) (n e : Nat) : (s.count n e).groupReqs = s.groupReqs := rfl
@[simp] theorem State.count_handleReqs (s : State) (n e : Nat) : (s.count n e).handleReqs = s.handleReqs := rfl
@[simp] theorem State.count_reqs (s : State) (n e : Nat) : (s.count n e).reqs = s.reqs := rfl
@[simp] theorem State.count_fences (s : State) (n e : Nat) : (s.count n e).fences = s.fences := rfl
@[simp] theorem State.count_pager (s : State) (n e : Nat) : (s.count n e).pager = s.pager := rfl
@[simp] theorem State.count_coll (s : State) (n e : Nat) : (s.count n e).coll = s.coll := rfl
@[simp] theorem State.count_xp (s : State) (n e : Nat) : (s.count n e).xp = s.xp := rfl
@[simp] theorem State.count_rcv (s : State) (n e : Nat) : (s.count n e).rcv = s.rcv := rfl
@[simp] theorem State.count_link (s : State) (n e : Nat) : (s.count n e).link = s.link := rfl
@[simp] theorem State.count_obs (s : State) (n e : Nat) : (s.count n e).obs = s.obs := rfl
@[simp] theorem State.count_pkg (s : State) (n e : Nat) : (s.count n e).pkg = s.pkg := rfl
@[simp] theorem State.count_clk (s : State) (n e : Nat) : (s.count n e).clk = s.clk := rfl
@[simp] theorem State.count_seq (s : State) (n e : Nat) : (s.count n e).seq = s.seq := rfl
@[simp] theorem State.count_free (s : State) (n e : Nat) : (s.count n e).free = s.free := rfl
@[simp] theorem State.count_cur (s : State) (n e : Nat) : (s.count n e).cur = s.cur := rfl
@[simp] theorem State.count_turn (s : State) (n e : Nat) : (s.count n e).turn = s.turn := rfl
@[simp] theorem State.count_inputs (s : State) (n e : Nat) : (s.count n e).inputs = s.inputs := rfl
@[simp] theorem State.count_out (s : State) (n e : Nat) : (s.count n e).out = s.out := rfl

/-! ### `bumpFree` -/

@[simp] theorem State.bumpFree_sites (s : State) : (s.bumpFree).sites = s.sites := rfl
@[simp] theorem State.bumpFree_mem (s : State) : (s.bumpFree).mem = s.mem := rfl
@[simp] theorem State.bumpFree_mesh (s : State) : (s.bumpFree).mesh = s.mesh := rfl
@[simp] theorem State.bumpFree_groupReqs (s : State) : (s.bumpFree).groupReqs = s.groupReqs := rfl
@[simp] theorem State.bumpFree_handleReqs (s : State) : (s.bumpFree).handleReqs = s.handleReqs := rfl
@[simp] theorem State.bumpFree_reqs (s : State) : (s.bumpFree).reqs = s.reqs := rfl
@[simp] theorem State.bumpFree_fences (s : State) : (s.bumpFree).fences = s.fences := rfl
@[simp] theorem State.bumpFree_pager (s : State) : (s.bumpFree).pager = s.pager := rfl
@[simp] theorem State.bumpFree_coll (s : State) : (s.bumpFree).coll = s.coll := rfl
@[simp] theorem State.bumpFree_xp (s : State) : (s.bumpFree).xp = s.xp := rfl
@[simp] theorem State.bumpFree_rcv (s : State) : (s.bumpFree).rcv = s.rcv := rfl
@[simp] theorem State.bumpFree_link (s : State) : (s.bumpFree).link = s.link := rfl
@[simp] theorem State.bumpFree_obs (s : State) : (s.bumpFree).obs = s.obs := rfl
@[simp] theorem State.bumpFree_pkg (s : State) : (s.bumpFree).pkg = s.pkg := rfl
@[simp] theorem State.bumpFree_clk (s : State) : (s.bumpFree).clk = s.clk := rfl
@[simp] theorem State.bumpFree_seq (s : State) : (s.bumpFree).seq = s.seq := rfl
@[simp] theorem State.bumpFree_free (s : State) : (s.bumpFree).free = s.free + 1 := rfl
@[simp] theorem State.bumpFree_cur (s : State) : (s.bumpFree).cur = s.cur := rfl
@[simp] theorem State.bumpFree_turn (s : State) : (s.bumpFree).turn = s.turn := rfl
@[simp] theorem State.bumpFree_inputs (s : State) : (s.bumpFree).inputs = s.inputs := rfl
@[simp] theorem State.bumpFree_out (s : State) : (s.bumpFree).out = s.out := rfl

/-! ### `modPager` -/

@[simp] theorem State.modPager_sites (s : State) (f : PagerState → PagerState) : (s.modPager f).sites = s.sites := rfl
@[simp] theorem State.modPager_mem (s : State) (f : PagerState → PagerState) : (s.modPager f).mem = s.mem := rfl
@[simp] theorem State.modPager_mesh (s : State) (f : PagerState → PagerState) : (s.modPager f).mesh = s.mesh := rfl
@[simp] theorem State.modPager_groupReqs (s : State) (f : PagerState → PagerState) : (s.modPager f).groupReqs = s.groupReqs := rfl
@[simp] theorem State.modPager_handleReqs (s : State) (f : PagerState → PagerState) : (s.modPager f).handleReqs = s.handleReqs := rfl
@[simp] theorem State.modPager_reqs (s : State) (f : PagerState → PagerState) : (s.modPager f).reqs = s.reqs := rfl
@[simp] theorem State.modPager_fences (s : State) (f : PagerState → PagerState) : (s.modPager f).fences = s.fences := rfl
@[simp] theorem State.modPager_pager (s : State) (f : PagerState → PagerState) : (s.modPager f).pager = f s.pager := rfl
@[simp] theorem State.modPager_coll (s : State) (f : PagerState → PagerState) : (s.modPager f).coll = s.coll := rfl
@[simp] theorem State.modPager_xp (s : State) (f : PagerState → PagerState) : (s.modPager f).xp = s.xp := rfl
@[simp] theorem State.modPager_rcv (s : State) (f : PagerState → PagerState) : (s.modPager f).rcv = s.rcv := rfl
@[simp] theorem State.modPager_link (s : State) (f : PagerState → PagerState) : (s.modPager f).link = s.link := rfl
@[simp] theorem State.modPager_obs (s : State) (f : PagerState → PagerState) : (s.modPager f).obs = s.obs := rfl
@[simp] theorem State.modPager_pkg (s : State) (f : PagerState → PagerState) : (s.modPager f).pkg = s.pkg := rfl
@[simp] theorem State.modPager_clk (s : State) (f : PagerState → PagerState) : (s.modPager f).clk = s.clk := rfl
@[simp] theorem State.modPager_seq (s : State) (f : PagerState → PagerState) : (s.modPager f).seq = s.seq := rfl
@[simp] theorem State.modPager_free (s : State) (f : PagerState → PagerState) : (s.modPager f).free = s.free := rfl
@[simp] theorem State.modPager_cur (s : State) (f : PagerState → PagerState) : (s.modPager f).cur = s.cur := rfl
@[simp] theorem State.modPager_turn (s : State) (f : PagerState → PagerState) : (s.modPager f).turn = s.turn := rfl
@[simp] theorem State.modPager_inputs (s : State) (f : PagerState → PagerState) : (s.modPager f).inputs = s.inputs := rfl
@[simp] theorem State.modPager_out (s : State) (f : PagerState → PagerState) : (s.modPager f).out = s.out := rfl

/-! ### `setLaunch` -/

@[simp] theorem State.setLaunch_sites (s : State) (h : Nat) (l : Launch) : (s.setLaunch h l).sites = s.sites := rfl
@[simp] theorem State.setLaunch_mem (s : State) (h : Nat) (l : Launch) : (s.setLaunch h l).mem = s.mem := rfl
@[simp] theorem State.setLaunch_mesh (s : State) (h : Nat) (l : Launch) : (s.setLaunch h l).mesh = s.mesh := rfl
@[simp] theorem State.setLaunch_groupReqs (s : State) (h : Nat) (l : Launch) : (s.setLaunch h l).groupReqs = s.groupReqs := rfl
@[simp] theorem State.setLaunch_handleReqs (s : State) (h : Nat) (l : Launch) : (s.setLaunch h l).handleReqs = s.handleReqs := rfl
@[simp] theorem State.setLaunch_reqs (s : State) (h : Nat) (l : Launch) : (s.setLaunch h l).reqs = s.reqs := rfl
@[simp] theorem State.setLaunch_fences (s : State) (h : Nat) (l : Launch) : (s.setLaunch h l).fences = s.fences := rfl
@[simp] theorem State.setLaunch_coll (s : State) (h : Nat) (l : Launch) : (s.setLaunch h l).coll = s.coll := rfl
@[simp] theorem State.setLaunch_xp (s : State) (h : Nat) (l : Launch) : (s.setLaunch h l).xp = s.xp := rfl
@[simp] theorem State.setLaunch_rcv (s : State) (h : Nat) (l : Launch) : (s.setLaunch h l).rcv = s.rcv := rfl
@[simp] theorem State.setLaunch_link (s : State) (h : Nat) (l : Launch) : (s.setLaunch h l).link = s.link := rfl
@[simp] theorem State.setLaunch_obs (s : State) (h : Nat) (l : Launch) : (s.setLaunch h l).obs = s.obs := rfl
@[simp] theorem State.setLaunch_pkg (s : State) (h : Nat) (l : Launch) : (s.setLaunch h l).pkg = s.pkg := rfl
@[simp] theorem State.setLaunch_clk (s : State) (h : Nat) (l : Launch) : (s.setLaunch h l).clk = s.clk := rfl
@[simp] theorem State.setLaunch_seq (s : State) (h : Nat) (l : Launch) : (s.setLaunch h l).seq = s.seq := rfl
@[simp] theorem State.setLaunch_free (s : State) (h : Nat) (l : Launch) : (s.setLaunch h l).free = s.free := rfl
@[simp] theorem State.setLaunch_cur (s : State) (h : Nat) (l : Launch) : (s.setLaunch h l).cur = s.cur := rfl
@[simp] theorem State.setLaunch_turn (s : State) (h : Nat) (l : Launch) : (s.setLaunch h l).turn = s.turn := rfl
@[simp] theorem State.setLaunch_inputs (s : State) (h : Nat) (l : Launch) : (s.setLaunch h l).inputs = s.inputs := rfl
@[simp] theorem State.setLaunch_out (s : State) (h : Nat) (l : Launch) : (s.setLaunch h l).out = s.out := rfl

/-! ### `modColl` -/

@[simp] theorem State.modColl_sites (s : State) (f : CollState → CollState) : (s.modColl f).sites = s.sites := rfl
@[simp] theorem State.modColl_mem (s : State) (f : CollState → CollState) : (s.modColl f).mem = s.mem := rfl
@[simp] theorem State.modColl_mesh (s : State) (f : CollState → CollState) : (s.modColl f).mesh = s.mesh := rfl
@[simp] theorem State.modColl_groupReqs (s : State) (f : CollState → CollState) : (s.modColl f).groupReqs = s.groupReqs := rfl
@[simp] theorem State.modColl_handleReqs (s : State) (f : CollState → CollState) : (s.modColl f).handleReqs = s.handleReqs := rfl
@[simp] theorem State.modColl_reqs (s : State) (f : CollState → CollState) : (s.modColl f).reqs = s.reqs := rfl
@[simp] theorem State.modColl_fences (s : State) (f : CollState → CollState) : (s.modColl f).fences = s.fences := rfl
@[simp] theorem State.modColl_pager (s : State) (f : CollState → CollState) : (s.modColl f).pager = s.pager := rfl
@[simp] theorem State.modColl_coll (s : State) (f : CollState → CollState) : (s.modColl f).coll = f s.coll := rfl
@[simp] theorem State.modColl_xp (s : State) (f : CollState → CollState) : (s.modColl f).xp = s.xp := rfl
@[simp] theorem State.modColl_rcv (s : State) (f : CollState → CollState) : (s.modColl f).rcv = s.rcv := rfl
@[simp] theorem State.modColl_link (s : State) (f : CollState → CollState) : (s.modColl f).link = s.link := rfl
@[simp] theorem State.modColl_obs (s : State) (f : CollState → CollState) : (s.modColl f).obs = s.obs := rfl
@[simp] theorem State.modColl_pkg (s : State) (f : CollState → CollState) : (s.modColl f).pkg = s.pkg := rfl
@[simp] theorem State.modColl_clk (s : State) (f : CollState → CollState) : (s.modColl f).clk = s.clk := rfl
@[simp] theorem State.modColl_seq (s : State) (f : CollState → CollState) : (s.modColl f).seq = s.seq := rfl
@[simp] theorem State.modColl_free (s : State) (f : CollState → CollState) : (s.modColl f).free = s.free := rfl
@[simp] theorem State.modColl_cur (s : State) (f : CollState → CollState) : (s.modColl f).cur = s.cur := rfl
@[simp] theorem State.modColl_turn (s : State) (f : CollState → CollState) : (s.modColl f).turn = s.turn := rfl
@[simp] theorem State.modColl_inputs (s : State) (f : CollState → CollState) : (s.modColl f).inputs = s.inputs := rfl
@[simp] theorem State.modColl_out (s : State) (f : CollState → CollState) : (s.modColl f).out = s.out := rfl

/-! ### `modXp` -/

@[simp] theorem State.modXp_sites (s : State) (f : XpState → XpState) : (s.modXp f).sites = s.sites := rfl
@[simp] theorem State.modXp_mem (s : State) (f : XpState → XpState) : (s.modXp f).mem = s.mem := rfl
@[simp] theorem State.modXp_mesh (s : State) (f : XpState → XpState) : (s.modXp f).mesh = s.mesh := rfl
@[simp] theorem State.modXp_groupReqs (s : State) (f : XpState → XpState) : (s.modXp f).groupReqs = s.groupReqs := rfl
@[simp] theorem State.modXp_handleReqs (s : State) (f : XpState → XpState) : (s.modXp f).handleReqs = s.handleReqs := rfl
@[simp] theorem State.modXp_reqs (s : State) (f : XpState → XpState) : (s.modXp f).reqs = s.reqs := rfl
@[simp] theorem State.modXp_fences (s : State) (f : XpState → XpState) : (s.modXp f).fences = s.fences := rfl
@[simp] theorem State.modXp_pager (s : State) (f : XpState → XpState) : (s.modXp f).pager = s.pager := rfl
@[simp] theorem State.modXp_coll (s : State) (f : XpState → XpState) : (s.modXp f).coll = s.coll := rfl
@[simp] theorem State.modXp_xp (s : State) (f : XpState → XpState) : (s.modXp f).xp = f s.xp := rfl
@[simp] theorem State.modXp_rcv (s : State) (f : XpState → XpState) : (s.modXp f).rcv = s.rcv := rfl
@[simp] theorem State.modXp_link (s : State) (f : XpState → XpState) : (s.modXp f).link = s.link := rfl
@[simp] theorem State.modXp_obs (s : State) (f : XpState → XpState) : (s.modXp f).obs = s.obs := rfl
@[simp] theorem State.modXp_pkg (s : State) (f : XpState → XpState) : (s.modXp f).pkg = s.pkg := rfl
@[simp] theorem State.modXp_clk (s : State) (f : XpState → XpState) : (s.modXp f).clk = s.clk := rfl
@[simp] theorem State.modXp_seq (s : State) (f : XpState → XpState) : (s.modXp f).seq = s.seq := rfl
@[simp] theorem State.modXp_free (s : State) (f : XpState → XpState) : (s.modXp f).free = s.free := rfl
@[simp] theorem State.modXp_cur (s : State) (f : XpState → XpState) : (s.modXp f).cur = s.cur := rfl
@[simp] theorem State.modXp_turn (s : State) (f : XpState → XpState) : (s.modXp f).turn = s.turn := rfl
@[simp] theorem State.modXp_inputs (s : State) (f : XpState → XpState) : (s.modXp f).inputs = s.inputs := rfl
@[simp] theorem State.modXp_out (s : State) (f : XpState → XpState) : (s.modXp f).out = s.out := rfl

/-! ### `modRep` -/

@[simp] theorem State.modRep_sites (s : State) (k : Nat) (f : Replica → Replica) : (s.modRep k f).sites = s.sites := by unfold State.modRep; split <;> rfl
@[simp] theorem State.modRep_mem (s : State) (k : Nat) (f : Replica → Replica) : (s.modRep k f).mem = s.mem := by unfold State.modRep; split <;> rfl
@[simp] theorem State.modRep_mesh (s : State) (k : Nat) (f : Replica → Replica) : (s.modRep k f).mesh = s.mesh := by unfold State.modRep; split <;> rfl
@[simp] theorem State.modRep_groupReqs (s : State) (k : Nat) (f : Replica → Replica) : (s.modRep k f).groupReqs = s.groupReqs := by unfold State.modRep; split <;> rfl
@[simp] theorem State.modRep_handleReqs (s : State) (k : Nat) (f : Replica → Replica) : (s.modRep k f).handleReqs = s.handleReqs := by unfold State.modRep; split <;> rfl
@[simp] theorem State.modRep_reqs (s : State) (k : Nat) (f : Replica → Replica) : (s.modRep k f).reqs = s.reqs := by unfold State.modRep; split <;> rfl
@[simp] theorem State.modRep_fences (s : State) (k : Nat) (f : Replica → Replica) : (s.modRep k f).fences = s.fences := by unfold State.modRep; split <;> rfl
@[simp] theorem State.modRep_pager (s : State) (k : Nat) (f : Replica → Replica) : (s.modRep k f).pager = s.pager := by unfold State.modRep; split <;> rfl
@[simp] theorem State.modRep_coll (s : State) (k : Nat) (f : Replica → Replica) : (s.modRep k f).coll = s.coll := by unfold State.modRep; split <;> rfl
@[simp] theorem State.modRep_rcv (s : State) (k : Nat) (f : Replica → Replica) : (s.modRep k f).rcv = s.rcv := by unfold State.modRep; split <;> rfl
@[simp] theorem State.modRep_link (s : State) (k : Nat) (f : Replica → Replica) : (s.modRep k f).link = s.link := by unfold State.modRep; split <;> rfl
@[simp] theorem State.modRep_obs (s : State) (k : Nat) (f : Replica → Replica) : (s.modRep k f).obs = s.obs := by unfold State.modRep; split <;> rfl
@[simp] theorem State.modRep_pkg (s : State) (k : Nat) (f : Replica → Replica) : (s.modRep k f).pkg = s.pkg := by unfold State.modRep; split <;> rfl
@[simp] theorem State.modRep_clk (s : State) (k : Nat) (f : Replica → Replica) : (s.modRep k f).clk = s.clk := by unfold State.modRep; split <;> rfl
@[simp] theorem State.modRep_seq (s : State) (k : Nat) (f : Replica → Replica) : (s.modRep k f).seq = s.seq := by unfold State.modRep; split <;> rfl
@[simp] theorem State.modRep_free (s : State) (k : Nat) (f : Replica → Replica) : (s.modRep k f).free = s.free := by unfold State.modRep; split <;> rfl
@[simp] theorem State.modRep_cur (s : State) (k : Nat) (f : Replica → Replica) : (s.modRep k f).cur = s.cur := by unfold State.modRep; split <;> rfl
@[simp] theorem State.modRep_turn (s : State) (k : Nat) (f : Replica → Replica) : (s.modRep k f).turn = s.turn := by unfold State.modRep; split <;> rfl
@[simp] theorem State.modRep_inputs (s : State) (k : Nat) (f : Replica → Replica) : (s.modRep k f).inputs = s.inputs := by unfold State.modRep; split <;> rfl
@[simp] theorem State.modRep_out (s : State) (k : Nat) (f : Replica → Replica) : (s.modRep k f).out = s.out := by unfold State.modRep; split <;> rfl

/-! ### `modRcv` -/

@[simp] theorem State.modRcv_sites (s : State) (f : RecState → RecState) : (s.modRcv f).sites = s.sites := rfl
@[simp] theorem State.modRcv_mem (s : State) (f : RecState → RecState) : (s.modRcv f).mem = s.mem := rfl
@[simp] theorem State.modRcv_mesh (s : State) (f : RecState → RecState) : (s.modRcv f).mesh = s.mesh := rfl
@[simp] theorem State.modRcv_groupReqs (s : State) (f : RecState → RecState) : (s.modRcv f).groupReqs = s.groupReqs := rfl
@[simp] theorem State.modRcv_handleReqs (s : State) (f : RecState → RecState) : (s.modRcv f).handleReqs = s.handleReqs := rfl
@[simp] theorem State.modRcv_reqs (s : State) (f : RecState → RecState) : (s.modRcv f).reqs = s.reqs := rfl
@[simp] theorem State.modRcv_fences (s : State) (f : RecState → RecState) : (s.modRcv f).fences = s.fences := rfl
@[simp] theorem State.modRcv_pager (s : State) (f : RecState → RecState) : (s.modRcv f).pager = s.pager := rfl
@[simp] theorem State.modRcv_coll (s : State) (f : RecState → RecState) : (s.modRcv f).coll = s.coll := rfl
@[simp] theorem State.modRcv_xp (s : State) (f : RecState → RecState) : (s.modRcv f).xp = s.xp := rfl
@[simp] theorem State.modRcv_rcv (s : State) (f : RecState → RecState) : (s.modRcv f).rcv = f s.rcv := rfl
@[simp] theorem State.modRcv_link (s : State) (f : RecState → RecState) : (s.modRcv f).link = s.link := rfl
@[simp] theorem State.modRcv_obs (s : State) (f : RecState → RecState) : (s.modRcv f).obs = s.obs := rfl
@[simp] theorem State.modRcv_pkg (s : State) (f : RecState → RecState) : (s.modRcv f).pkg = s.pkg := rfl
@[simp] theorem State.modRcv_clk (s : State) (f : RecState → RecState) : (s.modRcv f).clk = s.clk := rfl
@[simp] theorem State.modRcv_seq (s : State) (f : RecState → RecState) : (s.modRcv f).seq = s.seq := rfl
@[simp] theorem State.modRcv_free (s : State) (f : RecState → RecState) : (s.modRcv f).free = s.free := rfl
@[simp] theorem State.modRcv_cur (s : State) (f : RecState → RecState) : (s.modRcv f).cur = s.cur := rfl
@[simp] theorem State.modRcv_turn (s : State) (f : RecState → RecState) : (s.modRcv f).turn = s.turn := rfl
@[simp] theorem State.modRcv_inputs (s : State) (f : RecState → RecState) : (s.modRcv f).inputs = s.inputs := rfl
@[simp] theorem State.modRcv_out (s : State) (f : RecState → RecState) : (s.modRcv f).out = s.out := rfl

/-! ### `modLink` -/

@[simp] theorem State.modLink_sites (s : State) (f : LinkState → LinkState) : (s.modLink f).sites = s.sites := rfl
@[simp] theorem State.modLink_mem (s : State) (f : LinkState → LinkState) : (s.modLink f).mem = s.mem := rfl
@[simp] theorem State.modLink_mesh (s : State) (f : LinkState → LinkState) : (s.modLink f).mesh = s.mesh := rfl
@[simp] theorem State.modLink_groupReqs (s : State) (f : LinkState → LinkState) : (s.modLink f).groupReqs = s.groupReqs := rfl
@[simp] theorem State.modLink_handleReqs (s : State) (f : LinkState → LinkState) : (s.modLink f).handleReqs = s.handleReqs := rfl
@[simp] theorem State.modLink_reqs (s : State) (f : LinkState → LinkState) : (s.modLink f).reqs = s.reqs := rfl
@[simp] theorem State.modLink_fences (s : State) (f : LinkState → LinkState) : (s.modLink f).fences = s.fences := rfl
@[simp] theorem State.modLink_pager (s : State) (f : LinkState → LinkState) : (s.modLink f).pager = s.pager := rfl
@[simp] theorem State.modLink_coll (s : State) (f : LinkState → LinkState) : (s.modLink f).coll = s.coll := rfl
@[simp] theorem State.modLink_xp (s : State) (f : LinkState → LinkState) : (s.modLink f).xp = s.xp := rfl
@[simp] theorem State.modLink_rcv (s : State) (f : LinkState → LinkState) : (s.modLink f).rcv = s.rcv := rfl
@[simp] theorem State.modLink_link (s : State) (f : LinkState → LinkState) : (s.modLink f).link = f s.link := rfl
@[simp] theorem State.modLink_obs (s : State) (f : LinkState → LinkState) : (s.modLink f).obs = s.obs := rfl
@[simp] theorem State.modLink_pkg (s : State) (f : LinkState → LinkState) : (s.modLink f).pkg = s.pkg := rfl
@[simp] theorem State.modLink_clk (s : State) (f : LinkState → LinkState) : (s.modLink f).clk = s.clk := rfl
@[simp] theorem State.modLink_seq (s : State) (f : LinkState → LinkState) : (s.modLink f).seq = s.seq := rfl
@[simp] theorem State.modLink_free (s : State) (f : LinkState → LinkState) : (s.modLink f).free = s.free := rfl
@[simp] theorem State.modLink_cur (s : State) (f : LinkState → LinkState) : (s.modLink f).cur = s.cur := rfl
@[simp] theorem State.modLink_turn (s : State) (f : LinkState → LinkState) : (s.modLink f).turn = s.turn := rfl
@[simp] theorem State.modLink_inputs (s : State) (f : LinkState → LinkState) : (s.modLink f).inputs = s.inputs := rfl
@[simp] theorem State.modLink_out (s : State) (f : LinkState → LinkState) : (s.modLink f).out = s.out := rfl

/-! ### `modObs` -/

@[simp] theorem State.modObs_sites (s : State) (f : ObsState → ObsState) : (s.modObs f).sites = s.sites := rfl
@[simp] theorem State.modObs_mem (s : State) (f : ObsState → ObsState) : (s.modObs f).mem = s.mem := rfl
@[simp] theorem State.modObs_mesh (s : State) (f : ObsState → ObsState) : (s.modObs f).mesh = s.mesh := rfl
@[simp] theorem State.modObs_groupReqs (s : State) (f : ObsState → ObsState) : (s.modObs f).groupReqs = s.groupReqs := rfl
@[simp] theorem State.modObs_handleReqs (s : State) (f : ObsState → ObsState) : (s.modObs f).handleReqs = s.handleReqs := rfl
@[simp] theorem State.modObs_reqs (s : State) (f : ObsState → ObsState) : (s.modObs f).reqs = s.reqs := rfl
@[simp] theorem State.modObs_fences (s : State) (f : ObsState → ObsState) : (s.modObs f).fences = s.fences := rfl
@[simp] theorem State.modObs_pager (s : State) (f : ObsState → ObsState) : (s.modObs f).pager = s.pager := rfl
@[simp] theorem State.modObs_coll (s : State) (f : ObsState → ObsState) : (s.modObs f).coll = s.coll := rfl
@[simp] theorem State.modObs_xp (s : State) (f : ObsState → ObsState) : (s.modObs f).xp = s.xp := rfl
@[simp] theorem State.modObs_rcv (s : State) (f : ObsState → ObsState) : (s.modObs f).rcv = s.rcv := rfl
@[simp] theorem State.modObs_link (s : State) (f : ObsState → ObsState) : (s.modObs f).link = s.link := rfl
@[simp] theorem State.modObs_obs (s : State) (f : ObsState → ObsState) : (s.modObs f).obs = f s.obs := rfl
@[simp] theorem State.modObs_pkg (s : State) (f : ObsState → ObsState) : (s.modObs f).pkg = s.pkg := rfl
@[simp] theorem State.modObs_clk (s : State) (f : ObsState → ObsState) : (s.modObs f).clk = s.clk := rfl
@[simp] theorem State.modObs_seq (s : State) (f : ObsState → ObsState) : (s.modObs f).seq = s.seq := rfl
@[simp] theorem State.modObs_free (s : State) (f : ObsState → ObsState) : (s.modObs f).free = s.free := rfl
@[simp] theorem State.modObs_cur (s : State) (f : ObsState → ObsState) : (s.modObs f).cur = s.cur := rfl
@[simp] theorem State.modObs_turn (s : State) (f : ObsState → ObsState) : (s.modObs f).turn = s.turn := rfl
@[simp] theorem State.modObs_inputs (s : State) (f : ObsState → ObsState) : (s.modObs f).inputs = s.inputs := rfl
@[simp] theorem State.modObs_out (s : State) (f : ObsState → ObsState) : (s.modObs f).out = s.out := rfl

/-! ### `modPkg` -/

@[simp] theorem State.modPkg_sites (s : State) (f : PkgState → PkgState) : (s.modPkg f).sites = s.sites := rfl
@[simp] theorem State.modPkg_mem (s : State) (f : PkgState → PkgState) : (s.modPkg f).mem = s.mem := rfl
@[simp] theorem State.modPkg_mesh (s : State) (f : PkgState → PkgState) : (s.modPkg f).mesh = s.mesh := rfl
@[simp] theorem State.modPkg_groupReqs (s : State) (f : PkgState → PkgState) : (s.modPkg f).groupReqs = s.groupReqs := rfl
@[simp] theorem State.modPkg_handleReqs (s : State) (f : PkgState → PkgState) : (s.modPkg f).handleReqs = s.handleReqs := rfl
@[simp] theorem State.modPkg_reqs (s : State) (f : PkgState → PkgState) : (s.modPkg f).reqs = s.reqs := rfl
@[simp] theorem State.modPkg_fences (s : State) (f : PkgState → PkgState) : (s.modPkg f).fences = s.fences := rfl
@[simp] theorem State.modPkg_pager (s : State) (f : PkgState → PkgState) : (s.modPkg f).pager = s.pager := rfl
@[simp] theorem State.modPkg_coll (s : State) (f : PkgState → PkgState) : (s.modPkg f).coll = s.coll := rfl
@[simp] theorem State.modPkg_xp (s : State) (f : PkgState → PkgState) : (s.modPkg f).xp = s.xp := rfl
@[simp] theorem State.modPkg_rcv (s : State) (f : PkgState → PkgState) : (s.modPkg f).rcv = s.rcv := rfl
@[simp] theorem State.modPkg_link (s : State) (f : PkgState → PkgState) : (s.modPkg f).link = s.link := rfl
@[simp] theorem State.modPkg_obs (s : State) (f : PkgState → PkgState) : (s.modPkg f).obs = s.obs := rfl
@[simp] theorem State.modPkg_pkg (s : State) (f : PkgState → PkgState) : (s.modPkg f).pkg = f s.pkg := rfl
@[simp] theorem State.modPkg_clk (s : State) (f : PkgState → PkgState) : (s.modPkg f).clk = s.clk := rfl
@[simp] theorem State.modPkg_seq (s : State) (f : PkgState → PkgState) : (s.modPkg f).seq = s.seq := rfl
@[simp] theorem State.modPkg_free (s : State) (f : PkgState → PkgState) : (s.modPkg f).free = s.free := rfl
@[simp] theorem State.modPkg_cur (s : State) (f : PkgState → PkgState) : (s.modPkg f).cur = s.cur := rfl
@[simp] theorem State.modPkg_turn (s : State) (f : PkgState → PkgState) : (s.modPkg f).turn = s.turn := rfl
@[simp] theorem State.modPkg_inputs (s : State) (f : PkgState → PkgState) : (s.modPkg f).inputs = s.inputs := rfl
@[simp] theorem State.modPkg_out (s : State) (f : PkgState → PkgState) : (s.modPkg f).out = s.out := rfl

/-! ### `dropReq` -/

@[simp] theorem State.dropReq_sites (s : State) (id : Nat) : (s.dropReq id).sites = s.sites := rfl
@[simp] theorem State.dropReq_mem (s : State) (id : Nat) : (s.dropReq id).mem = s.mem := rfl
@[simp] theorem State.dropReq_mesh (s : State) (id : Nat) : (s.dropReq id).mesh = s.mesh := rfl
@[simp] theorem State.dropReq_groupReqs (s : State) (id : Nat) : (s.dropReq id).groupReqs = s.groupReqs := rfl
@[simp] theorem State.dropReq_handleReqs (s : State) (id : Nat) : (s.dropReq id).handleReqs = s.handleReqs := rfl
@[simp] theorem State.dropReq_fences (s : State) (id : Nat) : (s.dropReq id).fences = s.fences := rfl
@[simp] theorem State.dropReq_pager (s : State) (id : Nat) : (s.dropReq id).pager = s.pager := rfl
@[simp] theorem State.dropReq_coll (s : State) (id : Nat) : (s.dropReq id).coll = s.coll := rfl
@[simp] theorem State.dropReq_xp (s : State) (id : Nat) : (s.dropReq id).xp = s.xp := rfl
@[simp] theorem State.dropReq_rcv (s : State) (id : Nat) : (s.dropReq id).rcv = s.rcv := rfl
@[simp] theorem State.dropReq_link (s : State) (id : Nat) : (s.dropReq id).link = s.link := rfl
@[simp] theorem State.dropReq_obs (s : State) (id : Nat) : (s.dropReq id).obs = s.obs := rfl
@[simp] theorem State.dropReq_pkg (s : State) (id : Nat) : (s.dropReq id).pkg = s.pkg := rfl
@[simp] theorem State.dropReq_clk (s : State) (id : Nat) : (s.dropReq id).clk = s.clk := rfl
@[simp] theorem State.dropReq_seq (s : State) (id : Nat) : (s.dropReq id).seq = s.seq := rfl
@[simp] theorem State.dropReq_free (s : State) (id : Nat) : (s.dropReq id).free = s.free := rfl
@[simp] theorem State.dropReq_cur (s : State) (id : Nat) : (s.dropReq id).cur = s.cur := rfl
@[simp] theorem State.dropReq_turn (s : State) (id : Nat) : (s.dropReq id).turn = s.turn := rfl
@[simp] theorem State.dropReq_inputs (s : State) (id : Nat) : (s.dropReq id).inputs = s.inputs := rfl
@[simp] theorem State.dropReq_out (s : State) (id : Nat) : (s.dropReq id).out = s.out := rfl

/-! ### `setReq` -/

@[simp] theorem State.setReq_sites (s : State) (r : MemReq) : (s.setReq r).sites = s.sites := rfl
@[simp] theorem State.setReq_mem (s : State) (r : MemReq) : (s.setReq r).mem = s.mem := rfl
@[simp] theorem State.setReq_mesh (s : State) (r : MemReq) : (s.setReq r).mesh = s.mesh := rfl
@[simp] theorem State.setReq_groupReqs (s : State) (r : MemReq) : (s.setReq r).groupReqs = s.groupReqs := rfl
@[simp] theorem State.setReq_handleReqs (s : State) (r : MemReq) : (s.setReq r).handleReqs = s.handleReqs := rfl
@[simp] theorem State.setReq_fences (s : State) (r : MemReq) : (s.setReq r).fences = s.fences := rfl
@[simp] theorem State.setReq_pager (s : State) (r : MemReq) : (s.setReq r).pager = s.pager := rfl
@[simp] theorem State.setReq_coll (s : State) (r : MemReq) : (s.setReq r).coll = s.coll := rfl
@[simp] theorem State.setReq_xp (s : State) (r : MemReq) : (s.setReq r).xp = s.xp := rfl
@[simp] theorem State.setReq_rcv (s : State) (r : MemReq) : (s.setReq r).rcv = s.rcv := rfl
@[simp] theorem State.setReq_link (s : State) (r : MemReq) : (s.setReq r).link = s.link := rfl
@[simp] theorem State.setReq_obs (s : State) (r : MemReq) : (s.setReq r).obs = s.obs := rfl
@[simp] theorem State.setReq_pkg (s : State) (r : MemReq) : (s.setReq r).pkg = s.pkg := rfl
@[simp] theorem State.setReq_clk (s : State) (r : MemReq) : (s.setReq r).clk = s.clk := rfl
@[simp] theorem State.setReq_seq (s : State) (r : MemReq) : (s.setReq r).seq = s.seq := rfl
@[simp] theorem State.setReq_free (s : State) (r : MemReq) : (s.setReq r).free = s.free := rfl
@[simp] theorem State.setReq_cur (s : State) (r : MemReq) : (s.setReq r).cur = s.cur := rfl
@[simp] theorem State.setReq_turn (s : State) (r : MemReq) : (s.setReq r).turn = s.turn := rfl
@[simp] theorem State.setReq_inputs (s : State) (r : MemReq) : (s.setReq r).inputs = s.inputs := rfl
@[simp] theorem State.setReq_out (s : State) (r : MemReq) : (s.setReq r).out = s.out := rfl

/-! ### `setFslot` -/

@[simp] theorem State.setFslot_sites (s : State) (n slot : Nat) (v : Slot) : (s.setFslot n slot v).sites = s.sites := rfl
@[simp] theorem State.setFslot_mesh (s : State) (n slot : Nat) (v : Slot) : (s.setFslot n slot v).mesh = s.mesh := rfl
@[simp] theorem State.setFslot_groupReqs (s : State) (n slot : Nat) (v : Slot) : (s.setFslot n slot v).groupReqs = s.groupReqs := rfl
@[simp] theorem State.setFslot_handleReqs (s : State) (n slot : Nat) (v : Slot) : (s.setFslot n slot v).handleReqs = s.handleReqs := rfl
@[simp] theorem State.setFslot_reqs (s : State) (n slot : Nat) (v : Slot) : (s.setFslot n slot v).reqs = s.reqs := rfl
@[simp] theorem State.setFslot_fences (s : State) (n slot : Nat) (v : Slot) : (s.setFslot n slot v).fences = s.fences := rfl
@[simp] theorem State.setFslot_pager (s : State) (n slot : Nat) (v : Slot) : (s.setFslot n slot v).pager = s.pager := rfl
@[simp] theorem State.setFslot_coll (s : State) (n slot : Nat) (v : Slot) : (s.setFslot n slot v).coll = s.coll := rfl
@[simp] theorem State.setFslot_xp (s : State) (n slot : Nat) (v : Slot) : (s.setFslot n slot v).xp = s.xp := rfl
@[simp] theorem State.setFslot_rcv (s : State) (n slot : Nat) (v : Slot) : (s.setFslot n slot v).rcv = s.rcv := rfl
@[simp] theorem State.setFslot_link (s : State) (n slot : Nat) (v : Slot) : (s.setFslot n slot v).link = s.link := rfl
@[simp] theorem State.setFslot_obs (s : State) (n slot : Nat) (v : Slot) : (s.setFslot n slot v).obs = s.obs := rfl
@[simp] theorem State.setFslot_pkg (s : State) (n slot : Nat) (v : Slot) : (s.setFslot n slot v).pkg = s.pkg := rfl
@[simp] theorem State.setFslot_clk (s : State) (n slot : Nat) (v : Slot) : (s.setFslot n slot v).clk = s.clk := rfl
@[simp] theorem State.setFslot_seq (s : State) (n slot : Nat) (v : Slot) : (s.setFslot n slot v).seq = s.seq := rfl
@[simp] theorem State.setFslot_free (s : State) (n slot : Nat) (v : Slot) : (s.setFslot n slot v).free = s.free := rfl
@[simp] theorem State.setFslot_cur (s : State) (n slot : Nat) (v : Slot) : (s.setFslot n slot v).cur = s.cur := rfl
@[simp] theorem State.setFslot_turn (s : State) (n slot : Nat) (v : Slot) : (s.setFslot n slot v).turn = s.turn := rfl
@[simp] theorem State.setFslot_inputs (s : State) (n slot : Nat) (v : Slot) : (s.setFslot n slot v).inputs = s.inputs := rfl
@[simp] theorem State.setFslot_out (s : State) (n slot : Nat) (v : Slot) : (s.setFslot n slot v).out = s.out := rfl

end Sys2Proof.Machine
end

