-- ==== Sys2Proof/Laws/Tables.lean ====
section
/-! SUPPORT. Reading a table after it is written, and the order of its keys; what a site and its activations read after an update. -/
namespace Sys2Proof.Machine

theorem Tbl.get?_set_same {α : Type} (t : Tbl α) (k : Nat) (v : α) : Tbl.get? (Tbl.set t k v) k = some v := by
  induction t with
  | nil => simp [Tbl.set, Tbl.get?]
  | cons p r ih =>
    obtain ⟨i, w⟩ := p
    simp only [Tbl.set]
    split
    · simp [Tbl.get?]
    · split
      · simp [Tbl.get?]
      · rename_i h1 h2
        simp [Tbl.get?, Ne.symm h2, ih]

theorem Tbl.get?_set_ne {α : Type} (t : Tbl α) (k j : Nat) (v : α) (h : j ≠ k) : Tbl.get? (Tbl.set t k v) j = Tbl.get? t j := by
  induction t with
  | nil => simp [Tbl.set, Tbl.get?, Ne.symm h]
  | cons p r ih =>
    obtain ⟨i, w⟩ := p
    simp only [Tbl.set]
    split
    · simp [Tbl.get?, Ne.symm h]
    · split
      · rename_i h2
        subst h2
        simp [Tbl.get?, Ne.symm h]
      · simp [Tbl.get?, ih]

@[simp] theorem Tbl.getD_set_same {α : Type} (t : Tbl α) (k : Nat) (v d : α) : Tbl.getD (Tbl.set t k v) k d = v := by
  simp [Tbl.getD, Tbl.get?_set_same]

theorem Tbl.getD_set_ne {α : Type} (t : Tbl α) (k j : Nat) (v d : α) (h : j ≠ k) :
    Tbl.getD (Tbl.set t k v) j d = Tbl.getD t j d := by
  simp [Tbl.getD, Tbl.get?_set_ne t k j v h]

theorem Tbl.get?_erase_same {α : Type} (t : Tbl α) (k : Nat) : Tbl.get? (Tbl.erase t k) k = none := by
  induction t with
  | nil => rfl
  | cons p r ih =>
    obtain ⟨i, w⟩ := p
    by_cases h : i = k
    · simpa [Tbl.erase, h] using ih
    · simpa [Tbl.erase, h, Tbl.get?] using ih

theorem Tbl.get?_erase_ne {α : Type} (t : Tbl α) (k j : Nat) (h : j ≠ k) : Tbl.get? (Tbl.erase t k) j = Tbl.get? t j := by
  induction t with
  | nil => rfl
  | cons p r ih =>
    obtain ⟨i, w⟩ := p
    by_cases e : i = k
    · subst e
      simpa [Tbl.erase, Tbl.get?, Ne.symm h] using ih
    · by_cases f : i = j
      · subst f
        simp [Tbl.erase, e, Tbl.get?]
      · simpa [Tbl.erase, e, Tbl.get?, f] using ih

/-- Every key of `Tbl.set t k v` is `k` or a key of `t`. -/
theorem Tbl.mem_set {α : Type} (t : Tbl α) (k : Nat) (v : α) (p : Nat × α) (h : p ∈ Tbl.set t k v) : p = (k, v) ∨ p ∈ t := by
  induction t with
  | nil => simpa [Tbl.set] using h
  | cons q r ih =>
    obtain ⟨i, w⟩ := q
    simp only [Tbl.set] at h
    split at h
    · simpa using h
    · split at h
      · rcases List.mem_cons.1 h with h | h
        · exact .inl h
        · exact .inr (List.mem_cons_of_mem _ h)
      · rcases List.mem_cons.1 h with h | h
        · exact .inr (by simp [h])
        · rcases ih h with h | h
          · exact .inl h
          · exact .inr (List.mem_cons_of_mem _ h)

/-- The keys of a table rise strictly. -/
def Tbl.Rising {α : Type} (t : Tbl α) : Prop := t.Pairwise fun a b => a.1 < b.1

theorem Tbl.Rising.nil {α : Type} : Tbl.Rising ([] : Tbl α) := List.Pairwise.nil

theorem Tbl.Rising.erase {α : Type} {t : Tbl α} (h : Tbl.Rising t) (k : Nat) : Tbl.Rising (Tbl.erase t k) :=
  List.Pairwise.filter _ h

theorem Tbl.Rising.filter {α : Type} {t : Tbl α} (h : Tbl.Rising t) (f : Nat × α → Bool) : Tbl.Rising (List.filter f t) :=
  List.Pairwise.filter _ h

theorem Tbl.Rising.set {α : Type} {t : Tbl α} (h : Tbl.Rising t) (k : Nat) (v : α) : Tbl.Rising (Tbl.set t k v) := by
  induction t with
  | nil => simp [Tbl.set, Tbl.Rising]
  | cons q r ih =>
    obtain ⟨i, w⟩ := q
    have hr : Tbl.Rising r := (List.pairwise_cons.1 h).2
    have hi : ∀ b ∈ r, i < b.1 := (List.pairwise_cons.1 h).1
    simp only [Tbl.set]
    split
    · rename_i hk
      refine List.pairwise_cons.2 ⟨fun b hb => ?_, h⟩
      rcases List.mem_cons.1 hb with hb | hb
      · simpa [hb] using hk
      · exact Nat.lt_trans hk (hi b hb)
    · split
      · rename_i hk
        subst hk
        exact List.pairwise_cons.2 ⟨hi, hr⟩
      · rename_i h1 h2
        refine List.pairwise_cons.2 ⟨fun b hb => ?_, ih hr⟩
        rcases Tbl.mem_set r k v b hb with hb | hb
        · subst hb
          simp only
          omega
        · exact hi b hb

theorem Tbl.Rising.put {α : Type} [DecidableEq α] {t : Tbl α} (h : Tbl.Rising t) (k : Nat) (v d : α) : Tbl.Rising (Tbl.put t k v d) := by
  unfold Tbl.put
  split
  · exact h.erase k
  · exact h.set k v

/-! ### Sites and activations -/

@[simp] theorem State.site_setSite_same (s : State) (n : Nat) (x : Site) : (s.setSite n x).site n = x := by
  simp [State.site]

theorem State.site_setSite_ne (s : State) (n m : Nat) (x : Site) (h : m ≠ n) : (s.setSite n x).site m = s.site m := by
  simp [State.site, Tbl.getD_set_ne _ _ _ _ _ h]

@[simp] theorem State.site_modSite_same (s : State) (n : Nat) (f : Site → Site) : (s.modSite n f).site n = f (s.site n) := by
  simp [State.modSite]

theorem State.site_modSite_ne (s : State) (n m : Nat) (f : Site → Site) (h : m ≠ n) : (s.modSite n f).site m = s.site m := by
  simp [State.modSite, State.site_setSite_ne _ _ _ _ h]

@[simp] theorem State.site_modSeq_same (s : State) (n : Nat) (f : SeqUnit → SeqUnit) :
    (s.modSeq n f).site n = { s.site n with seq := f (s.site n).seq } := by
  simp [State.modSeq]

theorem State.site_modSeq_ne (s : State) (n m : Nat) (f : SeqUnit → SeqUnit) (h : m ≠ n) : (s.modSeq n f).site m = s.site m := by
  simp [State.modSeq, State.site_modSite_ne _ _ _ _ h]

@[simp] theorem State.act?_setAct_same (s : State) (n k : Nat) (a : Activation) : (s.setAct n k a).act? n k = some a := by
  simp [State.act?, State.setAct, Tbl.get?_set_same]

theorem State.act?_setAct_slot (s : State) (n k j : Nat) (a : Activation) (h : j ≠ k) :
    (s.setAct n k a).act? n j = s.act? n j := by
  simp [State.act?, State.setAct, Tbl.get?_set_ne _ _ _ _ h]

theorem State.act?_setAct_site (s : State) (n k m j : Nat) (a : Activation) (h : m ≠ n) :
    (s.setAct n k a).act? m j = s.act? m j := by
  simp [State.act?, State.setAct, State.site_modSeq_ne _ _ _ _ h]

/-- Counting an event leaves every activation as it is. -/
@[simp] theorem State.act?_count (s : State) (n e m k : Nat) : (s.count n e).act? m k = s.act? m k := by
  by_cases h : m = n
  · subst h; simp [State.act?, State.count]
  · simp [State.act?, State.count, State.site_modSite_ne _ _ _ _ h]

/-- Counting an event leaves every context slot as it is. -/
@[simp] theorem State.slot?_count (s : State) (n e m c : Nat) : (s.count n e).slot? m c = s.slot? m c := by
  by_cases h : m = n
  · subst h; simp [State.slot?, State.count]
  · simp [State.slot?, State.count, State.site_modSite_ne _ _ _ _ h]

@[simp] theorem State.page?_count (s : State) (n e m c : Nat) : (s.count n e).page? m c = s.page? m c := by
  simp [State.page?]

end Sys2Proof.Machine
end

