-- ==== Sys2Proof/Laws/Issue.lean ====
section
/-! SUPPORT. What running a word can do, said once: there is nobody to issue it, it fails R53's checks, its guard is false, its body
traps, or its body goes through. -/
namespace Sys2Proof.Machine

@[simp] theorem State.issued_cur (s : State) : s.issued.cur = s.cur := rfl
@[simp] theorem State.issued_mem (s : State) : s.issued.mem = s.mem := rfl
@[simp] theorem State.issued_act? (s : State) (n k : Nat) : s.issued.act? n k = s.act? n k := State.act?_count s _ _ n k
@[simp] theorem State.issued_slot? (s : State) (n c : Nat) : s.issued.slot? n c = s.slot? n c := State.slot?_count s _ _ n c
@[simp] theorem State.issued_page? (s : State) (n c : Nat) : s.issued.page? n c = s.page? n c := State.page?_count s _ _ n c

@[simp] theorem State.targetCount_count (s : State) (m e n c : Nat) : (s.count m e).targetCount n c = s.targetCount n c := by
  simp [State.targetCount]

@[simp] theorem State.streamCount_count (s : State) (m e n c : Nat) : (s.count m e).streamCount n c = s.streamCount n c := by
  simp [State.streamCount]

@[simp] theorem issueCheck_count (s : State) (n m e : Nat) (a : Activation) (i : Instr) (w : Word) :
    issueCheck (s.count m e) n a i w = issueCheck s n a i w := by
  simp [issueCheck, indexBad]

/-- A word that is ready passes the checks of R53. -/
theorem Ready.issueCheck {i : Instr} {s : State} {a : Activation} (h : Ready i s a) (w : Word) :
    issueCheck s s.cur.1 a i w = none := by
  have hb : indexBad s s.cur.1 a.ctx i = false := by
    unfold indexBad
    rw [Bool.or_eq_false_iff]
    refine ⟨by simpa using h.targets, ?_⟩
    cases hk : i.sdx? with
    | none => rfl
    | some k => simpa using h.streams k hk
  unfold Machine.issueCheck
  rw [hb, h.feat]
  simpa using h.mode

/-- Nobody issues the word. -/
theorem run_absent {i : Instr} {body : Body} {s : State} (h : s.act? s.cur.1 s.cur.2 = none) : run i body s = .fault .noIssuer := by
  simp [run, runWord, h]

/-- With room in the trap queue the trap is taken. -/
theorem State.trapped_room {s : State} {a : Activation} (h : s.TrapRoom a) (t : Trap) :
    s.trapped a t = s.issued.takeTrap s.cur.1 s.cur.2 a t := by
  simpa [State.trapped, trapOrWait] using fun h1 h2 => absurd h (by simp [State.TrapRoom, h1, h2])

/-- Without room the activation waits. -/
theorem State.trapped_wait {s : State} {a : Activation} (h : ¬ s.TrapRoom a) (t : Trap) : s.trapped a t = s := by
  simp only [State.TrapRoom, not_or, Bool.not_eq_true] at h
  simp [State.trapped, trapOrWait, h.1, h.2]

/-- A check of R53 fails: the trap is taken, or waits. -/
theorem run_check {i : Instr} {body : Body} {s : State} {a : Activation} {t : Trap} (h : s.act? s.cur.1 s.cur.2 = some a)
    (hc : Machine.issueCheck s s.cur.1 a i (encode i) = some t) : run i body s = .next (s.trapped a t) := by
  simp [run, runWord, h, issueCheck_count, hc, State.trapped, State.issued]

/-- The guard is false: the word does nothing. -/
theorem run_skip {i : Instr} {body : Body} {s : State} {a : Activation} (h : s.act? s.cur.1 s.cur.2 = some a)
    (hc : Machine.issueCheck s s.cur.1 a i (encode i) = none) (hg : a.guardOk i.guard = false) :
    run i body s = .next (s.issued.retire a) := by
  simp [run, runWord, h, issueCheck_count, hc, hg]
  rfl

/-- The body traps. -/
theorem run_trap {i : Instr} {body : Body} {s : State} {a : Activation} {t : Trap} (h : Ready i s a)
    (hb : body s.issued s.cur.1 a = .error t) : run i body s = .next (s.trapped a t) := by
  have hc := h.issueCheck (encode i)
  simp only [State.issued] at hb
  simp [run, runWord, h.act, issueCheck_count, hc, h.guard, hb, State.trapped, State.issued]

/-- The body goes through. -/
theorem run_body {i : Instr} {body : Body} {s t : State} {a b : Activation} (h : Ready i s a)
    (hb : body s.issued s.cur.1 a = .ok (t, b)) : run i body s = .next (t.setAct s.cur.1 s.cur.2 { b with pc := b.pc + 1 }) := by
  have hc := h.issueCheck (encode i)
  simp only [State.issued] at hb
  simp [run, runWord, h.act, issueCheck_count, hc, h.guard, hb]

/-- A body that works on the activation alone. -/
theorem run_pure {i : Instr} {f : Activation → Activation} {s : State} {a : Activation} (h : Ready i s a) :
    run i (pureBody f) s = .next (s.issued.retire (f a)) :=
  run_body h rfl

/-- Everything that running a word can do. -/
theorem run_cases (i : Instr) (body : Body) (s : State) :
    (s.act? s.cur.1 s.cur.2 = none ∧ run i body s = .fault .noIssuer) ∨
    ∃ a, s.act? s.cur.1 s.cur.2 = some a ∧
      ((∃ t, run i body s = .next (s.trapped a t)) ∨ run i body s = .next (s.issued.retire a) ∨
       ∃ t b, body s.issued s.cur.1 a = .ok (t, b) ∧
         run i body s = .next (t.setAct s.cur.1 s.cur.2 { b with pc := b.pc + 1 })) := by
  cases h : s.act? s.cur.1 s.cur.2 with
  | none => exact .inl ⟨rfl, run_absent h⟩
  | some a =>
    refine .inr ⟨a, rfl, ?_⟩
    cases hc : Machine.issueCheck s s.cur.1 a i (encode i) with
    | some t => exact .inl ⟨t, run_check h hc⟩
    | none =>
      cases hg : a.guardOk i.guard with
      | false => exact .inr (.inl (run_skip h hc hg))
      | true =>
        cases hb : body s.issued s.cur.1 a with
        | error t =>
          refine .inl ⟨t, ?_⟩
          simp only [State.issued] at hb
          simp [run, runWord, h, issueCheck_count, hc, hg, hb, State.trapped, State.issued]
        | ok r =>
          obtain ⟨t, b⟩ := r
          refine .inr (.inr ⟨t, b, rfl, ?_⟩)
          simp only [State.issued] at hb
          simp [run, runWord, h, issueCheck_count, hc, hg, hb]

/-! ### Registers of an activation (R56) -/

@[simp] theorem Activation.reg_zero (a : Activation) : a.reg 0#4 = 0 := rfl

@[simp] theorem Activation.setReg_zero (a : Activation) (v : Word) : a.setReg 0#4 v = a := rfl

theorem Activation.reg_eq (a : Activation) (r : Reg) (h : r ≠ 0#4) : a.reg r = a.regs[r.toNat] := if_neg h

theorem Activation.setReg_eq (a : Activation) (r : Reg) (v : Word) (h : r ≠ 0#4) :
    a.setReg r v = { a with regs := a.regs.set r.toNat v } := if_neg h

@[simp] theorem Activation.reg_setReg_same (a : Activation) (r : Reg) (v : Word) (h : r ≠ 0#4) : (a.setReg r v).reg r = v := by
  rw [Activation.reg_eq _ _ h, Activation.setReg_eq _ _ _ h]
  simp

theorem Activation.reg_setReg_ne (a : Activation) (r q : Reg) (v : Word) (h : q ≠ r) : (a.setReg r v).reg q = a.reg q := by
  have hn : r.toNat ≠ q.toNat := fun e => h (BitVec.eq_of_toNat_eq e.symm)
  by_cases h0 : r = 0#4
  · subst h0; rfl
  · by_cases h1 : q = 0#4
    · subst h1; rfl
    · rw [Activation.reg_eq _ _ h1, Activation.reg_eq _ _ h1, Activation.setReg_eq _ _ _ h0]
      exact Vector.getElem_set_ne (by omega) (by omega) hn

@[simp] theorem Activation.predOf_zero (a : Activation) : a.predOf 0#3 = true := by simp [Activation.predOf, Activation.pred]

end Sys2Proof.Machine
end

