-- ==== Sys2Proof/Laws/Memory.lean ====
section
/-! SUPPORT. Memory: a byte read after a write, and the canonical form, which every operation over memory keeps. -/
namespace Sys2Proof.Machine

/-- The canonical form in two parts: rising addresses, and no entry that reads as an unlisted address does. -/
theorem risingCells_iff (l : List Host.Cell) : risingCells l = true ↔ Tbl.Rising l ∧ ∀ p ∈ l, p.2 ≠ 0 := by
  induction l with
  | nil => simp [risingCells, Tbl.Rising]
  | cons p r ih =>
    obtain ⟨a, v⟩ := p
    cases r with
    | nil => simp [risingCells, Tbl.Rising]
    | cons q r =>
      obtain ⟨b, w⟩ := q
      simp only [risingCells, Bool.and_eq_true, bne_iff_ne, decide_eq_true_eq, ih]
      constructor
      · rintro ⟨⟨hv, hab⟩, hr, hz⟩
        refine ⟨List.pairwise_cons.2 ⟨fun c hc => ?_, hr⟩, fun c hc => ?_⟩
        · rcases List.mem_cons.1 hc with hc | hc
          · simpa [hc] using hab
          · exact Nat.lt_trans hab ((List.pairwise_cons.1 hr).1 c hc)
        · rcases List.mem_cons.1 hc with hc | hc
          · simpa [hc] using hv
          · exact hz c hc
      · rintro ⟨hr, hz⟩
        exact ⟨⟨hz (a, v) (by simp), (List.pairwise_cons.1 hr).1 (b, w) (by simp)⟩, (List.pairwise_cons.1 hr).2,
          fun c hc => hz c (List.mem_cons_of_mem _ hc)⟩

theorem risingCells_put (l : List Host.Cell) (a : Nat) (v : Byte) (h : risingCells l = true) :
    risingCells (Tbl.put l a v 0) = true := by
  rw [risingCells_iff] at h ⊢
  refine ⟨h.1.put a v 0, fun p hp => ?_⟩
  unfold Tbl.put at hp
  split at hp
  · exact h.2 p (List.mem_filter.1 hp).1
  · rename_i hv
    rcases Tbl.mem_set l a v p hp with hp | hp
    · simpa [hp] using hv
    · exact h.2 p hp

theorem risingCells_set (l : List Host.Cell) (a : Nat) (v : Byte) (hv : v ≠ 0) (h : risingCells l = true) :
    risingCells (Tbl.set l a v) = true := by
  rw [risingCells_iff] at h ⊢
  refine ⟨h.1.set a v, fun p hp => ?_⟩
  rcases Tbl.mem_set l a v p hp with hp | hp
  · simpa [hp] using hv
  · exact h.2 p hp

theorem risingCells_filter (l : List Host.Cell) (f : Host.Cell → Bool) (h : risingCells l = true) :
    risingCells (l.filter f) = true := by
  rw [risingCells_iff] at h ⊢
  exact ⟨h.1.filter f, fun p hp => h.2 p (List.mem_filter.1 hp).1⟩

/-! ### Bytes -/

@[simp] theorem Tbl.getD_put_same (t : Tbl Byte) (k : Nat) (v : Byte) : Tbl.getD (Tbl.put t k v 0) k 0 = v := by
  unfold Tbl.put
  split
  · rename_i h
    simp [Tbl.getD, Tbl.get?_erase_same, h]
  · simp

theorem Tbl.getD_put_ne (t : Tbl Byte) (k j : Nat) (v : Byte) (h : j ≠ k) : Tbl.getD (Tbl.put t k v 0) j 0 = Tbl.getD t j 0 := by
  unfold Tbl.put
  split
  · simp [Tbl.getD, Tbl.get?_erase_ne t k j h]
  · exact Tbl.getD_set_ne t k j v 0 h

/-- A byte reads back. -/
@[simp] theorem MemState.byte_setByte_same (m : MemState) (a : Nat) (v : Byte) : (m.setByte a v).byte a = v := by
  have h : (m.setByte a v).byte a = Tbl.getD (Tbl.put m.cells a (v ^^^ m.haze a) 0) a 0 ^^^ m.haze a := rfl
  rw [h, Tbl.getD_put_same, BitVec.xor_assoc, BitVec.xor_self, BitVec.xor_zero]

/-- A byte's write leaves every other byte. -/
theorem MemState.byte_setByte_ne (m : MemState) (a b : Nat) (v : Byte) (h : b ≠ a) : (m.setByte a v).byte b = m.byte b :=
  congrArg (· ^^^ m.haze b) (Tbl.getD_put_ne m.cells a b _ h)

/-- Bytes below or above a written run keep their values. -/
theorem MemState.byte_setBytes_out (m : MemState) (a b : Nat) (l : List Byte) (h : b < a ∨ a + l.length ≤ b) :
    (m.setBytes a l).byte b = m.byte b := by
  induction l generalizing m a with
  | nil => rfl
  | cons v r ih =>
    simp only [List.length_cons] at h
    rw [MemState.setBytes, ih _ _ (by omega), MemState.byte_setByte_ne _ _ _ _ (by omega)]

/-- Byte `i` of a written run reads back. -/
theorem MemState.byte_setBytes_in (m : MemState) (a i : Nat) (l : List Byte) (h : i < l.length) :
    (m.setBytes a l).byte (a + i) = l[i] := by
  induction l generalizing m a i with
  | nil => simp at h
  | cons v r ih =>
    cases i with
    | zero =>
      rw [MemState.setBytes, MemState.byte_setBytes_out _ _ _ _ (by omega)]
      simp
    | succ i =>
      rw [MemState.setBytes, show a + (i + 1) = a + 1 + i by omega, ih _ _ _ (by simpa using h)]
      simp

/-- A written run reads back whole. -/
theorem MemState.bytes_setBytes (m : MemState) (a : Nat) (l : List Byte) : (m.setBytes a l).bytes a l.length = l := by
  refine List.ext_getElem (by simp [MemState.bytes]) fun i h1 h2 => ?_
  simp [MemState.bytes, MemState.byte_setBytes_in m a i l (by simpa using h2)]

@[simp] theorem MemState.byte_write_in (m : MemState) (g : Agent) (now a i : Nat) (l : List Byte) (h : i < l.length) :
    (m.write g now a l).byte (a + i) = l[i] :=
  MemState.byte_setBytes_in (m.note g now a l.length) a i l h

theorem MemState.byte_write_out (m : MemState) (g : Agent) (now a b : Nat) (l : List Byte)
    (h : b < a ∨ a + l.length ≤ b) : (m.write g now a l).byte b = m.byte b :=
  MemState.byte_setBytes_out (m.note g now a l.length) a b l h

/-! ### The canonical form -/

theorem MemState.wf_setByte (m : MemState) (a : Nat) (v : Byte) (h : m.wf = true) : (m.setByte a v).wf = true := by
  simp only [MemState.wf, Bool.and_eq_true] at h ⊢
  exact ⟨risingCells_put m.cells a _ h.1, h.2⟩

theorem MemState.wf_setBytes (m : MemState) (a : Nat) (l : List Byte) (h : m.wf = true) : (m.setBytes a l).wf = true := by
  induction l generalizing m a with
  | nil => exact h
  | cons v r ih => exact ih _ _ (m.wf_setByte a v h)

theorem MemState.wf_write (m : MemState) (g : Agent) (now a : Nat) (l : List Byte) (h : m.wf = true) : (m.write g now a l).wf = true :=
  MemState.wf_setBytes (m.note g now a l.length) a l h

theorem MemState.wf_setHost (m : MemState) (a : Nat) (l : List Byte) (h : m.wf = true) : (m.setHost a l).wf = true := by
  induction l generalizing m a with
  | nil => exact h
  | cons v r ih =>
    refine ih _ _ ?_
    simp only [MemState.wf, Bool.and_eq_true] at h ⊢
    exact ⟨h.1, risingCells_put m.host a v h.2⟩

theorem MemState.wf_filter (m : MemState) (f : Host.Cell → Bool) (h : m.wf = true) : ({ m with cells := m.cells.filter f }).wf = true := by
  simp only [MemState.wf, Bool.and_eq_true] at h ⊢
  exact ⟨risingCells_filter m.cells f h.1, h.2⟩

/-- Changing the records of performed writes leaves the storage as it is. -/
theorem State.wf_mapRecs (s : State) (f : WriteRec → WriteRec) : (s.mapRecs f).mem.wf = s.mem.wf := rfl

theorem State.wf_follow (s : State) (f : WriteRec → Option Follow) : (s.follow f).mem.wf = s.mem.wf := rfl

theorem State.wf_writeMem (s : State) (g : Agent) (a : Nat) (l : List Byte) (h : s.mem.wf = true) : (s.writeMem g a l).mem.wf = true :=
  s.mem.wf_write g s.seq a l h

theorem State.wf_sysWrite (s : State) (n a : Nat) (l : List Byte) (h : s.mem.wf = true) : (s.sysWrite n a l).mem.wf = true :=
  MemState.wf_write _ _ _ a l h

/-- A read of a unit leaves the storage as it is. -/
theorem State.readUnit_cells (s : State) (g : Agent) (m : BitVec 8) (u b : Nat) :
    (s.readUnit g m u b).2.mem.cells = s.mem.cells ∧ (s.readUnit g m u b).2.mem.host = s.mem.host := by
  simp only [State.readUnit]
  split <;> exact ⟨rfl, rfl⟩

theorem State.readUnits_cells (s : State) (g : Agent) (a n b : Nat) (us : List Nat) :
    (s.readUnits g a n b us).2.mem.cells = s.mem.cells ∧ (s.readUnits g a n b us).2.mem.host = s.mem.host := by
  induction us generalizing s with
  | nil => exact ⟨rfl, rfl⟩
  | cons u r ih =>
    simp only [State.readUnits]
    exact ⟨(ih _).1.trans (s.readUnit_cells g _ u _).1, (ih _).2.trans (s.readUnit_cells g _ u _).2⟩

/-- A fold of updates that leave memory leaves memory. -/
theorem State.foldl_mem {α : Type} (g : State → α → State) (h : ∀ t u, (g t u).mem = t.mem) (l : List α) (s : State) :
    (l.foldl g s).mem = s.mem := by
  induction l generalizing s with
  | nil => rfl
  | cons u r ih => rw [List.foldl_cons, ih, h]

theorem State.settle_cells (s : State) (a n : Nat) : (s.settle a n).mem.cells = s.mem.cells ∧ (s.settle a n).mem.host = s.mem.host := by
  unfold State.settle State.settleUnits
  dsimp only
  rw [State.foldl_mem]
  · exact ⟨rfl, rfl⟩
  · intro t u
    split <;> rfl

/-- A read of bytes leaves the storage as it is. -/
theorem State.readBytes_cells (s : State) (g : Agent) (a n b : Nat) :
    (s.readBytes g a n b).2.mem.cells = s.mem.cells ∧ (s.readBytes g a n b).2.mem.host = s.mem.host := by
  simp only [State.readBytes]
  exact ⟨((State.settle_cells _ b n).1).trans (s.readUnits_cells g a n b _).1, ((State.settle_cells _ b n).2).trans (s.readUnits_cells g a n b _).2⟩

/-- The reset state's memory is in canonical form. -/
theorem State.wf_reset : State.reset.mem.wf = true := by decide

end Sys2Proof.Machine
end

