-- ==== Sys2Proof/Laws/Words.lean ====
section
/-! SUPPORT. Each format of a word, read back from the bits that it writes (R48 to R50). -/
namespace Sys2Proof

@[simp] theorem cut_toNat (v lo n : Nat) : (cut v lo n).toNat = v / 2 ^ lo % 2 ^ n := by simp [cut]

theorem flag_lt (b : Bool) : flag b < 2 := by cases b <;> decide

theorem flag_mod (b : Bool) : (flag b % 2 == 1) = b := by cases b <;> rfl

theorem flag_eq (b : Bool) (n : Nat) (h : n = flag b) : (n == 1) = b := by subst h; cases b <;> rfl

/-- A word's toNat is the sum of its fields. -/
theorem Raw.word_toNat (r : Raw) :
    r.word.toNat = r.opc.toNat * 2 ^ 56 + r.g.pg.toNat * 2 ^ 53 + flag r.g.pn * 2 ^ 52 + r.d.toNat * 2 ^ 48 +
      r.a.toNat * 2 ^ 44 + r.b.toNat * 2 ^ 40 + r.rest.toNat := by
  have h1 := r.opc.isLt; have h2 := r.g.pg.isLt; have h3 := flag_lt r.g.pn; have h4 := r.d.isLt
  have h5 := r.a.isLt; have h6 := r.b.isLt; have h7 := r.rest.isLt
  simp only [Raw.word, BitVec.toNat_ofNat]
  omega

/-- The common fields of a word read back (R48). -/
@[simp] theorem Raw.ofWord_word (r : Raw) : Raw.ofWord r.word = r := by
  have h1 := r.opc.isLt; have h2 := r.g.pg.isLt; have h3 := flag_lt r.g.pn; have h4 := r.d.isLt
  have h5 := r.a.isLt; have h6 := r.b.isLt; have h7 := r.rest.isLt
  have e := r.word_toNat
  obtain ⟨opc, ⟨pg, pn⟩, d, a, b, rest⟩ := r
  simp only at *
  simp only [Raw.ofWord, Raw.mk.injEq, Guard.mk.injEq]
  refine ⟨?_, ⟨?_, ?_⟩, ?_, ?_, ?_, ?_⟩
  · apply BitVec.eq_of_toNat_eq; rw [cut_toNat, e]; omega
  · apply BitVec.eq_of_toNat_eq; rw [cut_toNat, e]; omega
  · exact flag_eq _ _ (by rw [e]; omega)
  · apply BitVec.eq_of_toNat_eq; rw [cut_toNat, e]; omega
  · apply BitVec.eq_of_toNat_eq; rw [cut_toNat, e]; omega
  · apply BitVec.eq_of_toNat_eq; rw [cut_toNat, e]; omega
  · apply BitVec.eq_of_toNat_eq; rw [cut_toNat, e]; omega

@[simp] theorem RestR.of_bits (r : RestR) : RestR.of r.bits = r := by
  have h1 := r.c.isLt; have h2 := r.fn.isLt; have h3 := r.z.isLt
  have e : r.bits.toNat = r.c.toNat * 2 ^ 36 + r.fn.toNat * 2 ^ 28 + r.z.toNat := by
    simp only [RestR.bits, BitVec.toNat_ofNat]; omega
  obtain ⟨c, fn, z⟩ := r
  simp only at *
  simp only [RestR.of, RestR.mk.injEq]
  refine ⟨?_, ?_, ?_⟩ <;> (apply BitVec.eq_of_toNat_eq; rw [cut_toNat, e]; omega)

@[simp] theorem RestI.of_bits (r : RestI) : RestI.of r.bits = r := by
  have h1 := r.fn.isLt; have h2 := r.imm.isLt
  have e : r.bits.toNat = r.fn.toNat * 2 ^ 32 + r.imm.toNat := by
    simp only [RestI.bits, BitVec.toNat_ofNat]; omega
  obtain ⟨fn, imm⟩ := r
  simp only at *
  simp only [RestI.of, RestI.mk.injEq]
  refine ⟨?_, ?_⟩ <;> (apply BitVec.eq_of_toNat_eq; rw [cut_toNat, e]; omega)

@[simp] theorem RestT.of_bits (r : RestT) : RestT.of r.bits = r := by
  have h0 := flag_lt r.port; have h1 := r.kind.isLt; have h2 := r.tix.isLt; have h3 := r.tix2.isLt; have h4 := r.imm.isLt
  have e : r.bits.toNat = flag r.port * 2 ^ 39 + r.kind.toNat * 2 ^ 36 + r.tix.toNat * 2 ^ 27 + r.tix2.toNat * 2 ^ 18 + r.imm.toNat := by
    simp only [RestT.bits, BitVec.toNat_ofNat]; omega
  obtain ⟨port, kind, tix, tix2, imm⟩ := r
  simp only at *
  simp only [RestT.of, RestT.mk.injEq]
  refine ⟨flag_eq _ _ (by rw [e]; omega), ?_, ?_, ?_, ?_⟩ <;> (apply BitVec.eq_of_toNat_eq; rw [cut_toNat, e]; omega)

@[simp] theorem RestX.of_bits (r : RestX) : RestX.of r.bits = r := by
  have h0 := flag_lt r.sat; have h1 := r.c.isLt; have h2 := r.fn.isLt; have h3 := r.ef.isLt; have h4 := r.rnd.isLt
  have h5 := r.gap.isLt; have h6 := r.ct.isLt; have h7 := r.m.isLt
  have e : r.bits.toNat = r.c.toNat * 2 ^ 36 + r.fn.toNat * 2 ^ 28 + r.ef.toNat * 2 ^ 20 + r.rnd.toNat * 2 ^ 17 + flag r.sat * 2 ^ 16 +
      r.gap.toNat * 2 ^ 13 + r.ct.toNat * 2 ^ 4 + r.m.toNat := by
    simp only [RestX.bits, BitVec.toNat_ofNat]; omega
  obtain ⟨c, fn, ef, rnd, sat, gap, ct, m⟩ := r
  simp only at *
  simp only [RestX.of, RestX.mk.injEq]
  refine ⟨?_, ?_, ?_, ?_, flag_eq _ _ (by rw [e]; omega), ?_, ?_, ?_⟩ <;> (apply BitVec.eq_of_toNat_eq; rw [cut_toNat, e]; omega)

@[simp] theorem RestM.of_bits (r : RestM) : RestM.of r.bits = r := by
  have h1 := r.alc.isLt; have h2 := r.scp.isLt; have h3 := r.ord.isLt; have h4 := r.md.isLt; have h5 := r.tix.isLt; have h6 := r.off.isLt
  have e : r.bits.toNat = r.alc.toNat * 2 ^ 36 + r.scp.toNat * 2 ^ 32 + r.ord.toNat * 2 ^ 29 + r.md.toNat * 2 ^ 24 + r.tix.toNat * 2 ^ 15 +
      r.off.toNat := by
    simp only [RestM.bits, BitVec.toNat_ofNat]; omega
  obtain ⟨alc, scp, ord, md, tix, off⟩ := r
  simp only at *
  simp only [RestM.of, RestM.mk.injEq]
  refine ⟨?_, ?_, ?_, ?_, ?_, ?_⟩ <;> (apply BitVec.eq_of_toNat_eq; rw [cut_toNat, e]; omega)

@[simp] theorem RawE.ofWord_word (r : RawE) : RawE.ofWord r.word = r := by
  have h1 := r.z1.isLt; have h2 := r.arity.isLt; have h3 := r.slot.isLt; have h4 := r.len.isLt; have h5 := r.zf.isLt
  have h6 := r.feat.isLt; have h7 := r.pcls.isLt; have h8 := r.alt.isLt; have h9 := r.z2.isLt
  have e : r.word.toNat = 0x40 * 2 ^ 56 + r.z1.toNat * 2 ^ 52 + r.arity.toNat * 2 ^ 50 + r.slot.toNat * 2 ^ 42 + r.len.toNat * 2 ^ 36 +
      r.zf.toNat * 2 ^ 33 + r.feat.toNat * 2 ^ 28 + r.pcls.toNat * 2 ^ 24 + r.alt.toNat * 2 ^ 13 + r.z2.toNat := by
    simp only [RawE.word, BitVec.toNat_ofNat]; omega
  obtain ⟨z1, arity, slot, len, zf, feat, pcls, alt, z2⟩ := r
  simp only at *
  simp only [RawE.ofWord, RawE.mk.injEq]
  refine ⟨?_, ?_, ?_, ?_, ?_, ?_, ?_, ?_, ?_⟩ <;> (apply BitVec.eq_of_toNat_eq; rw [cut_toNat, e]; omega)

/-- An `ent` word carries opcode 0x40. -/
theorem RawE.word_opc (r : RawE) : (Raw.ofWord r.word).opc = 0x40#8 := by
  have h1 := r.z1.isLt; have h2 := r.arity.isLt; have h3 := r.slot.isLt; have h4 := r.len.isLt; have h5 := r.zf.isLt
  have h6 := r.feat.isLt; have h7 := r.pcls.isLt; have h8 := r.alt.isLt; have h9 := r.z2.isLt
  apply BitVec.eq_of_toNat_eq
  simp only [Raw.ofWord, cut_toNat, RawE.word, BitVec.toNat_ofNat]
  omega

/-! ### Function codes (R52, R55) -/

@[simp] theorem Rnd.ofCode_code (r : Rnd) : Rnd.ofCode r.code = some r := by cases r <;> rfl
@[simp] theorem MemOrd.ofCode_code (o : MemOrd) : MemOrd.ofCode o.code = some o := by cases o <;> rfl
@[simp] theorem Arity.ofCode_code (a : Arity) : Arity.ofCode a.code = a := by cases a <;> rfl
@[simp] theorem SendKind.ofCode_code (k : SendKind) : SendKind.ofCode k.code = some k := by cases k <;> rfl
@[simp] theorem BitopFn.ofCode_code (f : BitopFn) : BitopFn.ofCode f.code = some f := by cases f <;> rfl
@[simp] theorem LogFn.ofCode_code (f : LogFn) : LogFn.ofCode f.code = some f := by cases f <;> rfl
@[simp] theorem ShFn.ofCode_code (f : ShFn) : ShFn.ofCode f.code = some f := by cases f <;> rfl
@[simp] theorem Cond.ofCode_code (c : Cond) : Cond.ofCode c.code = some c := by cases c <;> rfl
@[simp] theorem FCond.ofFn_code (c : FCond) : FCond.ofFn c.code = some c := by cases c <;> rfl
@[simp] theorem CvtFn.ofFn_code (c : CvtFn) : CvtFn.ofFn c.code = some c := by cases c <;> rfl
@[simp] theorem ClampFn.ofCode_code (f : ClampFn) : ClampFn.ofCode f.code = some f := by cases f <;> rfl
@[simp] theorem PopFn.ofCode_code (f : PopFn) : PopFn.ofCode f.code = some f := by cases f <;> rfl
@[simp] theorem VlogFn.ofCode_code (f : VlogFn) : VlogFn.ofCode f.code = some f := by cases f <;> rfl
@[simp] theorem VbitFn.ofCode_code (f : VbitFn) : VbitFn.ofCode f.code = some f := by cases f <;> rfl
@[simp] theorem FnFn.ofCode_code (f : FnFn) : FnFn.ofCode f.code = some f := by cases f <;> rfl
@[simp] theorem RedFn.ofCode_code (f : RedFn) : RedFn.ofCode f.code = some f := by cases f <;> rfl
@[simp] theorem ScanFn.ofCode_code (f : ScanFn) : ScanFn.ofCode f.code = some f := by cases f <;> rfl
@[simp] theorem FillFn.ofCode_code (f : FillFn) : FillFn.ofCode f.code = some f := by cases f <;> rfl
@[simp] theorem MaskFn.ofCode_code (f : MaskFn) : MaskFn.ofCode f.code = some f := by cases f <;> rfl
@[simp] theorem AtomFn.ofCode_code (f : AtomFn) : AtomFn.ofCode f.code = some f := by cases f <;> rfl

@[simp] theorem EF.ofCode_code (e : EF) : EF.ofCode e.code = some e := by
  cases e with
  | b8 x s p => revert x s p; decide
  | _ => rfl

/-- The FN of a float form reads back (R55). -/
@[simp] theorem FloatFn.of_floatFn (pr : Prec) (rnd : BitVec 3) (sub : Nat) (h : sub < 8) :
    FloatFn.of (floatFn pr rnd sub) = { pr := pr, z := false, rnd := rnd, sub := sub } := by
  have h1 := rnd.isLt
  have hp : pr.code < 2 := by cases pr <;> decide
  have e : (floatFn pr rnd sub).toNat = pr.code + rnd.toNat * 4 + sub * 32 := by
    simp only [floatFn, BitVec.toNat_ofNat]; omega
  simp only [FloatFn.of, FloatFn.mk.injEq]
  rw [e]
  refine ⟨?_, ?_, ?_, by omega⟩
  · unfold Prec.ofBit
    cases pr
    · rw [if_pos (by simp only [Prec.code]; omega)]
    · rw [if_neg (by simp only [Prec.code]; omega)]
  · simp only [beq_eq_false_iff_ne]; omega
  · apply BitVec.eq_of_toNat_eq; rw [cut_toNat]; omega

@[simp] theorem predOk_field (p : PredReg) : predOk (predField p) = true := by
  have h := p.isLt
  simp only [predOk, predField, BitVec.toNat_ofNat, decide_eq_true_eq]
  omega

@[simp] theorem predOf_field (p : PredReg) : predOf (predField p) = p := by
  have h := p.isLt
  apply BitVec.eq_of_toNat_eq
  simp only [predOf, predField, cut_toNat, BitVec.toNat_ofNat]
  omega

end Sys2Proof
end

