-- ==== Sys2Proof/Laws/PerInstr.lean ====
section
/-! SUPPORT. The form of every instruction, read back from its word: one lemma per constructor of `Instr` (R48 to R55). A
step of an engine has no word, so its lemma is empty. -/
namespace Sys2Proof.Laws

open Sys2Proof

/-! ### The group of an opcode -/

theorem dG0 (r : Raw) (o : BitVec 8) (h : r.opc = o) (ho : o.toNat / 32 = 0) : decodeForm r.word = decodeG0 r := by
  unfold decodeForm; rw [Raw.ofWord_word]; simp only [h, ho]

theorem dG1 (r : Raw) (o : BitVec 8) (h : r.opc = o) (ho : o.toNat / 32 = 1) : decodeForm r.word = decodeG1 r := by
  unfold decodeForm; rw [Raw.ofWord_word]; simp only [h, ho]

theorem dG2 (r : Raw) (o : BitVec 8) (h : r.opc = o) (ho : o.toNat / 32 = 2) (hn : o ≠ 0x40#8) : decodeForm r.word = decodeG2 r := by
  unfold decodeForm; rw [Raw.ofWord_word]; simp only [h, ho]; rw [if_neg (by simpa using hn)]

theorem dG3 (r : Raw) (o : BitVec 8) (h : r.opc = o) (ho : o.toNat / 32 = 3) : decodeForm r.word = decodeG3 r := by
  unfold decodeForm; rw [Raw.ofWord_word]; simp only [h, ho]

theorem dG4 (r : Raw) (o : BitVec 8) (h : r.opc = o) (ho : o.toNat / 32 = 4) : decodeForm r.word = decodeG4 r := by
  unfold decodeForm; rw [Raw.ofWord_word]; simp only [h, ho]

theorem dG5 (r : Raw) (o : BitVec 8) (h : r.opc = o) (ho : o.toNat / 32 = 5) : decodeForm r.word = decodeG5 r := by
  unfold decodeForm; rw [Raw.ofWord_word]; simp only [h, ho]

theorem dG6 (r : Raw) (o : BitVec 8) (h : r.opc = o) (ho : o.toNat / 32 = 6) : decodeForm r.word = decodeG6 r := by
  unfold decodeForm; rw [Raw.ofWord_word]; simp only [h, ho]

theorem efByte (e : EF) : (BitVec.ofNat 8 e.code).toNat = e.code := by
  cases e with
  | b8 x s p => revert x s p; decide
  | _ => rfl

theorem sfHi (x : SF) : cut (BitVec.ofNat 32 (x.hi.toNat * 2 ^ 9 + x.rt.toNat)).toNat 0 9 = x.rt := by
  have h1 := x.hi.isLt; have h2 := x.rt.isLt
  apply BitVec.eq_of_toNat_eq; rw [cut_toNat, BitVec.toNat_ofNat]; omega

theorem sfRt (x : SF) : cut (BitVec.ofNat 32 (x.hi.toNat * 2 ^ 9 + x.rt.toNat)).toNat 9 23 = x.hi := by
  have h1 := x.hi.isLt; have h2 := x.rt.isLt
  apply BitVec.eq_of_toNat_eq; rw [cut_toNat, BitVec.toNat_ofNat]; omega

theorem codeByte (c : FCond) : (BitVec.ofNat 8 c.code).toNat = c.code := by cases c <;> rfl


theorem dEnt (w : Word) (h : (Raw.ofWord w).opc = 0x40#8) : decodeForm w = decodeEnt w := by
  have ho : (0x40#8 : BitVec 8).toNat / 32 = 2 := by decide
  unfold decodeForm; simp only [h, ho]; rw [if_pos (by decide)]

theorem acceptOk {z : Bool} {i : Instr} (h : z = true) : accept z i = .ok i := if_pos h

theorem zext_toNat {n m : Nat} (x : BitVec n) (h : n ≤ m) : (BitVec.ofNat m x.toNat).toNat = x.toNat := by
  rw [BitVec.toNat_ofNat, Nat.mod_eq_of_lt (Nat.lt_of_lt_of_le x.isLt (Nat.pow_le_pow_right (by decide) h))]

theorem cut_self {n : Nat} (x : BitVec n) : cut x.toNat 0 n = x := by
  apply BitVec.eq_of_toNat_eq; rw [cut_toNat, Nat.pow_zero, Nat.div_one, Nat.mod_eq_of_lt x.isLt]

theorem below {n m : Nat} (h : n < m) : (true && decide (n < m)) = true := by simp [h]

theorem below1 {n m : Nat} (h : n < m) : decide (n < m) = true := by simp [h]

theorem two_bits (f : BitVec 2) : f = 0 ∨ f = 1 ∨ f = 2 ∨ f = 3 := by
  revert f; decide

theorem FCond.code_lt (c : FCond) : c.code < 8 := by cases c <;> decide

theorem CvtFn.code_lt (c : CvtFn) : c.code < 8 := by cases c <;> decide

theorem pair_toNat {n k m : Nat} (x : BitVec n) (y : BitVec k) (s : Nat) (hs : s = n) (h : n + k ≤ m) :
    (BitVec.ofNat m (x.toNat + y.toNat * 2 ^ s)).toNat = x.toNat + y.toNat * 2 ^ s := by
  subst hs
  rw [BitVec.toNat_ofNat, Nat.mod_eq_of_lt]
  have h1 := x.isLt; have h2 := y.isLt
  have h3 : (y.toNat + 1) * 2 ^ s ≤ 2 ^ k * 2 ^ s := Nat.mul_le_mul_right _ h2
  have h4 : 2 ^ (s + k) ≤ 2 ^ m := Nat.pow_le_pow_right (by decide) h
  rw [Nat.pow_add, Nat.mul_comm] at h4
  rw [Nat.add_mul, Nat.one_mul] at h3
  omega

theorem pair_lt {n k : Nat} (x : BitVec n) (y : BitVec k) (s m : Nat) (h : n + k ≤ m ∧ s = n) : x.toNat + y.toNat * 2 ^ s < 2 ^ m := by
  rw [← pair_toNat (m := m) x y s h.2 h.1]; exact BitVec.isLt _

theorem pair_lo {n k : Nat} (x : BitVec n) (y : BitVec k) : cut (x.toNat + y.toNat * 2 ^ n) 0 n = x := by
  have h1 := x.isLt
  apply BitVec.eq_of_toNat_eq
  rw [cut_toNat, Nat.pow_zero, Nat.div_one, Nat.add_mul_mod_self_right, Nat.mod_eq_of_lt h1]

theorem pair_hi {n k : Nat} (x : BitVec n) (y : BitVec k) : cut (x.toNat + y.toNat * 2 ^ n) n k = y := by
  have h1 := x.isLt
  apply BitVec.eq_of_toNat_eq
  rw [cut_toNat, Nat.add_mul_div_right _ _ (Nat.two_pow_pos n), Nat.div_eq_of_lt h1, Nat.zero_add, Nat.mod_eq_of_lt y.isLt]

theorem bfImm_toNat (l : BitVec 6) (w : BitVec 7) (sx : Bool) : (bfImm l w sx).toNat = l.toNat + w.toNat * 2 ^ 6 + flag sx * 2 ^ 13 := by
  have h1 := l.isLt; have h2 := w.isLt; have h3 := flag_lt sx
  rw [bfImm, BitVec.toNat_ofNat]; omega

theorem bfImm_lt (l : BitVec 6) (w : BitVec 7) (sx : Bool) : (0 == 0 && decide ((bfImm l w sx).toNat < 2 ^ 14)) = true := by
  have h1 := l.isLt; have h2 := w.isLt; have h3 := flag_lt sx
  exact below (by rw [bfImm_toNat]; omega)

theorem bfImm_lt' (l : BitVec 6) (w : BitVec 7) : (0 == 0 && decide ((bfImm l w false).toNat < 2 ^ 13)) = true := by
  have h1 := l.isLt; have h2 := w.isLt
  have h3 : flag false = 0 := rfl
  exact below (by rw [bfImm_toNat, h3]; omega)

theorem bfImm_lsb (l : BitVec 6) (w : BitVec 7) (sx : Bool) : cut (bfImm l w sx).toNat 0 6 = l := by
  have h1 := l.isLt; have h2 := w.isLt
  apply BitVec.eq_of_toNat_eq; rw [cut_toNat, bfImm_toNat]; omega

theorem bfImm_w (l : BitVec 6) (w : BitVec 7) (sx : Bool) : cut (bfImm l w sx).toNat 6 7 = w := by
  have h1 := l.isLt; have h2 := w.isLt
  apply BitVec.eq_of_toNat_eq; rw [cut_toNat, bfImm_toNat]; omega

theorem bfImm_sx (l : BitVec 6) (w : BitVec 7) (sx : Bool) : ((bfImm l w sx).toNat / 2 ^ 13 % 2 == 1) = sx := by
  have h1 := l.isLt; have h2 := w.isLt; have h3 := flag_lt sx
  exact flag_eq _ _ (by rw [bfImm_toNat]; omega)
/-- IMM18 of `falloc` (R148). -/

theorem fallocImm_toNat (c l : BitVec 3) (u : Bool) :
    (BitVec.ofNat 18 (c.toNat + l.toNat * 2 ^ 3 + flag u * 2 ^ 6)).toNat = c.toNat + l.toNat * 2 ^ 3 + flag u * 2 ^ 6 := by
  have h1 := c.isLt; have h2 := l.isLt; have h3 := flag_lt u
  rw [BitVec.toNat_ofNat]; omega

theorem fallocImm_lt (c l : BitVec 3) (u : Bool) :
    decide ((BitVec.ofNat 18 (c.toNat + l.toNat * 2 ^ 3 + flag u * 2 ^ 6)).toNat < 128) = true := by
  have h1 := c.isLt; have h2 := l.isLt; have h3 := flag_lt u
  exact below1 (by rw [fallocImm_toNat]; omega)

theorem fallocImm_c (c l : BitVec 3) (u : Bool) : cut (BitVec.ofNat 18 (c.toNat + l.toNat * 2 ^ 3 + flag u * 2 ^ 6)).toNat 0 3 = c := by
  have h1 := c.isLt; have h2 := l.isLt
  apply BitVec.eq_of_toNat_eq; rw [cut_toNat, fallocImm_toNat]; omega

theorem fallocImm_l (c l : BitVec 3) (u : Bool) : cut (BitVec.ofNat 18 (c.toNat + l.toNat * 2 ^ 3 + flag u * 2 ^ 6)).toNat 3 3 = l := by
  have h1 := c.isLt; have h2 := l.isLt
  apply BitVec.eq_of_toNat_eq; rw [cut_toNat, fallocImm_toNat]; omega

theorem fallocImm_u (c l : BitVec 3) (u : Bool) :
    ((BitVec.ofNat 18 (c.toNat + l.toNat * 2 ^ 3 + flag u * 2 ^ 6)).toNat / 64 % 2 == 1) = u := by
  have h1 := c.isLt; have h2 := l.isLt; have h3 := flag_lt u
  exact flag_eq _ _ (by rw [fallocImm_toNat]; omega)

theorem atomMd_fn (f : AtomFn) (md : BitVec 5) (h : md &&& ~~~16 = 0) :
    cut (BitVec.ofNat 5 (f.code.toNat + md.toNat)).toNat 0 4 = f.code := by
  revert md; cases f <;> decide

theorem atomMd_w (f : AtomFn) (md : BitVec 5) (h : md &&& ~~~16 = 0) :
    BitVec.ofNat 5 ((BitVec.ofNat 5 (f.code.toNat + md.toNat)).toNat / 16 * 16) = md := by
  revert md; cases f <;> decide

theorem decodeX_word (opc fn : BitVec 8) (x : XF) (k : BitVec 8 → XF → Decoded) :
    decodeX ⟨opc, x.g, x.d, x.a, x.b, RestX.bits ⟨x.c, fn, BitVec.ofNat 8 x.ef.code, x.rnd.code, x.sat, x.gap, x.ct, x.m⟩⟩ k = k fn x := by
  unfold decodeX
  dsimp only
  rw [RestX.of_bits]
  dsimp only
  rw [efByte, EF.ofCode_code, Rnd.ofCode_code]
  rfl

theorem fnBit_lt (b : Bool) : (fnBit b).toNat < 2 := by cases b <;> decide

theorem fnBit_eq (b : Bool) : (fnBit b == 1) = b := by cases b <;> rfl

/-! ### What an opcode decodes to, where the proof needs it named -/

theorem arm17 (g : Guard) (d a b : Reg) (rest : BitVec 40) : decodeG0 ⟨0x17#8, g, d, a, b, rest⟩ = (
    let i := RestI.of rest
    if i.fn == 0 then
      accept (b == 0 && i.imm.toNat < 2 ^ 14)
        (.bfx g d a (cut i.imm.toNat 0 6) (cut i.imm.toNat 6 7) (i.imm.toNat / 2 ^ 13 % 2 == 1))
    else .error .illegalField) := rfl

theorem arm18 (g : Guard) (d a b : Reg) (rest : BitVec 40) : decodeG0 ⟨0x18#8, g, d, a, b, rest⟩ = (
    let i := RestI.of rest
    if i.fn == 0 then
      accept (b == 0 && i.imm.toNat < 2 ^ 13) (.bfi g d a (cut i.imm.toNat 0 6) (cut i.imm.toNat 6 7))
    else .error .illegalField) := rfl

theorem arm1A (g : Guard) (d a b : Reg) (rest : BitVec 40) : decodeG0 ⟨0x1A#8, g, d, a, b, rest⟩ = (
    let i := RestI.of rest
    if i.fn.toNat < 2 then accept (a == 0 && b == 0) (.movi g (i.fn == 1) d i.imm) else .error .illegalField) := rfl

theorem arm1D (g : Guard) (d a b : Reg) (rest : BitVec 40) : decodeG0 ⟨0x1D#8, g, d, a, b, rest⟩ = (
    let i := RestI.of rest
    select (ShFn.ofCode i.fn) fun f => accept (b == 0 && i.imm.toNat < 64) (.shfi g f d a (cut i.imm.toNat 0 6))) := rfl

theorem arm28 (g : Guard) (d a b : Reg) (rest : BitVec 40) : decodeG1 ⟨0x28#8, g, d, a, b, rest⟩ = (
    let q := RestR.of rest
    let f := FloatFn.of q.fn
    let z2 := q.c == 0 && q.z == 0 && !f.z
    if f.rnd == 0 then select (FCond.ofFn f.sub) fun c => accept (z2 && predOk d) (.fcmp g f.pr c (predOf d) a b)
    else .error .illegalField) := rfl

theorem arm29 (g : Guard) (d a b : Reg) (rest : BitVec 40) : decodeG1 ⟨0x29#8, g, d, a, b, rest⟩ = (
    let q := RestR.of rest
    let f := FloatFn.of q.fn
    let z2 := q.c == 0 && q.z == 0 && !f.z
    select (CvtFn.ofFn f.sub) fun c => select (Rnd.ofCode f.rnd) fun x => accept (z2 && b == 0) (.fcvt g f.pr x c d a)) := rfl

theorem arm2B (g : Guard) (d a b : Reg) (rest : BitVec 40) : decodeG1 ⟨0x2B#8, g, d, a, b, rest⟩ = (
    let i := RestI.of rest
    if i.fn.toNat < 4 then .ok (.lea g (cut i.fn.toNat 0 2) d a b i.imm) else .error .illegalField) := rfl

theorem arm2C (g : Guard) (d a b : Reg) (rest : BitVec 40) : decodeG1 ⟨0x2C#8, g, d, a, b, rest⟩ = (
    let i := RestI.of rest
    if i.fn.toNat < 128 then accept (b == 0) (.mhash g (cut i.fn.toNat 0 7) d a i.imm) else .error .illegalField) := rfl

theorem arm2E (g : Guard) (d a b : Reg) (rest : BitVec 40) : decodeG1 ⟨0x2E#8, g, d, a, b, rest⟩ = (
    let q := RestR.of rest
    let z := q.c == 0 && q.z == 0 && b == 0
    if q.fn == 0 then accept (z && a == 0) (.pmov g false d)
    else if q.fn == 1 then accept (z && d == 0) (.pmov g true a)
    else .error .illegalField) := rfl

theorem arm2F (g : Guard) (d a b : Reg) (rest : BitVec 40) : decodeG1 ⟨0x2F#8, g, d, a, b, rest⟩ = (
    let i := RestI.of rest
    if i.fn == 0 then
      accept (a == 0 && b == 0 && i.imm.toNat < 2 ^ 19) (.mfs g d (cut i.imm.toNat 0 16) (cut i.imm.toNat 16 3))
    else .error .illegalField) := rfl

theorem arm30 (g : Guard) (d a b : Reg) (rest : BitVec 40) : decodeG1 ⟨0x30#8, g, d, a, b, rest⟩ = (
    let i := RestI.of rest
    if i.fn == 0 then
      accept (d == 0 && b == 0 && i.imm.toNat < 2 ^ 19) (.mts g a (cut i.imm.toNat 0 16) (cut i.imm.toNat 16 3))
    else .error .illegalField) := rfl

theorem arm32 (g : Guard) (d a b : Reg) (rest : BitVec 40) : decodeG1 ⟨0x32#8, g, d, a, b, rest⟩ = (
    let q := RestR.of rest
    if q.fn.toNat < 2 then accept (q.c == 0 && q.z == 0 && b == 0) (.iabs g (q.fn == 1) d a) else .error .illegalField) := rfl

theorem arm41 (g : Guard) (d a b : Reg) (rest : BitVec 40) : decodeG2 ⟨0x41#8, g, d, a, b, rest⟩ = (
    let i := RestI.of rest
    if i.fn.toNat < 2 then accept (b == 0 && i.imm.toNat < 256) (.ldf g (i.fn == 1) d a (cut i.imm.toNat 0 8))
    else .error .illegalField) := rfl

theorem arm42 (g : Guard) (d a b : Reg) (rest : BitVec 40) : decodeG2 ⟨0x42#8, g, d, a, b, rest⟩ = (
    let i := RestI.of rest
    if i.fn == 0 then accept (b == 0 && i.imm.toNat < 256) (.stf g d a (cut i.imm.toNat 0 8)) else .error .illegalField) := rfl

theorem arm43 (g : Guard) (d a b : Reg) (rest : BitVec 40) : decodeG2 ⟨0x43#8, g, d, a, b, rest⟩ = (
    let i := RestI.of rest
    if i.fn == 0 then
      accept (d == 0 && b == 0 && i.imm.toNat < 2 ^ 16) (.fclr g a (cut i.imm.toNat 0 8) (cut i.imm.toNat 8 8))
    else .error .illegalField) := rfl

theorem arm44 (g : Guard) (d a b : Reg) (rest : BitVec 40) : decodeG2 ⟨0x44#8, g, d, a, b, rest⟩ = (
    let t := RestT.of rest
    let f : TF := { g := g, v := d, f := a, i := b, port := t.port, tix := t.tix }
    let tw (bound : Nat) (k : Instr) : Decoded :=
      if t.kind == 0 && t.tix2 == 0 then accept (t.imm.toNat < bound) k else .error .illegalField
    tw 128 (.falloc f (cut t.imm.toNat 0 3) (cut t.imm.toNat 3 3) (t.imm.toNat / 64 % 2 == 1))) := rfl

theorem arm46 (g : Guard) (d a b : Reg) (rest : BitVec 40) : decodeG2 ⟨0x46#8, g, d, a, b, rest⟩ = (
    let t := RestT.of rest
    let f : TF := { g := g, v := d, f := a, i := b, port := t.port, tix := t.tix }
    if t.tix2 == 0 then select (SendKind.ofCode t.kind) fun k => .ok (.send f k t.imm) else .error .illegalField) := rfl

theorem arm47 (g : Guard) (d a b : Reg) (rest : BitVec 40) : decodeG2 ⟨0x47#8, g, d, a, b, rest⟩ = (
    let t := RestT.of rest
    let f : TF := { g := g, v := d, f := a, i := b, port := t.port, tix := t.tix }
    let tw (bound : Nat) (k : Instr) : Decoded :=
      if t.kind == 0 && t.tix2 == 0 then accept (t.imm.toNat < bound) k else .error .illegalField
    tw (2 ^ 16) (.sendc f (cut t.imm.toNat 0 8) (cut t.imm.toNat 8 8))) := rfl

theorem arm48 (g : Guard) (d a b : Reg) (rest : BitVec 40) : decodeG2 ⟨0x48#8, g, d, a, b, rest⟩ = (
    let t := RestT.of rest
    let f : TF := { g := g, v := d, f := a, i := b, port := t.port, tix := t.tix }
    if t.kind == 0 && t.tix2.toNat < 16 then .ok (.sendx f (cut t.tix2.toNat 0 4) t.imm) else .error .illegalField) := rfl

theorem arm49 (g : Guard) (d a b : Reg) (rest : BitVec 40) : decodeG2 ⟨0x49#8, g, d, a, b, rest⟩ = (
    let t := RestT.of rest
    let f : TF := { g := g, v := d, f := a, i := b, port := t.port, tix := t.tix }
    if t.kind == 0 then accept (t.imm.toNat < 8) (.swt f t.tix2 (cut t.imm.toNat 0 3)) else .error .illegalField) := rfl

theorem arm4A (g : Guard) (d a b : Reg) (rest : BitVec 40) : decodeG2 ⟨0x4A#8, g, d, a, b, rest⟩ = (
    let t := RestT.of rest
    let f : TF := { g := g, v := d, f := a, i := b, port := t.port, tix := t.tix }
    if t.kind == 0 then .ok (.sendm f t.tix2 t.imm) else .error .illegalField) := rfl

theorem arm4D (g : Guard) (d a b : Reg) (rest : BitVec 40) : decodeG2 ⟨0x4D#8, g, d, a, b, rest⟩ = (
    let t := RestT.of rest
    let f : TF := { g := g, v := d, f := a, i := b, port := t.port, tix := t.tix }
    let tw (bound : Nat) (k : Instr) : Decoded :=
      if t.kind == 0 && t.tix2 == 0 then accept (t.imm.toNat < bound) k else .error .illegalField
    tw 1 (.join f)) := rfl

theorem arm4E (g : Guard) (d a b : Reg) (rest : BitVec 40) : decodeG2 ⟨0x4E#8, g, d, a, b, rest⟩ = (
    let t := RestT.of rest
    let f : TF := { g := g, v := d, f := a, i := b, port := t.port, tix := t.tix }
    let tw (bound : Nat) (k : Instr) : Decoded :=
      if t.kind == 0 && t.tix2 == 0 then accept (t.imm.toNat < bound) k else .error .illegalField
    tw 1 (.leave f)) := rfl

theorem arm4F (g : Guard) (d a b : Reg) (rest : BitVec 40) : decodeG2 ⟨0x4F#8, g, d, a, b, rest⟩ = (
    let t := RestT.of rest
    let f : TF := { g := g, v := d, f := a, i := b, port := t.port, tix := t.tix }
    let tw (bound : Nat) (k : Instr) : Decoded :=
      if t.kind == 0 && t.tix2 == 0 then accept (t.imm.toNat < bound) k else .error .illegalField
    tw 16 (.arrive f (cut t.imm.toNat 0 4))) := rfl

theorem arm50 (g : Guard) (d a b : Reg) (rest : BitVec 40) : decodeG2 ⟨0x50#8, g, d, a, b, rest⟩ = (
    let t := RestT.of rest
    let f : TF := { g := g, v := d, f := a, i := b, port := t.port, tix := t.tix }
    let tw (bound : Nat) (k : Instr) : Decoded :=
      if t.kind == 0 && t.tix2 == 0 then accept (t.imm.toNat < bound) k else .error .illegalField
    tw 1 (.wait f)) := rfl

theorem arm51 (g : Guard) (d a b : Reg) (rest : BitVec 40) : decodeG2 ⟨0x51#8, g, d, a, b, rest⟩ = (
    let t := RestT.of rest
    let f : TF := { g := g, v := d, f := a, i := b, port := t.port, tix := t.tix }
    let tw (bound : Nat) (k : Instr) : Decoded :=
      if t.kind == 0 && t.tix2 == 0 then accept (t.imm.toNat < bound) k else .error .illegalField
    tw 16 (.halloc f (cut t.imm.toNat 0 4))) := rfl

theorem arm54 (g : Guard) (d a b : Reg) (rest : BitVec 40) : decodeG2 ⟨0x54#8, g, d, a, b, rest⟩ = (
    let t := RestT.of rest
    let f : TF := { g := g, v := d, f := a, i := b, port := t.port, tix := t.tix }
    let tw (bound : Nat) (k : Instr) : Decoded :=
      if t.kind == 0 && t.tix2 == 0 then accept (t.imm.toNat < bound) k else .error .illegalField
    tw 2 (.hinfo f (t.imm == 1))) := rfl

theorem arm57 (g : Guard) (d a b : Reg) (rest : BitVec 40) : decodeG2 ⟨0x57#8, g, d, a, b, rest⟩ = (
    let t := RestT.of rest
    let f : TF := { g := g, v := d, f := a, i := b, port := t.port, tix := t.tix }
    let tw (bound : Nat) (k : Instr) : Decoded :=
      if t.kind == 0 && t.tix2 == 0 then accept (t.imm.toNat < bound) k else .error .illegalField
    tw (2 ^ 18) (.sys f t.imm)) := rfl

theorem arm59 (g : Guard) (d a b : Reg) (rest : BitVec 40) : decodeG2 ⟨0x59#8, g, d, a, b, rest⟩ = (
    let q := RestR.of rest
    let z := q.c == 0 && q.z == 0 && a == 0 && b == 0
    match q.fn.toNat with
    | 0 => accept (z && predOk d) (.psn g (.test (predOf d)))
    | 1 => accept (z && d == 0) (.psn g .set)
    | 2 => accept (z && d == 0) (.psn g .clr)
    | _ => .error .illegalField) := rfl

theorem arm68 (g : Guard) (d a b : Reg) (rest : BitVec 40) : decodeG3 ⟨0x68#8, g, d, a, b, rest⟩ = (
    decodeX ⟨0x68#8, g, d, a, b, rest⟩ fun fn x =>
    select (VlogFn.ofCode fn) fun f => .ok (.vlog f x)) := rfl

theorem arm69 (g : Guard) (d a b : Reg) (rest : BitVec 40) : decodeG3 ⟨0x69#8, g, d, a, b, rest⟩ = (
    decodeX ⟨0x69#8, g, d, a, b, rest⟩ fun fn x =>
    select (ShFn.ofCode fn) fun f => .ok (.vsh f x)) := rfl

theorem arm6A (g : Guard) (d a b : Reg) (rest : BitVec 40) : decodeG3 ⟨0x6A#8, g, d, a, b, rest⟩ = (
    decodeX ⟨0x6A#8, g, d, a, b, rest⟩ fun fn x =>
    select (FCond.ofFn fn.toNat) fun f => .ok (.vcmp f x)) := rfl

theorem arm6F (g : Guard) (d a b : Reg) (rest : BitVec 40) : decodeG3 ⟨0x6F#8, g, d, a, b, rest⟩ = (
    decodeX ⟨0x6F#8, g, d, a, b, rest⟩ fun fn x =>
    select (FnFn.ofCode fn) fun f => .ok (.vfn f x)) := rfl

theorem arm70 (g : Guard) (d a b : Reg) (rest : BitVec 40) : decodeG3 ⟨0x70#8, g, d, a, b, rest⟩ = (
    decodeX ⟨0x70#8, g, d, a, b, rest⟩ fun fn x =>
    select (RedFn.ofCode fn) fun f => .ok (.vred f x)) := rfl

theorem arm71 (g : Guard) (d a b : Reg) (rest : BitVec 40) : decodeG3 ⟨0x71#8, g, d, a, b, rest⟩ = (
    decodeX ⟨0x71#8, g, d, a, b, rest⟩ fun fn x =>
    select (ScanFn.ofCode fn) fun f => .ok (.vscan f x)) := rfl

theorem arm73 (g : Guard) (d a b : Reg) (rest : BitVec 40) : decodeG3 ⟨0x73#8, g, d, a, b, rest⟩ = (
    decodeX ⟨0x73#8, g, d, a, b, rest⟩ fun fn x =>
    select (FillFn.ofCode fn) fun f => .ok (.vfill f x)) := rfl

theorem arm76 (g : Guard) (d a b : Reg) (rest : BitVec 40) : decodeG3 ⟨0x76#8, g, d, a, b, rest⟩ = (
    decodeX ⟨0x76#8, g, d, a, b, rest⟩ fun fn x =>
    if fn.toNat < 128 then .ok (.vhash (cut fn.toNat 0 7) x) else .error .illegalField) := rfl

theorem arm77 (g : Guard) (d a b : Reg) (rest : BitVec 40) : decodeG3 ⟨0x77#8, g, d, a, b, rest⟩ = (
    decodeX ⟨0x77#8, g, d, a, b, rest⟩ fun fn x =>
    if fn.toNat < 2 then .ok (.vpopc (fn == 1) x) else .error .illegalField) := rfl

theorem arm79 (g : Guard) (d a b : Reg) (rest : BitVec 40) : decodeG3 ⟨0x79#8, g, d, a, b, rest⟩ = (
    decodeX ⟨0x79#8, g, d, a, b, rest⟩ fun fn x =>
    if fn.toNat < 2 then .ok (.vpack (fn == 1) x) else .error .illegalField) := rfl

theorem arm7A (g : Guard) (d a b : Reg) (rest : BitVec 40) : decodeG3 ⟨0x7A#8, g, d, a, b, rest⟩ = (
    decodeX ⟨0x7A#8, g, d, a, b, rest⟩ fun fn x =>
    if fn.toNat < 2 then .ok (.vunpk (fn == 1) x) else .error .illegalField) := rfl

theorem arm7D (g : Guard) (d a b : Reg) (rest : BitVec 40) : decodeG3 ⟨0x7D#8, g, d, a, b, rest⟩ = (
    decodeX ⟨0x7D#8, g, d, a, b, rest⟩ fun fn x =>
    select (VbitFn.ofCode fn) fun f => .ok (.vbit f x)) := rfl

theorem arm7E (g : Guard) (d a b : Reg) (rest : BitVec 40) : decodeG3 ⟨0x7E#8, g, d, a, b, rest⟩ = (
    decodeX ⟨0x7E#8, g, d, a, b, rest⟩ fun fn x =>
    select (MaskFn.ofCode fn) fun f => .ok (.vmask f x)) := rfl

theorem arm85 (g : Guard) (d a b : Reg) (rest : BitVec 40) : decodeG4 ⟨0x85#8, g, d, a, b, rest⟩ = (
    decodeX ⟨0x85#8, g, d, a, b, rest⟩ fun fn x =>
    let two (k : Bool → XF → Instr) : Decoded := if fn.toNat < 2 then .ok (k (fn == 1) x) else .error .illegalField
    two .macc) := rfl

theorem arm8A (g : Guard) (d a b : Reg) (rest : BitVec 40) : decodeG4 ⟨0x8A#8, g, d, a, b, rest⟩ = (
    decodeX ⟨0x8A#8, g, d, a, b, rest⟩ fun fn x =>
    let two (k : Bool → XF → Instr) : Decoded := if fn.toNat < 2 then .ok (k (fn == 1) x) else .error .illegalField
    two .mtkr) := rfl

theorem arm8C (g : Guard) (d a b : Reg) (rest : BitVec 40) : decodeG4 ⟨0x8C#8, g, d, a, b, rest⟩ = (
    decodeX ⟨0x8C#8, g, d, a, b, rest⟩ fun fn x =>
    let two (k : Bool → XF → Instr) : Decoded := if fn.toNat < 2 then .ok (k (fn == 1) x) else .error .illegalField
    two .mspm) := rfl

theorem arm91 (g : Guard) (d a b : Reg) (rest : BitVec 40) : decodeG4 ⟨0x91#8, g, d, a, b, rest⟩ = (
    decodeX ⟨0x91#8, g, d, a, b, rest⟩ fun fn x =>
    let two (k : Bool → XF → Instr) : Decoded := if fn.toNat < 2 then .ok (k (fn == 1) x) else .error .illegalField
    two .mstat) := rfl

theorem armA6 (g : Guard) (d a b : Reg) (rest : BitVec 40) : decodeG5 ⟨0xA6#8, g, d, a, b, rest⟩ = (
    let q := RestM.of rest
    select (MemOrd.ofCode q.ord) fun ord =>
    let mf (md : BitVec 5) : MF :=
      { g := g, d := d, a := a, b := b, alc := q.alc, scp := q.scp, ord := ord, md := md, tix := q.tix, off := q.off }
    let at' (k : AtomFn → MF → Instr) : Decoded :=
      select (AtomFn.ofCode (cut q.md.toNat 0 4)) fun f => .ok (k f (mf (BitVec.ofNat 5 (q.md.toNat / 16 * 16))))
    at' .atom) := rfl

theorem armA7 (g : Guard) (d a b : Reg) (rest : BitVec 40) : decodeG5 ⟨0xA7#8, g, d, a, b, rest⟩ = (
    let q := RestM.of rest
    select (MemOrd.ofCode q.ord) fun ord =>
    let mf (md : BitVec 5) : MF :=
      { g := g, d := d, a := a, b := b, alc := q.alc, scp := q.scp, ord := ord, md := md, tix := q.tix, off := q.off }
    let at' (k : AtomFn → MF → Instr) : Decoded :=
      select (AtomFn.ofCode (cut q.md.toNat 0 4)) fun f => .ok (k f (mf (BitVec.ofNat 5 (q.md.toNat / 16 * 16))))
    at' .vatom) := rfl

theorem armC0 (g : Guard) (d a b : Reg) (rest : BitVec 40) : decodeG6 ⟨0xC0#8, g, d, a, b, rest⟩ = (
    let q := RestI.of rest
    let x : SF := { g := g, d := d, a := a, b := b, rt := cut q.imm.toNat 0 9, hi := cut q.imm.toNat 9 23 }
    let fns (l : List (SF → Instr)) : Decoded :=
      match l[q.fn.toNat]? with
      | some k => .ok (k x)
      | none => .error .illegalField
    fns [.pplace false, .pplace true]) := rfl

theorem armC4 (g : Guard) (d a b : Reg) (rest : BitVec 40) : decodeG6 ⟨0xC4#8, g, d, a, b, rest⟩ = (
    let q := RestI.of rest
    let x : SF := { g := g, d := d, a := a, b := b, rt := cut q.imm.toNat 0 9, hi := cut q.imm.toNat 9 23 }
    let fns (l : List (SF → Instr)) : Decoded :=
      match l[q.fn.toNat]? with
      | some k => .ok (k x)
      | none => .error .illegalField
    fns [.lnch false, .lnch true]) := rfl

theorem armC8 (g : Guard) (d a b : Reg) (rest : BitVec 40) : decodeG6 ⟨0xC8#8, g, d, a, b, rest⟩ = (
    let q := RestI.of rest
    let x : SF := { g := g, d := d, a := a, b := b, rt := cut q.imm.toNat 0 9, hi := cut q.imm.toNat 9 23 }
    let fns (l : List (SF → Instr)) : Decoded :=
      match l[q.fn.toNat]? with
      | some k => .ok (k x)
      | none => .error .illegalField
    fns [.cred 0, .cred 1, .cred 2, .cred 3]) := rfl

theorem armC9 (g : Guard) (d a b : Reg) (rest : BitVec 40) : decodeG6 ⟨0xC9#8, g, d, a, b, rest⟩ = (
    let q := RestI.of rest
    let x : SF := { g := g, d := d, a := a, b := b, rt := cut q.imm.toNat 0 9, hi := cut q.imm.toNat 9 23 }
    let fns (l : List (SF → Instr)) : Decoded :=
      match l[q.fn.toNat]? with
      | some k => .ok (k x)
      | none => .error .illegalField
    fns [.cstat false, .cstat true]) := rfl

/-! ### One lemma per instruction -/

/-- The word of a well-formed instruction has the instruction's form. -/
def Form.Statement (i : Instr) : Prop := i.isWord = true → i.wellFormed = true → decodeForm (encode i) = .ok i

theorem Form.nop (g) : Form.Statement (.nop g) := by
  intro _ _
  have he : encode (.nop g) = wordR 0x00 g 0 0 0 0 0 := rfl
  rw [he, wordR, dG0 _ 0x00#8 rfl (by decide)]
  dsimp only [decodeG0, BitVec.reduceToNat]
  rw [RestR.of_bits]; rfl

theorem Form.add (g) (d) (a) (b) : Form.Statement (.add g d a b) := by
  intro _ _
  have he : encode (.add g d a b) = wordR 0x01 g d a b 0 0 := rfl
  rw [he, wordR, dG0 _ 0x01#8 rfl (by decide)]
  dsimp only [decodeG0, BitVec.reduceToNat]
  rw [RestR.of_bits]; rfl

theorem Form.sub (g) (d) (a) (b) : Form.Statement (.sub g d a b) := by
  intro _ _
  have he : encode (.sub g d a b) = wordR 0x02 g d a b 0 0 := rfl
  rw [he, wordR, dG0 _ 0x02#8 rfl (by decide)]
  dsimp only [decodeG0, BitVec.reduceToNat]
  rw [RestR.of_bits]; rfl

theorem Form.mul (g) (d) (a) (b) : Form.Statement (.mul g d a b) := by
  intro _ _
  have he : encode (.mul g d a b) = wordR 0x03 g d a b 0 0 := rfl
  rw [he, wordR, dG0 _ 0x03#8 rfl (by decide)]
  dsimp only [decodeG0, BitVec.reduceToNat]
  rw [RestR.of_bits]; rfl

theorem Form.mulh (g) (d) (a) (b) : Form.Statement (.mulh g d a b) := by
  intro _ _
  have he : encode (.mulh g d a b) = wordR 0x04 g d a b 0 0 := rfl
  rw [he, wordR, dG0 _ 0x04#8 rfl (by decide)]
  dsimp only [decodeG0, BitVec.reduceToNat]
  rw [RestR.of_bits]; rfl

theorem Form.mulhn (g) (d) (a) (b) : Form.Statement (.mulhn g d a b) := by
  intro _ _
  have he : encode (.mulhn g d a b) = wordR 0x05 g d a b 0 0 := rfl
  rw [he, wordR, dG0 _ 0x05#8 rfl (by decide)]
  dsimp only [decodeG0, BitVec.reduceToNat]
  rw [RestR.of_bits]; rfl

theorem Form.div (g) (d) (a) (b) : Form.Statement (.div g d a b) := by
  intro _ _
  have he : encode (.div g d a b) = wordR 0x06 g d a b 0 0 := rfl
  rw [he, wordR, dG0 _ 0x06#8 rfl (by decide)]
  dsimp only [decodeG0, BitVec.reduceToNat]
  rw [RestR.of_bits]; rfl

theorem Form.divn (g) (d) (a) (b) : Form.Statement (.divn g d a b) := by
  intro _ _
  have he : encode (.divn g d a b) = wordR 0x07 g d a b 0 0 := rfl
  rw [he, wordR, dG0 _ 0x07#8 rfl (by decide)]
  dsimp only [decodeG0, BitVec.reduceToNat]
  rw [RestR.of_bits]; rfl

theorem Form.rem (g) (d) (a) (b) : Form.Statement (.rem g d a b) := by
  intro _ _
  have he : encode (.rem g d a b) = wordR 0x08 g d a b 0 0 := rfl
  rw [he, wordR, dG0 _ 0x08#8 rfl (by decide)]
  dsimp only [decodeG0, BitVec.reduceToNat]
  rw [RestR.of_bits]; rfl

theorem Form.remn (g) (d) (a) (b) : Form.Statement (.remn g d a b) := by
  intro _ _
  have he : encode (.remn g d a b) = wordR 0x09 g d a b 0 0 := rfl
  rw [he, wordR, dG0 _ 0x09#8 rfl (by decide)]
  dsimp only [decodeG0, BitVec.reduceToNat]
  rw [RestR.of_bits]; rfl

theorem Form.and (g) (d) (a) (b) : Form.Statement (.and g d a b) := by
  intro _ _
  have he : encode (.and g d a b) = wordR 0x0A g d a b 0 0 := rfl
  rw [he, wordR, dG0 _ 0x0A#8 rfl (by decide)]
  dsimp only [decodeG0, BitVec.reduceToNat]
  rw [RestR.of_bits]; rfl

theorem Form.or (g) (d) (a) (b) : Form.Statement (.or g d a b) := by
  intro _ _
  have he : encode (.or g d a b) = wordR 0x0B g d a b 0 0 := rfl
  rw [he, wordR, dG0 _ 0x0B#8 rfl (by decide)]
  dsimp only [decodeG0, BitVec.reduceToNat]
  rw [RestR.of_bits]; rfl

theorem Form.xor (g) (d) (a) (b) : Form.Statement (.xor g d a b) := by
  intro _ _
  have he : encode (.xor g d a b) = wordR 0x0C g d a b 0 0 := rfl
  rw [he, wordR, dG0 _ 0x0C#8 rfl (by decide)]
  dsimp only [decodeG0, BitVec.reduceToNat]
  rw [RestR.of_bits]; rfl

theorem Form.andn (g) (d) (a) (b) : Form.Statement (.andn g d a b) := by
  intro _ _
  have he : encode (.andn g d a b) = wordR 0x0D g d a b 0 0 := rfl
  rw [he, wordR, dG0 _ 0x0D#8 rfl (by decide)]
  dsimp only [decodeG0, BitVec.reduceToNat]
  rw [RestR.of_bits]; rfl

theorem Form.shl (g) (d) (a) (b) : Form.Statement (.shl g d a b) := by
  intro _ _
  have he : encode (.shl g d a b) = wordR 0x0E g d a b 0 0 := rfl
  rw [he, wordR, dG0 _ 0x0E#8 rfl (by decide)]
  dsimp only [decodeG0, BitVec.reduceToNat]
  rw [RestR.of_bits]; rfl

theorem Form.shr (g) (d) (a) (b) : Form.Statement (.shr g d a b) := by
  intro _ _
  have he : encode (.shr g d a b) = wordR 0x0F g d a b 0 0 := rfl
  rw [he, wordR, dG0 _ 0x0F#8 rfl (by decide)]
  dsimp only [decodeG0, BitVec.reduceToNat]
  rw [RestR.of_bits]; rfl

theorem Form.sra (g) (d) (a) (b) : Form.Statement (.sra g d a b) := by
  intro _ _
  have he : encode (.sra g d a b) = wordR 0x10 g d a b 0 0 := rfl
  rw [he, wordR, dG0 _ 0x10#8 rfl (by decide)]
  dsimp only [decodeG0, BitVec.reduceToNat]
  rw [RestR.of_bits]; rfl

theorem Form.rotl (g) (d) (a) (b) : Form.Statement (.rotl g d a b) := by
  intro _ _
  have he : encode (.rotl g d a b) = wordR 0x11 g d a b 0 0 := rfl
  rw [he, wordR, dG0 _ 0x11#8 rfl (by decide)]
  dsimp only [decodeG0, BitVec.reduceToNat]
  rw [RestR.of_bits]; rfl

theorem Form.min (g) (d) (a) (b) : Form.Statement (.min g d a b) := by
  intro _ _
  have he : encode (.min g d a b) = wordR 0x12 g d a b 0 0 := rfl
  rw [he, wordR, dG0 _ 0x12#8 rfl (by decide)]
  dsimp only [decodeG0, BitVec.reduceToNat]
  rw [RestR.of_bits]; rfl

theorem Form.max (g) (d) (a) (b) : Form.Statement (.max g d a b) := by
  intro _ _
  have he : encode (.max g d a b) = wordR 0x13 g d a b 0 0 := rfl
  rw [he, wordR, dG0 _ 0x13#8 rfl (by decide)]
  dsimp only [decodeG0, BitVec.reduceToNat]
  rw [RestR.of_bits]; rfl

theorem Form.minn (g) (d) (a) (b) : Form.Statement (.minn g d a b) := by
  intro _ _
  have he : encode (.minn g d a b) = wordR 0x14 g d a b 0 0 := rfl
  rw [he, wordR, dG0 _ 0x14#8 rfl (by decide)]
  dsimp only [decodeG0, BitVec.reduceToNat]
  rw [RestR.of_bits]; rfl

theorem Form.maxn (g) (d) (a) (b) : Form.Statement (.maxn g d a b) := by
  intro _ _
  have he : encode (.maxn g d a b) = wordR 0x15 g d a b 0 0 := rfl
  rw [he, wordR, dG0 _ 0x15#8 rfl (by decide)]
  dsimp only [decodeG0, BitVec.reduceToNat]
  rw [RestR.of_bits]; rfl

theorem Form.bitop (g) (fn) (d) (a) : Form.Statement (.bitop g fn d a) := by
  intro _ _
  have he : encode (.bitop g fn d a) = wordR 0x16 g d a 0 0 fn.code := rfl
  rw [he, wordR, dG0 _ 0x16#8 rfl (by decide)]
  dsimp only [decodeG0, BitVec.reduceToNat]
  rw [RestR.of_bits]
  simp only [select, accept, BitopFn.ofCode_code]; rfl

theorem Form.bfx (g) (d) (a) (lsb) (w) (sx) : Form.Statement (.bfx g d a lsb w sx) := by
  intro _ _
  have he : encode (.bfx g d a lsb w sx) = wordI 0x17 g d a 0 0 (bfImm lsb w sx) := rfl
  rw [he, wordI, dG0 _ 0x17#8 rfl (by decide)]
  refine (arm17 _ _ _ _ _).trans ?_
  try dsimp only
  rw [RestI.of_bits]
  dsimp only
  refine (if_pos (show _ = true from rfl)).trans ?_
  rw [bfImm_lsb, bfImm_w, bfImm_sx]
  exact acceptOk (bfImm_lt lsb w sx)

theorem Form.bfi (g) (d) (a) (lsb) (w) : Form.Statement (.bfi g d a lsb w) := by
  intro _ _
  have he : encode (.bfi g d a lsb w) = wordI 0x18 g d a 0 0 (bfImm lsb w false) := rfl
  rw [he, wordI, dG0 _ 0x18#8 rfl (by decide)]
  refine (arm18 _ _ _ _ _).trans ?_
  try dsimp only
  rw [RestI.of_bits]
  dsimp only
  refine (if_pos (show _ = true from rfl)).trans ?_
  rw [bfImm_lsb, bfImm_w]
  exact acceptOk (bfImm_lt' lsb w)

theorem Form.sel (g) (d) (a) (b) (p) : Form.Statement (.sel g d a b p) := by
  intro _ _
  have he : encode (.sel g d a b p) = wordR 0x19 g d a b (predField p) 0 := rfl
  rw [he, wordR, dG0 _ 0x19#8 rfl (by decide)]
  dsimp only [decodeG0, BitVec.reduceToNat]
  rw [RestR.of_bits]
  simp only [accept, predOk_field, predOf_field]; rfl

theorem Form.movi (g) (hi) (d) (imm) : Form.Statement (.movi g hi d imm) := by
  intro _ _
  have he : encode (.movi g hi d imm) = wordI 0x1A g d 0 0 (fnBit hi) imm := rfl
  rw [he, wordI, dG0 _ 0x1A#8 rfl (by decide)]
  refine (arm1A _ _ _ _ _).trans ?_
  try dsimp only
  rw [RestI.of_bits]
  dsimp only
  rw [if_pos (fnBit_lt hi), fnBit_eq]; rfl

theorem Form.addi (g) (d) (a) (imm) : Form.Statement (.addi g d a imm) := by
  intro _ _
  have he : encode (.addi g d a imm) = wordI 0x1B g d a 0 0 imm := rfl
  rw [he, wordI, dG0 _ 0x1B#8 rfl (by decide)]
  dsimp only [decodeG0, BitVec.reduceToNat]
  rw [RestI.of_bits]; rfl

theorem Form.logi (g) (fn) (d) (a) (imm) : Form.Statement (.logi g fn d a imm) := by
  intro _ _
  have he : encode (.logi g fn d a imm) = wordI 0x1C g d a 0 fn.code imm := rfl
  rw [he, wordI, dG0 _ 0x1C#8 rfl (by decide)]
  dsimp only [decodeG0, BitVec.reduceToNat]
  rw [RestI.of_bits]
  simp only [select, accept, LogFn.ofCode_code]; rfl

theorem Form.shfi (g) (fn) (d) (a) (n) : Form.Statement (.shfi g fn d a n) := by
  intro _ _
  have he : encode (.shfi g fn d a n) = wordI 0x1D g d a 0 fn.code (BitVec.ofNat 32 n.toNat) := rfl
  rw [he, wordI, dG0 _ 0x1D#8 rfl (by decide)]
  refine (arm1D _ _ _ _ _).trans ?_
  try dsimp only
  rw [RestI.of_bits]
  dsimp only
  rw [ShFn.ofCode_code]
  dsimp only [select]
  rw [zext_toNat n (by decide), cut_self]
  exact acceptOk (below n.isLt)

theorem Form.cmp (g) (c) (p) (a) (b) : Form.Statement (.cmp g c p a b) := by
  intro _ _
  have he : encode (.cmp g c p a b) = wordR 0x1E g (predField p) a b 0 c.code := rfl
  rw [he, wordR, dG0 _ 0x1E#8 rfl (by decide)]
  dsimp only [decodeG0, BitVec.reduceToNat]
  rw [RestR.of_bits]
  simp only [select, accept, Cond.ofCode_code, predOk_field, predOf_field]; rfl

theorem Form.cmpi (g) (c) (p) (a) (imm) : Form.Statement (.cmpi g c p a imm) := by
  intro _ _
  have he : encode (.cmpi g c p a imm) = wordI 0x1F g (predField p) a 0 c.code imm := rfl
  rw [he, wordI, dG0 _ 0x1F#8 rfl (by decide)]
  dsimp only [decodeG0, BitVec.reduceToNat]
  rw [RestI.of_bits]
  simp only [select, accept, Cond.ofCode_code, predOk_field, predOf_field]; rfl

theorem Form.fadd (g) (pr) (rnd) (d) (a) (b) : Form.Statement (.fadd g pr rnd d a b) := by
  intro _ _
  have he : encode (.fadd g pr rnd d a b) = wordR 0x20 g d a b 0 (floatFn pr rnd.code 0) := rfl
  rw [he, wordR, dG1 _ 0x20#8 rfl (by decide)]
  dsimp only [decodeG1, BitVec.reduceToNat]
  rw [RestR.of_bits, FloatFn.of_floatFn _ _ _ (by decide)]
  dsimp only
  rw [Rnd.ofCode_code]; rfl

theorem Form.fsub (g) (pr) (rnd) (d) (a) (b) : Form.Statement (.fsub g pr rnd d a b) := by
  intro _ _
  have he : encode (.fsub g pr rnd d a b) = wordR 0x21 g d a b 0 (floatFn pr rnd.code 0) := rfl
  rw [he, wordR, dG1 _ 0x21#8 rfl (by decide)]
  dsimp only [decodeG1, BitVec.reduceToNat]
  rw [RestR.of_bits, FloatFn.of_floatFn _ _ _ (by decide)]
  dsimp only
  rw [Rnd.ofCode_code]; rfl

theorem Form.fmul (g) (pr) (rnd) (d) (a) (b) : Form.Statement (.fmul g pr rnd d a b) := by
  intro _ _
  have he : encode (.fmul g pr rnd d a b) = wordR 0x22 g d a b 0 (floatFn pr rnd.code 0) := rfl
  rw [he, wordR, dG1 _ 0x22#8 rfl (by decide)]
  dsimp only [decodeG1, BitVec.reduceToNat]
  rw [RestR.of_bits, FloatFn.of_floatFn _ _ _ (by decide)]
  dsimp only
  rw [Rnd.ofCode_code]; rfl

theorem Form.fma (g) (pr) (rnd) (d) (a) (b) (c) : Form.Statement (.fma g pr rnd d a b c) := by
  intro _ _
  have he : encode (.fma g pr rnd d a b c) = wordR 0x23 g d a b c (floatFn pr rnd.code 0) := rfl
  rw [he, wordR, dG1 _ 0x23#8 rfl (by decide)]
  dsimp only [decodeG1, BitVec.reduceToNat]
  rw [RestR.of_bits, FloatFn.of_floatFn _ _ _ (by decide)]
  dsimp only
  rw [Rnd.ofCode_code]; rfl

theorem Form.fmin (g) (pr) (d) (a) (b) : Form.Statement (.fmin g pr d a b) := by
  intro _ _
  have he : encode (.fmin g pr d a b) = wordR 0x24 g d a b 0 (floatFn pr 0 0) := rfl
  rw [he, wordR, dG1 _ 0x24#8 rfl (by decide)]
  dsimp only [decodeG1, BitVec.reduceToNat]
  rw [RestR.of_bits, FloatFn.of_floatFn _ _ _ (by decide)]; rfl

theorem Form.fmax (g) (pr) (d) (a) (b) : Form.Statement (.fmax g pr d a b) := by
  intro _ _
  have he : encode (.fmax g pr d a b) = wordR 0x25 g d a b 0 (floatFn pr 0 0) := rfl
  rw [he, wordR, dG1 _ 0x25#8 rfl (by decide)]
  dsimp only [decodeG1, BitVec.reduceToNat]
  rw [RestR.of_bits, FloatFn.of_floatFn _ _ _ (by decide)]; rfl

theorem Form.fdiv (g) (pr) (rnd) (d) (a) (b) : Form.Statement (.fdiv g pr rnd d a b) := by
  intro _ _
  have he : encode (.fdiv g pr rnd d a b) = wordR 0x26 g d a b 0 (floatFn pr rnd.code 0) := rfl
  rw [he, wordR, dG1 _ 0x26#8 rfl (by decide)]
  dsimp only [decodeG1, BitVec.reduceToNat]
  rw [RestR.of_bits, FloatFn.of_floatFn _ _ _ (by decide)]
  dsimp only
  rw [Rnd.ofCode_code]; rfl

theorem Form.fsqrt (g) (pr) (rnd) (d) (a) : Form.Statement (.fsqrt g pr rnd d a) := by
  intro _ _
  have he : encode (.fsqrt g pr rnd d a) = wordR 0x27 g d a 0 0 (floatFn pr rnd.code 0) := rfl
  rw [he, wordR, dG1 _ 0x27#8 rfl (by decide)]
  dsimp only [decodeG1, BitVec.reduceToNat]
  rw [RestR.of_bits, FloatFn.of_floatFn _ _ _ (by decide)]
  dsimp only
  rw [Rnd.ofCode_code]; rfl

theorem Form.fcmp (g) (pr) (c) (p) (a) (b) : Form.Statement (.fcmp g pr c p a b) := by
  intro _ _
  have he : encode (.fcmp g pr c p a b) = wordR 0x28 g (predField p) a b 0 (floatFn pr 0 c.code) := rfl
  rw [he, wordR, dG1 _ 0x28#8 rfl (by decide)]
  refine (arm28 _ _ _ _ _).trans ?_
  try dsimp only
  rw [RestR.of_bits]
  dsimp only
  rw [FloatFn.of_floatFn _ _ _ (FCond.code_lt c)]
  dsimp only
  refine (if_pos (show _ = true from rfl)).trans ?_
  rw [FCond.ofFn_code, predOk_field, predOf_field]; rfl

theorem Form.fcvt (g) (pr) (rnd) (fn) (d) (a) : Form.Statement (.fcvt g pr rnd fn d a) := by
  intro _ _
  have he : encode (.fcvt g pr rnd fn d a) = wordR 0x29 g d a 0 0 (floatFn pr rnd.code fn.code) := rfl
  rw [he, wordR, dG1 _ 0x29#8 rfl (by decide)]
  refine (arm29 _ _ _ _ _).trans ?_
  try dsimp only
  rw [RestR.of_bits]
  dsimp only
  rw [FloatFn.of_floatFn _ _ _ (CvtFn.code_lt fn)]
  dsimp only
  rw [CvtFn.ofFn_code, Rnd.ofCode_code]; rfl

theorem Form.fcls (g) (pr) (d) (a) : Form.Statement (.fcls g pr d a) := by
  intro _ _
  have he : encode (.fcls g pr d a) = wordR 0x2A g d a 0 0 (floatFn pr 0 0) := rfl
  rw [he, wordR, dG1 _ 0x2A#8 rfl (by decide)]
  dsimp only [decodeG1, BitVec.reduceToNat]
  rw [RestR.of_bits, FloatFn.of_floatFn _ _ _ (by decide)]; rfl

theorem Form.lea (g) (sh) (d) (a) (b) (imm) : Form.Statement (.lea g sh d a b imm) := by
  intro _ _
  have he : encode (.lea g sh d a b imm) = wordI 0x2B g d a b (BitVec.ofNat 8 sh.toNat) imm := rfl
  rw [he, wordI, dG1 _ 0x2B#8 rfl (by decide)]
  refine (arm2B _ _ _ _ _).trans ?_
  try dsimp only
  rw [RestI.of_bits]
  dsimp only
  rw [zext_toNat sh (by decide), if_pos sh.isLt, cut_self]

theorem Form.mhash (g) (n) (d) (a) (mult) : Form.Statement (.mhash g n d a mult) := by
  intro _ _
  have he : encode (.mhash g n d a mult) = wordI 0x2C g d a 0 (BitVec.ofNat 8 n.toNat) mult := rfl
  rw [he, wordI, dG1 _ 0x2C#8 rfl (by decide)]
  refine (arm2C _ _ _ _ _).trans ?_
  try dsimp only
  rw [RestI.of_bits]
  dsimp only
  rw [zext_toNat n (by decide), if_pos n.isLt, cut_self]; rfl

theorem Form.pop (g) (fn) (d) (a) (b) : Form.Statement (.pop g fn d a b) := by
  intro _ _
  have he : encode (.pop g fn d a b) = wordR 0x2D g (predField d) (predField a) (predField b) 0 fn.code := rfl
  rw [he, wordR, dG1 _ 0x2D#8 rfl (by decide)]
  dsimp only [decodeG1, BitVec.reduceToNat]
  rw [RestR.of_bits]
  simp only [select, accept, PopFn.ofCode_code, predOk_field, predOf_field]; rfl

theorem Form.pmov (g) (toPred) (r) : Form.Statement (.pmov g toPred r) := by
  intro _ _
  cases toPred with
  | false =>
    have he : encode (.pmov g false r) = wordR 0x2E g r 0 0 0 0 := rfl
    rw [he, wordR, dG1 _ 0x2E#8 rfl (by decide)]
    refine (arm2E _ _ _ _ _).trans ?_
    dsimp only
    rw [RestR.of_bits]; rfl
  | true =>
    have he : encode (.pmov g true r) = wordR 0x2E g 0 r 0 0 1 := rfl
    rw [he, wordR, dG1 _ 0x2E#8 rfl (by decide)]
    refine (arm2E _ _ _ _ _).trans ?_
    dsimp only
    rw [RestR.of_bits]; rfl

theorem Form.mfs (g) (d) (no) (c) : Form.Statement (.mfs g d no c) := by
  intro _ _
  have he : encode (.mfs g d no c) = wordI 0x2F g d 0 0 0 (BitVec.ofNat 32 (no.toNat + c.toNat * 2 ^ 16)) := rfl
  rw [he, wordI, dG1 _ 0x2F#8 rfl (by decide)]
  refine (arm2F _ _ _ _ _).trans ?_
  try dsimp only
  rw [RestI.of_bits]
  dsimp only
  refine (if_pos (show _ = true from rfl)).trans ?_
  rw [pair_toNat no c 16 rfl (by decide), pair_lo, pair_hi]
  exact acceptOk (below (pair_lt no c 16 19 (by decide)))

theorem Form.mts (g) (a) (no) (c) : Form.Statement (.mts g a no c) := by
  intro _ _
  have he : encode (.mts g a no c) = wordI 0x30 g 0 a 0 0 (BitVec.ofNat 32 (no.toNat + c.toNat * 2 ^ 16)) := rfl
  rw [he, wordI, dG1 _ 0x30#8 rfl (by decide)]
  refine (arm30 _ _ _ _ _).trans ?_
  try dsimp only
  rw [RestI.of_bits]
  dsimp only
  refine (if_pos (show _ = true from rfl)).trans ?_
  rw [pair_toNat no c 16 rfl (by decide), pair_lo, pair_hi]
  exact acceptOk (below (pair_lt no c 16 19 (by decide)))

theorem Form.clamp (g) (fn) (d) (a) (b) (c) : Form.Statement (.clamp g fn d a b c) := by
  intro _ _
  have he : encode (.clamp g fn d a b c) = wordR 0x31 g d a b c fn.code := rfl
  rw [he, wordR, dG1 _ 0x31#8 rfl (by decide)]
  dsimp only [decodeG1, BitVec.reduceToNat]
  rw [RestR.of_bits]
  simp only [select, accept, ClampFn.ofCode_code]; rfl

theorem Form.iabs (g) (neg) (d) (a) : Form.Statement (.iabs g neg d a) := by
  intro _ _
  have he : encode (.iabs g neg d a) = wordR 0x32 g d a 0 0 (fnBit neg) := rfl
  rw [he, wordR, dG1 _ 0x32#8 rfl (by decide)]
  refine (arm32 _ _ _ _ _).trans ?_
  try dsimp only
  rw [RestR.of_bits]
  dsimp only
  rw [if_pos (fnBit_lt neg), fnBit_eq]; rfl

theorem Form.ent (e) : Form.Statement (.ent e) := by
  intro _ _
  have he : encode (.ent e) = RawE.word { z1 := 0, arity := e.arity.code, slot := e.slot, len := e.len, zf := 0, feat := e.feat, pcls := e.pcls, alt := e.alt, z2 := 0 } := rfl
  rw [he, dEnt _ (RawE.word_opc _), decodeEnt, RawE.ofWord_word, Arity.ofCode_code]
  rfl

theorem Form.ldf (g) (side) (d) (a) (n) : Form.Statement (.ldf g side d a n) := by
  intro _ _
  have he : encode (.ldf g side d a n) = wordI 0x41 g d a 0 (fnBit side) (BitVec.ofNat 32 n.toNat) := rfl
  rw [he, wordI, dG2 _ 0x41#8 rfl (by decide) (by decide)]
  refine (arm41 _ _ _ _ _).trans ?_
  try dsimp only
  rw [RestI.of_bits]
  dsimp only
  rw [if_pos (fnBit_lt side), fnBit_eq, zext_toNat n (by decide), cut_self]
  exact acceptOk (below n.isLt)

theorem Form.stf (g) (d) (a) (n) : Form.Statement (.stf g d a n) := by
  intro _ _
  have he : encode (.stf g d a n) = wordI 0x42 g d a 0 0 (BitVec.ofNat 32 n.toNat) := rfl
  rw [he, wordI, dG2 _ 0x42#8 rfl (by decide) (by decide)]
  refine (arm42 _ _ _ _ _).trans ?_
  try dsimp only
  rw [RestI.of_bits]
  dsimp only
  refine (if_pos (show _ = true from rfl)).trans ?_
  rw [zext_toNat n (by decide), cut_self]
  exact acceptOk (below n.isLt)

theorem Form.fclr (g) (a) (n) (cnt) : Form.Statement (.fclr g a n cnt) := by
  intro _ _
  have he : encode (.fclr g a n cnt) = wordI 0x43 g 0 a 0 0 (BitVec.ofNat 32 (n.toNat + cnt.toNat * 2 ^ 8)) := rfl
  rw [he, wordI, dG2 _ 0x43#8 rfl (by decide) (by decide)]
  refine (arm43 _ _ _ _ _).trans ?_
  try dsimp only
  rw [RestI.of_bits]
  dsimp only
  refine (if_pos (show _ = true from rfl)).trans ?_
  rw [pair_toNat n cnt 8 rfl (by decide), pair_lo, pair_hi]
  exact acceptOk (below (pair_lt n cnt 8 16 (by decide)))

theorem Form.falloc (t) (c) (l) (u) : Form.Statement (.falloc t c l u) := by
  intro _ _
  have he : encode (.falloc t c l u) = wordT 0x44 t 0 0 (BitVec.ofNat 18 (c.toNat + l.toNat * 2 ^ 3 + flag u * 2 ^ 6)) := rfl
  rw [he, wordT, dG2 _ 0x44#8 rfl (by decide) (by decide)]
  refine (arm44 _ _ _ _ _).trans ?_
  try dsimp only
  rw [RestT.of_bits]
  dsimp only
  refine (if_pos (show _ = true from rfl)).trans ?_
  rw [fallocImm_c, fallocImm_l, fallocImm_u]
  exact acceptOk (fallocImm_lt c l u)

theorem Form.ffree (g) (a) : Form.Statement (.ffree g a) := by
  intro _ _
  have he : encode (.ffree g a) = wordR 0x45 g 0 a 0 0 0 := rfl
  rw [he, wordR, dG2 _ 0x45#8 rfl (by decide) (by decide)]
  dsimp only [decodeG2, BitVec.reduceToNat]
  rw [RestR.of_bits]; rfl

theorem Form.send (t) (k) (imm) : Form.Statement (.send t k imm) := by
  intro _ _
  have he : encode (.send t k imm) = wordT 0x46 t k.code 0 imm := rfl
  rw [he, wordT, dG2 _ 0x46#8 rfl (by decide) (by decide)]
  refine (arm46 _ _ _ _ _).trans ?_
  try dsimp only
  rw [RestT.of_bits]
  dsimp only
  refine (if_pos (show _ = true from rfl)).trans ?_
  rw [SendKind.ofCode_code]; rfl

theorem Form.sendc (t) (cop) (rank) : Form.Statement (.sendc t cop rank) := by
  intro _ _
  have he : encode (.sendc t cop rank) = wordT 0x47 t 0 0 (BitVec.ofNat 18 (cop.toNat + rank.toNat * 2 ^ 8)) := rfl
  rw [he, wordT, dG2 _ 0x47#8 rfl (by decide) (by decide)]
  refine (arm47 _ _ _ _ _).trans ?_
  try dsimp only
  rw [RestT.of_bits]
  dsimp only
  refine (if_pos (show _ = true from rfl)).trans ?_
  rw [pair_toNat cop rank 8 rfl (by decide), pair_lo, pair_hi]
  exact acceptOk (below1 (pair_lt cop rank 8 16 (by decide)))

theorem Form.sendx (t) (e) (imm) : Form.Statement (.sendx t e imm) := by
  intro _ _
  have he : encode (.sendx t e imm) = wordT 0x48 t 0 (BitVec.ofNat 9 e.toNat) imm := rfl
  rw [he, wordT, dG2 _ 0x48#8 rfl (by decide) (by decide)]
  refine (arm48 _ _ _ _ _).trans ?_
  try dsimp only
  rw [RestT.of_bits]
  dsimp only
  rw [zext_toNat e (by decide), cut_self]
  exact if_pos (below e.isLt)

theorem Form.swt (t) (t2) (p) : Form.Statement (.swt t t2 p) := by
  intro _ _
  have he : encode (.swt t t2 p) = wordT 0x49 t 0 t2 (BitVec.ofNat 18 p.toNat) := rfl
  rw [he, wordT, dG2 _ 0x49#8 rfl (by decide) (by decide)]
  refine (arm49 _ _ _ _ _).trans ?_
  try dsimp only
  rw [RestT.of_bits]
  dsimp only
  refine (if_pos (show _ = true from rfl)).trans ?_
  rw [zext_toNat p (by decide), cut_self]
  exact acceptOk (below1 p.isLt)

theorem Form.sendm (t) (t2) (imm) : Form.Statement (.sendm t t2 imm) := by
  intro _ _
  have he : encode (.sendm t t2 imm) = wordT 0x4A t 0 t2 imm := rfl
  rw [he, wordT, dG2 _ 0x4A#8 rfl (by decide) (by decide)]
  refine (arm4A _ _ _ _ _).trans ?_
  try dsimp only
  rw [RestT.of_bits]
  dsimp only
  exact if_pos rfl

theorem Form.wadv (g) (d) : Form.Statement (.wadv g d) := by
  intro _ _
  have he : encode (.wadv g d) = wordR 0x4B g d 0 0 0 0 := rfl
  rw [he, wordR, dG2 _ 0x4B#8 rfl (by decide) (by decide)]
  dsimp only [decodeG2, BitVec.reduceToNat]
  rw [RestR.of_bits]; rfl

theorem Form.endH (g) : Form.Statement (.endH g) := by
  intro _ _
  have he : encode (.endH g) = wordR 0x4C g 0 0 0 0 0 := rfl
  rw [he, wordR, dG2 _ 0x4C#8 rfl (by decide) (by decide)]
  dsimp only [decodeG2, BitVec.reduceToNat]
  rw [RestR.of_bits]; rfl

theorem Form.join (t) : Form.Statement (.join t) := by
  intro _ _
  have he : encode (.join t) = wordT 0x4D t 0 0 0 := rfl
  rw [he, wordT, dG2 _ 0x4D#8 rfl (by decide) (by decide)]
  refine (arm4D _ _ _ _ _).trans ?_
  try dsimp only
  rw [RestT.of_bits]
  dsimp only
  refine (if_pos (show _ = true from rfl)).trans ?_
  exact acceptOk rfl

theorem Form.leave (t) : Form.Statement (.leave t) := by
  intro _ _
  have he : encode (.leave t) = wordT 0x4E t 0 0 0 := rfl
  rw [he, wordT, dG2 _ 0x4E#8 rfl (by decide) (by decide)]
  refine (arm4E _ _ _ _ _).trans ?_
  try dsimp only
  rw [RestT.of_bits]
  dsimp only
  refine (if_pos (show _ = true from rfl)).trans ?_
  exact acceptOk rfl

theorem Form.arrive (t) (sc) : Form.Statement (.arrive t sc) := by
  intro _ _
  have he : encode (.arrive t sc) = wordT 0x4F t 0 0 (BitVec.ofNat 18 sc.toNat) := rfl
  rw [he, wordT, dG2 _ 0x4F#8 rfl (by decide) (by decide)]
  refine (arm4F _ _ _ _ _).trans ?_
  try dsimp only
  rw [RestT.of_bits]
  dsimp only
  refine (if_pos (show _ = true from rfl)).trans ?_
  rw [zext_toNat sc (by decide), cut_self]
  exact acceptOk (below1 sc.isLt)

theorem Form.wait (t) : Form.Statement (.wait t) := by
  intro _ _
  have he : encode (.wait t) = wordT 0x50 t 0 0 0 := rfl
  rw [he, wordT, dG2 _ 0x50#8 rfl (by decide) (by decide)]
  refine (arm50 _ _ _ _ _).trans ?_
  try dsimp only
  rw [RestT.of_bits]
  dsimp only
  refine (if_pos (show _ = true from rfl)).trans ?_
  exact acceptOk rfl

theorem Form.halloc (t) (k) : Form.Statement (.halloc t k) := by
  intro _ _
  have he : encode (.halloc t k) = wordT 0x51 t 0 0 (BitVec.ofNat 18 k.toNat) := rfl
  rw [he, wordT, dG2 _ 0x51#8 rfl (by decide) (by decide)]
  refine (arm51 _ _ _ _ _).trans ?_
  try dsimp only
  rw [RestT.of_bits]
  dsimp only
  refine (if_pos (show _ = true from rfl)).trans ?_
  rw [zext_toNat k (by decide), cut_self]
  exact acceptOk (below1 k.isLt)

theorem Form.hinc (g) (a) : Form.Statement (.hinc g a) := by
  intro _ _
  have he : encode (.hinc g a) = wordR 0x52 g 0 a 0 0 0 := rfl
  rw [he, wordR, dG2 _ 0x52#8 rfl (by decide) (by decide)]
  dsimp only [decodeG2, BitVec.reduceToNat]
  rw [RestR.of_bits]; rfl

theorem Form.hdec (g) (a) : Form.Statement (.hdec g a) := by
  intro _ _
  have he : encode (.hdec g a) = wordR 0x53 g 0 a 0 0 0 := rfl
  rw [he, wordR, dG2 _ 0x53#8 rfl (by decide) (by decide)]
  dsimp only [decodeG2, BitVec.reduceToNat]
  rw [RestR.of_bits]; rfl

theorem Form.hinfo (t) (s) : Form.Statement (.hinfo t s) := by
  intro _ _
  have he : encode (.hinfo t s) = wordT 0x54 t 0 0 (if s then 1 else 0) := rfl
  rw [he, wordT, dG2 _ 0x54#8 rfl (by decide) (by decide)]
  refine (arm54 _ _ _ _ _).trans ?_
  try dsimp only
  rw [RestT.of_bits]
  dsimp only
  cases s <;> rfl

theorem Form.trap (g) (imm) : Form.Statement (.trap g imm) := by
  intro _ _
  have he : encode (.trap g imm) = wordI 0x55 g 0 0 0 0 imm := rfl
  rw [he, wordI, dG2 _ 0x55#8 rfl (by decide) (by decide)]
  dsimp only [decodeG2, BitVec.reduceToNat]
  rw [RestI.of_bits]; rfl

theorem Form.brk (g) (imm) : Form.Statement (.brk g imm) := by
  intro _ _
  have he : encode (.brk g imm) = wordI 0x56 g 0 0 0 0 imm := rfl
  rw [he, wordI, dG2 _ 0x56#8 rfl (by decide) (by decide)]
  dsimp only [decodeG2, BitVec.reduceToNat]
  rw [RestI.of_bits]; rfl

theorem Form.sys (t) (sv) : Form.Statement (.sys t sv) := by
  intro _ _
  have he : encode (.sys t sv) = wordT 0x57 t 0 0 sv := rfl
  rw [he, wordT, dG2 _ 0x57#8 rfl (by decide) (by decide)]
  refine (arm57 _ _ _ _ _).trans ?_
  try dsimp only
  rw [RestT.of_bits]
  dsimp only
  refine (if_pos (show _ = true from rfl)).trans ?_
  exact acceptOk (below1 sv.isLt)

theorem Form.resmGo (g) (a) : Form.Statement (.resmGo g a) := by
  intro _ _
  have he : encode (.resmGo g a) = wordR 0x58 g 0 a 0 0 0 := rfl
  rw [he, wordR, dG2 _ 0x58#8 rfl (by decide) (by decide)]
  dsimp only [decodeG2, BitVec.reduceToNat]
  rw [RestR.of_bits]; rfl

theorem Form.resmDrop (g) (a) : Form.Statement (.resmDrop g a) := by
  intro _ _
  have he : encode (.resmDrop g a) = wordR 0x58 g 0 a 0 0 1 := rfl
  rw [he, wordR, dG2 _ 0x58#8 rfl (by decide) (by decide)]
  dsimp only [decodeG2, BitVec.reduceToNat]
  rw [RestR.of_bits]; rfl

theorem Form.resmStep (g) (a) : Form.Statement (.resmStep g a) := by
  intro _ _
  have he : encode (.resmStep g a) = wordR 0x58 g 0 a 0 0 2 := rfl
  rw [he, wordR, dG2 _ 0x58#8 rfl (by decide) (by decide)]
  dsimp only [decodeG2, BitVec.reduceToNat]
  rw [RestR.of_bits]; rfl

theorem Form.psn (g) (fn) : Form.Statement (.psn g fn) := by
  intro _ _
  cases fn with
  | test d =>
    have he : encode (.psn g (.test d)) = wordR 0x59 g (predField d) 0 0 0 0 := rfl
    rw [he, wordR, dG2 _ 0x59#8 rfl (by decide) (by decide)]
    refine (arm59 _ _ _ _ _).trans ?_
    dsimp only
    rw [RestR.of_bits, predOk_field, predOf_field]; rfl
  | set =>
    have he : encode (.psn g .set) = wordR 0x59 g 0 0 0 0 1 := rfl
    rw [he, wordR, dG2 _ 0x59#8 rfl (by decide) (by decide)]
    refine (arm59 _ _ _ _ _).trans ?_
    dsimp only
    rw [RestR.of_bits]; rfl
  | clr =>
    have he : encode (.psn g .clr) = wordR 0x59 g 0 0 0 0 2 := rfl
    rw [he, wordR, dG2 _ 0x59#8 rfl (by decide) (by decide)]
    refine (arm59 _ _ _ _ _).trans ?_
    dsimp only
    rw [RestR.of_bits]; rfl

theorem Form.vadd (x) : Form.Statement (.vadd x) := by
  intro _ _
  have he : encode (.vadd x) = wordX 0x60 0 x := rfl
  rw [he, wordX, dG3 _ 0x60#8 rfl (by decide)]
  rw [decodeG3, decodeX_word]; rfl

theorem Form.vsub (x) : Form.Statement (.vsub x) := by
  intro _ _
  have he : encode (.vsub x) = wordX 0x61 0 x := rfl
  rw [he, wordX, dG3 _ 0x61#8 rfl (by decide)]
  rw [decodeG3, decodeX_word]; rfl

theorem Form.vmul (x) : Form.Statement (.vmul x) := by
  intro _ _
  have he : encode (.vmul x) = wordX 0x62 0 x := rfl
  rw [he, wordX, dG3 _ 0x62#8 rfl (by decide)]
  rw [decodeG3, decodeX_word]; rfl

theorem Form.vfma (x) : Form.Statement (.vfma x) := by
  intro _ _
  have he : encode (.vfma x) = wordX 0x63 0 x := rfl
  rw [he, wordX, dG3 _ 0x63#8 rfl (by decide)]
  rw [decodeG3, decodeX_word]; rfl

theorem Form.vmin (x) : Form.Statement (.vmin x) := by
  intro _ _
  have he : encode (.vmin x) = wordX 0x64 0 x := rfl
  rw [he, wordX, dG3 _ 0x64#8 rfl (by decide)]
  rw [decodeG3, decodeX_word]; rfl

theorem Form.vmax (x) : Form.Statement (.vmax x) := by
  intro _ _
  have he : encode (.vmax x) = wordX 0x65 0 x := rfl
  rw [he, wordX, dG3 _ 0x65#8 rfl (by decide)]
  rw [decodeG3, decodeX_word]; rfl

theorem Form.vabs (x) : Form.Statement (.vabs x) := by
  intro _ _
  have he : encode (.vabs x) = wordX 0x66 0 x := rfl
  rw [he, wordX, dG3 _ 0x66#8 rfl (by decide)]
  rw [decodeG3, decodeX_word]; rfl

theorem Form.vneg (x) : Form.Statement (.vneg x) := by
  intro _ _
  have he : encode (.vneg x) = wordX 0x67 0 x := rfl
  rw [he, wordX, dG3 _ 0x67#8 rfl (by decide)]
  rw [decodeG3, decodeX_word]; rfl

theorem Form.vlog (f) (x) : Form.Statement (.vlog f x) := by
  intro _ _
  have he : encode (.vlog f x) = wordX 0x68 f.code x := rfl
  rw [he, wordX, dG3 _ 0x68#8 rfl (by decide)]
  refine (arm68 _ _ _ _ _).trans ?_
  rw [decodeX_word]
  try dsimp only
  rw [VlogFn.ofCode_code]; rfl

theorem Form.vsh (f) (x) : Form.Statement (.vsh f x) := by
  intro _ _
  have he : encode (.vsh f x) = wordX 0x69 f.code x := rfl
  rw [he, wordX, dG3 _ 0x69#8 rfl (by decide)]
  refine (arm69 _ _ _ _ _).trans ?_
  rw [decodeX_word]
  try dsimp only
  rw [ShFn.ofCode_code]; rfl

theorem Form.vcmp (c) (x) : Form.Statement (.vcmp c x) := by
  intro _ _
  have he : encode (.vcmp c x) = wordX 0x6A (BitVec.ofNat 8 c.code) x := rfl
  rw [he, wordX, dG3 _ 0x6A#8 rfl (by decide)]
  refine (arm6A _ _ _ _ _).trans ?_
  rw [decodeX_word]
  try dsimp only
  rw [codeByte, FCond.ofFn_code]; rfl

theorem Form.vsel (x) : Form.Statement (.vsel x) := by
  intro _ _
  have he : encode (.vsel x) = wordX 0x6B 0 x := rfl
  rw [he, wordX, dG3 _ 0x6B#8 rfl (by decide)]
  rw [decodeG3, decodeX_word]; rfl

theorem Form.vcvt (x) : Form.Statement (.vcvt x) := by
  intro _ _
  have he : encode (.vcvt x) = wordX 0x6C 0 x := rfl
  rw [he, wordX, dG3 _ 0x6C#8 rfl (by decide)]
  rw [decodeG3, decodeX_word]; rfl

theorem Form.vqnt (x) : Form.Statement (.vqnt x) := by
  intro _ _
  have he : encode (.vqnt x) = wordX 0x6D 0 x := rfl
  rw [he, wordX, dG3 _ 0x6D#8 rfl (by decide)]
  rw [decodeG3, decodeX_word]; rfl

theorem Form.vdqn (x) : Form.Statement (.vdqn x) := by
  intro _ _
  have he : encode (.vdqn x) = wordX 0x6E 0 x := rfl
  rw [he, wordX, dG3 _ 0x6E#8 rfl (by decide)]
  rw [decodeG3, decodeX_word]; rfl

theorem Form.vfn (f) (x) : Form.Statement (.vfn f x) := by
  intro _ _
  have he : encode (.vfn f x) = wordX 0x6F f.code x := rfl
  rw [he, wordX, dG3 _ 0x6F#8 rfl (by decide)]
  refine (arm6F _ _ _ _ _).trans ?_
  rw [decodeX_word]
  try dsimp only
  rw [FnFn.ofCode_code]; rfl

theorem Form.vred (f) (x) : Form.Statement (.vred f x) := by
  intro _ _
  have he : encode (.vred f x) = wordX 0x70 f.code x := rfl
  rw [he, wordX, dG3 _ 0x70#8 rfl (by decide)]
  refine (arm70 _ _ _ _ _).trans ?_
  rw [decodeX_word]
  try dsimp only
  rw [RedFn.ofCode_code]; rfl

theorem Form.vscan (f) (x) : Form.Statement (.vscan f x) := by
  intro _ _
  have he : encode (.vscan f x) = wordX 0x71 f.code x := rfl
  rw [he, wordX, dG3 _ 0x71#8 rfl (by decide)]
  refine (arm71 _ _ _ _ _).trans ?_
  rw [decodeX_word]
  try dsimp only
  rw [ScanFn.ofCode_code]; rfl

theorem Form.vbc (x) : Form.Statement (.vbc x) := by
  intro _ _
  have he : encode (.vbc x) = wordX 0x72 0 x := rfl
  rw [he, wordX, dG3 _ 0x72#8 rfl (by decide)]
  rw [decodeG3, decodeX_word]; rfl

theorem Form.vfill (f) (x) : Form.Statement (.vfill f x) := by
  intro _ _
  have he : encode (.vfill f x) = wordX 0x73 f.code x := rfl
  rw [he, wordX, dG3 _ 0x73#8 rfl (by decide)]
  refine (arm73 _ _ _ _ _).trans ?_
  rw [decodeX_word]
  try dsimp only
  rw [FillFn.ofCode_code]; rfl

theorem Form.vtrn (x) : Form.Statement (.vtrn x) := by
  intro _ _
  have he : encode (.vtrn x) = wordX 0x74 0 x := rfl
  rw [he, wordX, dG3 _ 0x74#8 rfl (by decide)]
  rw [decodeG3, decodeX_word]; rfl

theorem Form.vperm (x) : Form.Statement (.vperm x) := by
  intro _ _
  have he : encode (.vperm x) = wordX 0x75 0 x := rfl
  rw [he, wordX, dG3 _ 0x75#8 rfl (by decide)]
  rw [decodeG3, decodeX_word]; rfl

theorem Form.vhash (n) (x) : Form.Statement (.vhash n x) := by
  intro _ _
  have he : encode (.vhash n x) = wordX 0x76 (BitVec.ofNat 8 n.toNat) x := rfl
  rw [he, wordX, dG3 _ 0x76#8 rfl (by decide)]
  refine (arm76 _ _ _ _ _).trans ?_
  rw [decodeX_word]
  try dsimp only
  rw [zext_toNat n (by decide), if_pos n.isLt, cut_self]

theorem Form.vpopc (r) (x) : Form.Statement (.vpopc r x) := by
  intro _ _
  have he : encode (.vpopc r x) = wordX 0x77 (fnBit r) x := rfl
  rw [he, wordX, dG3 _ 0x77#8 rfl (by decide)]
  refine (arm77 _ _ _ _ _).trans ?_
  rw [decodeX_word]
  try dsimp only
  rw [if_pos (fnBit_lt r), fnBit_eq]

theorem Form.vhist (x) : Form.Statement (.vhist x) := by
  intro _ _
  have he : encode (.vhist x) = wordX 0x78 0 x := rfl
  rw [he, wordX, dG3 _ 0x78#8 rfl (by decide)]
  rw [decodeG3, decodeX_word]; rfl

theorem Form.vpack (r) (x) : Form.Statement (.vpack r x) := by
  intro _ _
  have he : encode (.vpack r x) = wordX 0x79 (fnBit r) x := rfl
  rw [he, wordX, dG3 _ 0x79#8 rfl (by decide)]
  refine (arm79 _ _ _ _ _).trans ?_
  rw [decodeX_word]
  try dsimp only
  rw [if_pos (fnBit_lt r), fnBit_eq]

theorem Form.vunpk (r) (x) : Form.Statement (.vunpk r x) := by
  intro _ _
  have he : encode (.vunpk r x) = wordX 0x7A (fnBit r) x := rfl
  rw [he, wordX, dG3 _ 0x7A#8 rfl (by decide)]
  refine (arm7A _ _ _ _ _).trans ?_
  rw [decodeX_word]
  try dsimp only
  rw [if_pos (fnBit_lt r), fnBit_eq]

theorem Form.vmov (x) : Form.Statement (.vmov x) := by
  intro _ _
  have he : encode (.vmov x) = wordX 0x7B 0 x := rfl
  rw [he, wordX, dG3 _ 0x7B#8 rfl (by decide)]
  rw [decodeG3, decodeX_word]; rfl

theorem Form.vrnd (x) : Form.Statement (.vrnd x) := by
  intro _ _
  have he : encode (.vrnd x) = wordX 0x7C 0 x := rfl
  rw [he, wordX, dG3 _ 0x7C#8 rfl (by decide)]
  rw [decodeG3, decodeX_word]; rfl

theorem Form.vbit (f) (x) : Form.Statement (.vbit f x) := by
  intro _ _
  have he : encode (.vbit f x) = wordX 0x7D f.code x := rfl
  rw [he, wordX, dG3 _ 0x7D#8 rfl (by decide)]
  refine (arm7D _ _ _ _ _).trans ?_
  rw [decodeX_word]
  try dsimp only
  rw [VbitFn.ofCode_code]; rfl

theorem Form.vmask (f) (x) : Form.Statement (.vmask f x) := by
  intro _ _
  have he : encode (.vmask f x) = wordX 0x7E f.code x := rfl
  rw [he, wordX, dG3 _ 0x7E#8 rfl (by decide)]
  refine (arm7E _ _ _ _ _).trans ?_
  rw [decodeX_word]
  try dsimp only
  rw [MaskFn.ofCode_code]; rfl

theorem Form.mlds (x) : Form.Statement (.mlds x) := by
  intro _ _
  have he : encode (.mlds x) = wordX 0x80 0 x := rfl
  rw [he, wordX, dG4 _ 0x80#8 rfl (by decide)]
  rw [decodeG4, decodeX_word]; rfl

theorem Form.mldw (x) : Form.Statement (.mldw x) := by
  intro _ _
  have he : encode (.mldw x) = wordX 0x81 0 x := rfl
  rw [he, wordX, dG4 _ 0x81#8 rfl (by decide)]
  rw [decodeG4, decodeX_word]; rfl

theorem Form.mswp (x) : Form.Statement (.mswp x) := by
  intro _ _
  have he : encode (.mswp x) = wordX 0x82 0 x := rfl
  rw [he, wordX, dG4 _ 0x82#8 rfl (by decide)]
  rw [decodeG4, decodeX_word]; rfl

theorem Form.mstr (x) : Form.Statement (.mstr x) := by
  intro _ _
  have he : encode (.mstr x) = wordX 0x83 0 x := rfl
  rw [he, wordX, dG4 _ 0x83#8 rfl (by decide)]
  rw [decodeG4, decodeX_word]; rfl

theorem Form.mstt (x) : Form.Statement (.mstt x) := by
  intro _ _
  have he : encode (.mstt x) = wordX 0x84 0 x := rfl
  rw [he, wordX, dG4 _ 0x84#8 rfl (by decide)]
  rw [decodeG4, decodeX_word]; rfl

theorem Form.macc (a) (x) : Form.Statement (.macc a x) := by
  intro _ _
  have he : encode (.macc a x) = wordX 0x85 (fnBit a) x := rfl
  rw [he, wordX, dG4 _ 0x85#8 rfl (by decide)]
  refine (arm85 _ _ _ _ _).trans ?_
  rw [decodeX_word]
  try dsimp only
  rw [if_pos (fnBit_lt a), fnBit_eq]

theorem Form.manc (x) : Form.Statement (.manc x) := by
  intro _ _
  have he : encode (.manc x) = wordX 0x86 0 x := rfl
  rw [he, wordX, dG4 _ 0x86#8 rfl (by decide)]
  rw [decodeG4, decodeX_word]; rfl

theorem Form.mepc (x) : Form.Statement (.mepc x) := by
  intro _ _
  have he : encode (.mepc x) = wordX 0x87 0 x := rfl
  rw [he, wordX, dG4 _ 0x87#8 rfl (by decide)]
  rw [decodeG4, decodeX_word]; rfl

theorem Form.mout (x) : Form.Statement (.mout x) := by
  intro _ _
  have he : encode (.mout x) = wordX 0x88 0 x := rfl
  rw [he, wordX, dG4 _ 0x88#8 rfl (by decide)]
  rw [decodeG4, decodeX_word]; rfl

theorem Form.mclr (x) : Form.Statement (.mclr x) := by
  intro _ _
  have he : encode (.mclr x) = wordX 0x89 0 x := rfl
  rw [he, wordX, dG4 _ 0x89#8 rfl (by decide)]
  rw [decodeG4, decodeX_word]; rfl

theorem Form.mtkr (i) (x) : Form.Statement (.mtkr i x) := by
  intro _ _
  have he : encode (.mtkr i x) = wordX 0x8A (fnBit i) x := rfl
  rw [he, wordX, dG4 _ 0x8A#8 rfl (by decide)]
  refine (arm8A _ _ _ _ _).trans ?_
  rw [decodeX_word]
  try dsimp only
  rw [if_pos (fnBit_lt i), fnBit_eq]

theorem Form.mtkc (x) : Form.Statement (.mtkc x) := by
  intro _ _
  have he : encode (.mtkc x) = wordX 0x8B 0 x := rfl
  rw [he, wordX, dG4 _ 0x8B#8 rfl (by decide)]
  rw [decodeG4, decodeX_word]; rfl

theorem Form.mspm (s) (x) : Form.Statement (.mspm s x) := by
  intro _ _
  have he : encode (.mspm s x) = wordX 0x8C (fnBit s) x := rfl
  rw [he, wordX, dG4 _ 0x8C#8 rfl (by decide)]
  refine (arm8C _ _ _ _ _).trans ?_
  rw [decodeX_word]
  try dsimp only
  rw [if_pos (fnBit_lt s), fnBit_eq]

theorem Form.mclaim (x) : Form.Statement (.mclaim x) := by
  intro _ _
  have he : encode (.mclaim x) = wordX 0x8D 0 x := rfl
  rw [he, wordX, dG4 _ 0x8D#8 rfl (by decide)]
  rw [decodeG4, decodeX_word]; rfl

theorem Form.mrel (x) : Form.Statement (.mrel x) := by
  intro _ _
  have he : encode (.mrel x) = wordX 0x8E 0 x := rfl
  rw [he, wordX, dG4 _ 0x8E#8 rfl (by decide)]
  rw [decodeG4, decodeX_word]; rfl

theorem Form.msave (x) : Form.Statement (.msave x) := by
  intro _ _
  have he : encode (.msave x) = wordX 0x8F 0 x := rfl
  rw [he, wordX, dG4 _ 0x8F#8 rfl (by decide)]
  rw [decodeG4, decodeX_word]; rfl

theorem Form.mrest (x) : Form.Statement (.mrest x) := by
  intro _ _
  have he : encode (.mrest x) = wordX 0x90 0 x := rfl
  rw [he, wordX, dG4 _ 0x90#8 rfl (by decide)]
  rw [decodeG4, decodeX_word]; rfl

theorem Form.mstat (t) (x) : Form.Statement (.mstat t x) := by
  intro _ _
  have he : encode (.mstat t x) = wordX 0x91 (fnBit t) x := rfl
  rw [he, wordX, dG4 _ 0x91#8 rfl (by decide)]
  refine (arm91 _ _ _ _ _).trans ?_
  rw [decodeX_word]
  try dsimp only
  rw [if_pos (fnBit_lt t), fnBit_eq]

theorem Form.ld (m) : Form.Statement (.ld m) := by
  intro _ _
  have he : encode (.ld m) = wordM 0xA0 m.md m := rfl
  rw [he, wordM, dG5 _ 0xA0#8 rfl (by decide)]
  dsimp only [decodeG5, BitVec.reduceToNat]
  rw [RestM.of_bits, MemOrd.ofCode_code]; rfl

theorem Form.st (m) : Form.Statement (.st m) := by
  intro _ _
  have he : encode (.st m) = wordM 0xA1 m.md m := rfl
  rw [he, wordM, dG5 _ 0xA1#8 rfl (by decide)]
  dsimp only [decodeG5, BitVec.reduceToNat]
  rw [RestM.of_bits, MemOrd.ofCode_code]; rfl

theorem Form.dst (m) : Form.Statement (.dst m) := by
  intro _ _
  have he : encode (.dst m) = wordM 0xB2 m.md m := rfl
  rw [he, wordM, dG5 _ 0xB2#8 rfl (by decide)]
  dsimp only [decodeG5, BitVec.reduceToNat]
  rw [RestM.of_bits, MemOrd.ofCode_code]; rfl

theorem Form.ldt (m) : Form.Statement (.ldt m) := by
  intro _ _
  have he : encode (.ldt m) = wordM 0xA2 m.md m := rfl
  rw [he, wordM, dG5 _ 0xA2#8 rfl (by decide)]
  dsimp only [decodeG5, BitVec.reduceToNat]
  rw [RestM.of_bits, MemOrd.ofCode_code]; rfl

theorem Form.stt (m) : Form.Statement (.stt m) := by
  intro _ _
  have he : encode (.stt m) = wordM 0xA3 m.md m := rfl
  rw [he, wordM, dG5 _ 0xA3#8 rfl (by decide)]
  dsimp only [decodeG5, BitVec.reduceToNat]
  rw [RestM.of_bits, MemOrd.ofCode_code]; rfl

theorem Form.gth (m) : Form.Statement (.gth m) := by
  intro _ _
  have he : encode (.gth m) = wordM 0xA4 m.md m := rfl
  rw [he, wordM, dG5 _ 0xA4#8 rfl (by decide)]
  dsimp only [decodeG5, BitVec.reduceToNat]
  rw [RestM.of_bits, MemOrd.ofCode_code]; rfl

theorem Form.sct (m) : Form.Statement (.sct m) := by
  intro _ _
  have he : encode (.sct m) = wordM 0xA5 m.md m := rfl
  rw [he, wordM, dG5 _ 0xA5#8 rfl (by decide)]
  dsimp only [decodeG5, BitVec.reduceToNat]
  rw [RestM.of_bits, MemOrd.ofCode_code]; rfl

theorem Form.atom (f) (m) : Form.Statement (.atom f m) := by
  intro _ hw
  have hm : m.md &&& ~~~16 = 0 := by
    simp only [Instr.wellFormed, Instr.unusedZero, MF.unused, Bool.and_eq_true, beq_iff_eq] at hw
    exact hw.1.2
  have he : encode (.atom f m) = wordM 0xA6 (BitVec.ofNat 5 (f.code.toNat + m.md.toNat)) m := rfl
  rw [he, wordM, dG5 _ 0xA6#8 rfl (by decide)]
  refine (armA6 _ _ _ _ _).trans ?_
  try dsimp only
  rw [RestM.of_bits]
  dsimp only
  rw [MemOrd.ofCode_code]
  dsimp only [select]
  rw [atomMd_fn _ _ hm, AtomFn.ofCode_code, atomMd_w _ _ hm]

theorem Form.vatom (f) (m) : Form.Statement (.vatom f m) := by
  intro _ hw
  have hm : m.md &&& ~~~16 = 0 := by
    simp only [Instr.wellFormed, Instr.unusedZero, MF.unused, Bool.and_eq_true, beq_iff_eq] at hw
    exact hw.1.1.1.2
  have he : encode (.vatom f m) = wordM 0xA7 (BitVec.ofNat 5 (f.code.toNat + m.md.toNat)) m := rfl
  rw [he, wordM, dG5 _ 0xA7#8 rfl (by decide)]
  refine (armA7 _ _ _ _ _).trans ?_
  try dsimp only
  rw [RestM.of_bits]
  dsimp only
  rw [MemOrd.ofCode_code]
  dsimp only [select]
  rw [atomMd_fn _ _ hm, AtomFn.ofCode_code, atomMd_w _ _ hm]

theorem Form.put (m) : Form.Statement (.put m) := by
  intro _ _
  have he : encode (.put m) = wordM 0xA8 m.md m := rfl
  rw [he, wordM, dG5 _ 0xA8#8 rfl (by decide)]
  dsimp only [decodeG5, BitVec.reduceToNat]
  rw [RestM.of_bits, MemOrd.ofCode_code]; rfl

theorem Form.get (m) : Form.Statement (.get m) := by
  intro _ _
  have he : encode (.get m) = wordM 0xA9 m.md m := rfl
  rw [he, wordM, dG5 _ 0xA9#8 rfl (by decide)]
  dsimp only [decodeG5, BitVec.reduceToNat]
  rw [RestM.of_bits, MemOrd.ofCode_code]; rfl

theorem Form.sopen (m) : Form.Statement (.sopen m) := by
  intro _ _
  have he : encode (.sopen m) = wordM 0xAA m.md m := rfl
  rw [he, wordM, dG5 _ 0xAA#8 rfl (by decide)]
  dsimp only [decodeG5, BitVec.reduceToNat]
  rw [RestM.of_bits, MemOrd.ofCode_code]; rfl

theorem Form.sclose (m) : Form.Statement (.sclose m) := by
  intro _ _
  have he : encode (.sclose m) = wordM 0xAB m.md m := rfl
  rw [he, wordM, dG5 _ 0xAB#8 rfl (by decide)]
  dsimp only [decodeG5, BitVec.reduceToNat]
  rw [RestM.of_bits, MemOrd.ofCode_code]; rfl

theorem Form.fence (m) : Form.Statement (.fence m) := by
  intro _ _
  have he : encode (.fence m) = wordM 0xAC m.md m := rfl
  rw [he, wordM, dG5 _ 0xAC#8 rfl (by decide)]
  dsimp only [decodeG5, BitVec.reduceToNat]
  rw [RestM.of_bits, MemOrd.ofCode_code]; rfl

theorem Form.pref (m) : Form.Statement (.pref m) := by
  intro _ _
  have he : encode (.pref m) = wordM 0xAD m.md m := rfl
  rw [he, wordM, dG5 _ 0xAD#8 rfl (by decide)]
  dsimp only [decodeG5, BitVec.reduceToNat]
  rw [RestM.of_bits, MemOrd.ofCode_code]; rfl

theorem Form.migr (m) : Form.Statement (.migr m) := by
  intro _ _
  have he : encode (.migr m) = wordM 0xAE m.md m := rfl
  rw [he, wordM, dG5 _ 0xAE#8 rfl (by decide)]
  dsimp only [decodeG5, BitVec.reduceToNat]
  rw [RestM.of_bits, MemOrd.ofCode_code]; rfl

theorem Form.wsld (m) : Form.Statement (.wsld m) := by
  intro _ _
  have he : encode (.wsld m) = wordM 0xAF m.md m := rfl
  rw [he, wordM, dG5 _ 0xAF#8 rfl (by decide)]
  dsimp only [decodeG5, BitVec.reduceToNat]
  rw [RestM.of_bits, MemOrd.ofCode_code]; rfl

theorem Form.inv (m) : Form.Statement (.inv m) := by
  intro _ _
  have he : encode (.inv m) = wordM 0xB0 m.md m := rfl
  rw [he, wordM, dG5 _ 0xB0#8 rfl (by decide)]
  dsimp only [decodeG5, BitVec.reduceToNat]
  rw [RestM.of_bits, MemOrd.ofCode_code]; rfl

theorem Form.gbump (m) : Form.Statement (.gbump m) := by
  intro _ _
  have he : encode (.gbump m) = wordM 0xB1 m.md m := rfl
  rw [he, wordM, dG5 _ 0xB1#8 rfl (by decide)]
  dsimp only [decodeG5, BitVec.reduceToNat]
  rw [RestM.of_bits, MemOrd.ofCode_code]; rfl

theorem Form.pplace (now) (x) : Form.Statement (.pplace now x) := by
  intro _ _
  have he : encode (.pplace now x) = wordS 0xC0 (fnBit now) x := rfl
  rw [he, wordS, wordI, dG6 _ 0xC0#8 rfl (by decide)]
  refine (armC0 _ _ _ _ _).trans ?_
  try dsimp only
  rw [RestI.of_bits]
  dsimp only
  rw [sfHi, sfRt]
  cases now <;> rfl

theorem Form.pevictVacate (x) : Form.Statement (.pevictVacate x) := by
  intro _ _
  have he : encode (.pevictVacate x) = wordS 0xC1 0 x := rfl
  rw [he, wordS, wordI, dG6 _ 0xC1#8 rfl (by decide)]
  dsimp only [decodeG6, BitVec.reduceToNat]
  rw [RestI.of_bits]
  dsimp only
  rw [sfHi, sfRt]; rfl

theorem Form.pevictKill (x) : Form.Statement (.pevictKill x) := by
  intro _ _
  have he : encode (.pevictKill x) = wordS 0xC1 1 x := rfl
  rw [he, wordS, wordI, dG6 _ 0xC1#8 rfl (by decide)]
  dsimp only [decodeG6, BitVec.reduceToNat]
  rw [RestI.of_bits]
  dsimp only
  rw [sfHi, sfRt]; rfl

theorem Form.pevictContain (x) : Form.Statement (.pevictContain x) := by
  intro _ _
  have he : encode (.pevictContain x) = wordS 0xC1 2 x := rfl
  rw [he, wordS, wordI, dG6 _ 0xC1#8 rfl (by decide)]
  dsimp only [decodeG6, BitVec.reduceToNat]
  rw [RestI.of_bits]
  dsimp only
  rw [sfHi, sfRt]; rfl

theorem Form.rmarkCut (x) : Form.Statement (.rmarkCut x) := by
  intro _ _
  have he : encode (.rmarkCut x) = wordS 0xC2 0 x := rfl
  rw [he, wordS, wordI, dG6 _ 0xC2#8 rfl (by decide)]
  dsimp only [decodeG6, BitVec.reduceToNat]
  rw [RestI.of_bits]
  dsimp only
  rw [sfHi, sfRt]; rfl

theorem Form.rmarkFreeze (x) : Form.Statement (.rmarkFreeze x) := by
  intro _ _
  have he : encode (.rmarkFreeze x) = wordS 0xC2 1 x := rfl
  rw [he, wordS, wordI, dG6 _ 0xC2#8 rfl (by decide)]
  dsimp only [decodeG6, BitVec.reduceToNat]
  rw [RestI.of_bits]
  dsimp only
  rw [sfHi, sfRt]; rfl

theorem Form.rmarkResume (x) : Form.Statement (.rmarkResume x) := by
  intro _ _
  have he : encode (.rmarkResume x) = wordS 0xC2 2 x := rfl
  rw [he, wordS, wordI, dG6 _ 0xC2#8 rfl (by decide)]
  dsimp only [decodeG6, BitVec.reduceToNat]
  rw [RestI.of_bits]
  dsimp only
  rw [sfHi, sfRt]; rfl

theorem Form.qryState (x) : Form.Statement (.qryState x) := by
  intro _ _
  have he : encode (.qryState x) = wordS 0xC3 0 x := rfl
  rw [he, wordS, wordI, dG6 _ 0xC3#8 rfl (by decide)]
  dsimp only [decodeG6, BitVec.reduceToNat]
  rw [RestI.of_bits]
  dsimp only
  rw [sfHi, sfRt]; rfl

theorem Form.qryQuiet (x) : Form.Statement (.qryQuiet x) := by
  intro _ _
  have he : encode (.qryQuiet x) = wordS 0xC3 1 x := rfl
  rw [he, wordS, wordI, dG6 _ 0xC3#8 rfl (by decide)]
  dsimp only [decodeG6, BitVec.reduceToNat]
  rw [RestI.of_bits]
  dsimp only
  rw [sfHi, sfRt]; rfl

theorem Form.qryPower (x) : Form.Statement (.qryPower x) := by
  intro _ _
  have he : encode (.qryPower x) = wordS 0xC3 2 x := rfl
  rw [he, wordS, wordI, dG6 _ 0xC3#8 rfl (by decide)]
  dsimp only [decodeG6, BitVec.reduceToNat]
  rw [RestI.of_bits]
  dsimp only
  rw [sfHi, sfRt]; rfl

theorem Form.lnch (ctl) (x) : Form.Statement (.lnch ctl x) := by
  intro _ _
  have he : encode (.lnch ctl x) = wordS 0xC4 (fnBit ctl) x := rfl
  rw [he, wordS, wordI, dG6 _ 0xC4#8 rfl (by decide)]
  refine (armC4 _ _ _ _ _).trans ?_
  try dsimp only
  rw [RestI.of_bits]
  dsimp only
  rw [sfHi, sfRt]
  cases ctl <;> rfl

theorem Form.pclaimClaim (x) : Form.Statement (.pclaimClaim x) := by
  intro _ _
  have he : encode (.pclaimClaim x) = wordS 0xC5 0 x := rfl
  rw [he, wordS, wordI, dG6 _ 0xC5#8 rfl (by decide)]
  dsimp only [decodeG6, BitVec.reduceToNat]
  rw [RestI.of_bits]
  dsimp only
  rw [sfHi, sfRt]; rfl

theorem Form.pclaimRelease (x) : Form.Statement (.pclaimRelease x) := by
  intro _ _
  have he : encode (.pclaimRelease x) = wordS 0xC5 1 x := rfl
  rw [he, wordS, wordI, dG6 _ 0xC5#8 rfl (by decide)]
  dsimp only [decodeG6, BitVec.reduceToNat]
  rw [RestI.of_bits]
  dsimp only
  rw [sfHi, sfRt]; rfl

theorem Form.twinOn (x) : Form.Statement (.twinOn x) := by
  intro _ _
  have he : encode (.twinOn x) = wordS 0xC6 0 x := rfl
  rw [he, wordS, wordI, dG6 _ 0xC6#8 rfl (by decide)]
  dsimp only [decodeG6, BitVec.reduceToNat]
  rw [RestI.of_bits]
  dsimp only
  rw [sfHi, sfRt]; rfl

theorem Form.twinOff (x) : Form.Statement (.twinOff x) := by
  intro _ _
  have he : encode (.twinOff x) = wordS 0xC6 1 x := rfl
  rw [he, wordS, wordI, dG6 _ 0xC6#8 rfl (by decide)]
  dsimp only [decodeG6, BitVec.reduceToNat]
  rw [RestI.of_bits]
  dsimp only
  rw [sfHi, sfRt]; rfl

theorem Form.cgrpMake (x) : Form.Statement (.cgrpMake x) := by
  intro _ _
  have he : encode (.cgrpMake x) = wordS 0xC7 0 x := rfl
  rw [he, wordS, wordI, dG6 _ 0xC7#8 rfl (by decide)]
  dsimp only [decodeG6, BitVec.reduceToNat]
  rw [RestI.of_bits]
  dsimp only
  rw [sfHi, sfRt]; rfl

theorem Form.cgrpDrop (x) : Form.Statement (.cgrpDrop x) := by
  intro _ _
  have he : encode (.cgrpDrop x) = wordS 0xC7 1 x := rfl
  rw [he, wordS, wordI, dG6 _ 0xC7#8 rfl (by decide)]
  dsimp only [decodeG6, BitVec.reduceToNat]
  rw [RestI.of_bits]
  dsimp only
  rw [sfHi, sfRt]; rfl

theorem Form.cred (f) (x) : Form.Statement (.cred f x) := by
  intro _ _
  have he : encode (.cred f x) = wordS 0xC8 (BitVec.ofNat 8 f.toNat) x := rfl
  rw [he, wordS, wordI, dG6 _ 0xC8#8 rfl (by decide)]
  refine (armC8 _ _ _ _ _).trans ?_
  try dsimp only
  rw [RestI.of_bits]
  dsimp only
  rw [sfHi, sfRt]
  obtain rfl | rfl | rfl | rfl := two_bits f <;> rfl

theorem Form.cstat (p) (x) : Form.Statement (.cstat p x) := by
  intro _ _
  have he : encode (.cstat p x) = wordS 0xC9 (fnBit p) x := rfl
  rw [he, wordS, wordI, dG6 _ 0xC9#8 rfl (by decide)]
  refine (armC9 _ _ _ _ _).trans ?_
  try dsimp only
  rw [RestI.of_bits]
  dsimp only
  rw [sfHi, sfRt]
  cases p <;> rfl

theorem Form.ccan (x) : Form.Statement (.ccan x) := by
  intro _ _
  have he : encode (.ccan x) = wordS 0xCA 0 x := rfl
  rw [he, wordS, wordI, dG6 _ 0xCA#8 rfl (by decide)]
  dsimp only [decodeG6, BitVec.reduceToNat]
  rw [RestI.of_bits]
  dsimp only
  rw [sfHi, sfRt]; rfl

theorem Form.xcntAdd (x) : Form.Statement (.xcntAdd x) := by
  intro _ _
  have he : encode (.xcntAdd x) = wordS 0xCB 0 x := rfl
  rw [he, wordS, wordI, dG6 _ 0xCB#8 rfl (by decide)]
  dsimp only [decodeG6, BitVec.reduceToNat]
  rw [RestI.of_bits]
  dsimp only
  rw [sfHi, sfRt]; rfl

theorem Form.xcntArr (x) : Form.Statement (.xcntArr x) := by
  intro _ _
  have he : encode (.xcntArr x) = wordS 0xCB 1 x := rfl
  rw [he, wordS, wordI, dG6 _ 0xCB#8 rfl (by decide)]
  dsimp only [decodeG6, BitVec.reduceToNat]
  rw [RestI.of_bits]
  dsimp only
  rw [sfHi, sfRt]; rfl

theorem Form.xcntHist (x) : Form.Statement (.xcntHist x) := by
  intro _ _
  have he : encode (.xcntHist x) = wordS 0xCB 2 x := rfl
  rw [he, wordS, wordI, dG6 _ 0xCB#8 rfl (by decide)]
  dsimp only [decodeG6, BitVec.reduceToNat]
  rw [RestI.of_bits]
  dsimp only
  rw [sfHi, sfRt]; rfl

theorem Form.xcntTake (x) : Form.Statement (.xcntTake x) := by
  intro _ _
  have he : encode (.xcntTake x) = wordS 0xCB 3 x := rfl
  rw [he, wordS, wordI, dG6 _ 0xCB#8 rfl (by decide)]
  dsimp only [decodeG6, BitVec.reduceToNat]
  rw [RestI.of_bits]
  dsimp only
  rw [sfHi, sfRt]; rfl

theorem Form.xdspOne (x) : Form.Statement (.xdspOne x) := by
  intro _ _
  have he : encode (.xdspOne x) = wordS 0xCC 0 x := rfl
  rw [he, wordS, wordI, dG6 _ 0xCC#8 rfl (by decide)]
  dsimp only [decodeG6, BitVec.reduceToNat]
  rw [RestI.of_bits]
  dsimp only
  rw [sfHi, sfRt]; rfl

theorem Form.xdspArr (x) : Form.Statement (.xdspArr x) := by
  intro _ _
  have he : encode (.xdspArr x) = wordS 0xCC 1 x := rfl
  rw [he, wordS, wordI, dG6 _ 0xCC#8 rfl (by decide)]
  dsimp only [decodeG6, BitVec.reduceToNat]
  rw [RestI.of_bits]
  dsimp only
  rw [sfHi, sfRt]; rfl

theorem Form.xdspFlush (x) : Form.Statement (.xdspFlush x) := by
  intro _ _
  have he : encode (.xdspFlush x) = wordS 0xCC 2 x := rfl
  rw [he, wordS, wordI, dG6 _ 0xCC#8 rfl (by decide)]
  dsimp only [decodeG6, BitVec.reduceToNat]
  rw [RestI.of_bits]
  dsimp only
  rw [sfHi, sfRt]; rfl

theorem Form.xverGet (x) : Form.Statement (.xverGet x) := by
  intro _ _
  have he : encode (.xverGet x) = wordS 0xCD 0 x := rfl
  rw [he, wordS, wordI, dG6 _ 0xCD#8 rfl (by decide)]
  dsimp only [decodeG6, BitVec.reduceToNat]
  rw [RestI.of_bits]
  dsimp only
  rw [sfHi, sfRt]; rfl

theorem Form.xverWait (x) : Form.Statement (.xverWait x) := by
  intro _ _
  have he : encode (.xverWait x) = wordS 0xCD 1 x := rfl
  rw [he, wordS, wordI, dG6 _ 0xCD#8 rfl (by decide)]
  dsimp only [decodeG6, BitVec.reduceToNat]
  rw [RestI.of_bits]
  dsimp only
  rw [sfHi, sfRt]; rfl

theorem Form.xverResize (x) : Form.Statement (.xverResize x) := by
  intro _ _
  have he : encode (.xverResize x) = wordS 0xCD 2 x := rfl
  rw [he, wordS, wordI, dG6 _ 0xCD#8 rfl (by decide)]
  dsimp only [decodeG6, BitVec.reduceToNat]
  rw [RestI.of_bits]
  dsimp only
  rw [sfHi, sfRt]; rfl

theorem Form.xmrg (x) : Form.Statement (.xmrg x) := by
  intro _ _
  have he : encode (.xmrg x) = wordS 0xCE 0 x := rfl
  rw [he, wordS, wordI, dG6 _ 0xCE#8 rfl (by decide)]
  dsimp only [decodeG6, BitVec.reduceToNat]
  rw [RestI.of_bits]
  dsimp only
  rw [sfHi, sfRt]; rfl

theorem Form.xrep (x) : Form.Statement (.xrep x) := by
  intro _ _
  have he : encode (.xrep x) = wordS 0xCF 0 x := rfl
  rw [he, wordS, wordI, dG6 _ 0xCF#8 rfl (by decide)]
  dsimp only [decodeG6, BitVec.reduceToNat]
  rw [RestI.of_bits]
  dsimp only
  rw [sfHi, sfRt]; rfl

theorem Form.xretDrain (x) : Form.Statement (.xretDrain x) := by
  intro _ _
  have he : encode (.xretDrain x) = wordS 0xD0 0 x := rfl
  rw [he, wordS, wordI, dG6 _ 0xD0#8 rfl (by decide)]
  dsimp only [decodeG6, BitVec.reduceToNat]
  rw [RestI.of_bits]
  dsimp only
  rw [sfHi, sfRt]; rfl

theorem Form.xretFree (x) : Form.Statement (.xretFree x) := by
  intro _ _
  have he : encode (.xretFree x) = wordS 0xD0 1 x := rfl
  rw [he, wordS, wordI, dG6 _ 0xD0#8 rfl (by decide)]
  dsimp only [decodeG6, BitVec.reduceToNat]
  rw [RestI.of_bits]
  dsimp only
  rw [sfHi, sfRt]; rfl

theorem Form.rpnt (x) : Form.Statement (.rpnt x) := by
  intro _ _
  have he : encode (.rpnt x) = wordS 0xD1 0 x := rfl
  rw [he, wordS, wordI, dG6 _ 0xD1#8 rfl (by decide)]
  dsimp only [decodeG6, BitVec.reduceToNat]
  rw [RestI.of_bits]
  dsimp only
  rw [sfHi, sfRt]; rfl

theorem Form.rseal (x) : Form.Statement (.rseal x) := by
  intro _ _
  have he : encode (.rseal x) = wordS 0xD2 0 x := rfl
  rw [he, wordS, wordI, dG6 _ 0xD2#8 rfl (by decide)]
  dsimp only [decodeG6, BitVec.reduceToNat]
  rw [RestI.of_bits]
  dsimp only
  rw [sfHi, sfRt]; rfl

theorem Form.rrdpStat (x) : Form.Statement (.rrdpStat x) := by
  intro _ _
  have he : encode (.rrdpStat x) = wordS 0xD3 0 x := rfl
  rw [he, wordS, wordI, dG6 _ 0xD3#8 rfl (by decide)]
  dsimp only [decodeG6, BitVec.reduceToNat]
  rw [RestI.of_bits]
  dsimp only
  rw [sfHi, sfRt]; rfl

theorem Form.rrdpCheck (x) : Form.Statement (.rrdpCheck x) := by
  intro _ _
  have he : encode (.rrdpCheck x) = wordS 0xD3 1 x := rfl
  rw [he, wordS, wordI, dG6 _ 0xD3#8 rfl (by decide)]
  dsimp only [decodeG6, BitVec.reduceToNat]
  rw [RestI.of_bits]
  dsimp only
  rw [sfHi, sfRt]; rfl

theorem Form.rbak (x) : Form.Statement (.rbak x) := by
  intro _ _
  have he : encode (.rbak x) = wordS 0xD4 0 x := rfl
  rw [he, wordS, wordI, dG6 _ 0xD4#8 rfl (by decide)]
  dsimp only [decodeG6, BitVec.reduceToNat]
  rw [RestI.of_bits]
  dsimp only
  rw [sfHi, sfRt]; rfl

theorem Form.omrkWalk (x) : Form.Statement (.omrkWalk x) := by
  intro _ _
  have he : encode (.omrkWalk x) = wordS 0xD5 0 x := rfl
  rw [he, wordS, wordI, dG6 _ 0xD5#8 rfl (by decide)]
  dsimp only [decodeG6, BitVec.reduceToNat]
  rw [RestI.of_bits]
  dsimp only
  rw [sfHi, sfRt]; rfl

theorem Form.omrkTag (x) : Form.Statement (.omrkTag x) := by
  intro _ _
  have he : encode (.omrkTag x) = wordS 0xD5 1 x := rfl
  rw [he, wordS, wordI, dG6 _ 0xD5#8 rfl (by decide)]
  dsimp only [decodeG6, BitVec.reduceToNat]
  rw [RestI.of_bits]
  dsimp only
  rw [sfHi, sfRt]; rfl

theorem Form.octrRead (x) : Form.Statement (.octrRead x) := by
  intro _ _
  have he : encode (.octrRead x) = wordS 0xD6 0 x := rfl
  rw [he, wordS, wordI, dG6 _ 0xD6#8 rfl (by decide)]
  dsimp only [decodeG6, BitVec.reduceToNat]
  rw [RestI.of_bits]
  dsimp only
  rw [sfHi, sfRt]; rfl

theorem Form.octrTotal (x) : Form.Statement (.octrTotal x) := by
  intro _ _
  have he : encode (.octrTotal x) = wordS 0xD6 1 x := rfl
  rw [he, wordS, wordI, dG6 _ 0xD6#8 rfl (by decide)]
  dsimp only [decodeG6, BitVec.reduceToNat]
  rw [RestI.of_bits]
  dsimp only
  rw [sfHi, sfRt]; rfl

theorem Form.otrc (x) : Form.Statement (.otrc x) := by
  intro _ _
  have he : encode (.otrc x) = wordS 0xD7 0 x := rfl
  rw [he, wordS, wordI, dG6 _ 0xD7#8 rfl (by decide)]
  dsimp only [decodeG6, BitVec.reduceToNat]
  rw [RestI.of_bits]
  dsimp only
  rw [sfHi, sfRt]; rfl

theorem Form.oinjArm (x) : Form.Statement (.oinjArm x) := by
  intro _ _
  have he : encode (.oinjArm x) = wordS 0xD8 0 x := rfl
  rw [he, wordS, wordI, dG6 _ 0xD8#8 rfl (by decide)]
  dsimp only [decodeG6, BitVec.reduceToNat]
  rw [RestI.of_bits]
  dsimp only
  rw [sfHi, sfRt]; rfl

theorem Form.oinjOff (x) : Form.Statement (.oinjOff x) := by
  intro _ _
  have he : encode (.oinjOff x) = wordS 0xD8 1 x := rfl
  rw [he, wordS, wordI, dG6 _ 0xD8#8 rfl (by decide)]
  dsimp only [decodeG6, BitVec.reduceToNat]
  rw [RestI.of_bits]
  dsimp only
  rw [sfHi, sfRt]; rfl

theorem Form.ostpArm (x) : Form.Statement (.ostpArm x) := by
  intro _ _
  have he : encode (.ostpArm x) = wordS 0xD9 0 x := rfl
  rw [he, wordS, wordI, dG6 _ 0xD9#8 rfl (by decide)]
  dsimp only [decodeG6, BitVec.reduceToNat]
  rw [RestI.of_bits]
  dsimp only
  rw [sfHi, sfRt]; rfl

theorem Form.ostpOff (x) : Form.Statement (.ostpOff x) := by
  intro _ _
  have he : encode (.ostpOff x) = wordS 0xD9 1 x := rfl
  rw [he, wordS, wordI, dG6 _ 0xD9#8 rfl (by decide)]
  dsimp only [decodeG6, BitVec.reduceToNat]
  rw [RestI.of_bits]
  dsimp only
  rw [sfHi, sfRt]; rfl

theorem Form.tokenArrival (x0) : Form.Statement (.tokenArrival x0) := fun h => Bool.noConfusion h

theorem Form.cswHold (x0) : Form.Statement (.cswHold x0) := fun h => Bool.noConfusion h

theorem Form.cswRelease (x0) : Form.Statement (.cswRelease x0) := fun h => Bool.noConfusion h

theorem Form.rmkArrival (x0) : Form.Statement (.rmkArrival x0) := fun h => Bool.noConfusion h

theorem Form.cisternWrite (x0) : Form.Statement (.cisternWrite x0) := fun h => Bool.noConfusion h

theorem Form.activationSlotGrant (x0) : Form.Statement (.activationSlotGrant x0) := fun h => Bool.noConfusion h

theorem Form.heldTokenRetry (x0) : Form.Statement (.heldTokenRetry x0) := fun h => Bool.noConfusion h

theorem Form.commit (x0) : Form.Statement (.commit x0) := fun h => Bool.noConfusion h

theorem Form.trapDelivery (x0) : Form.Statement (.trapDelivery x0) := fun h => Bool.noConfusion h

theorem Form.serviceDelivery (x0) : Form.Statement (.serviceDelivery x0) := fun h => Bool.noConfusion h

theorem Form.frameGrant (x0) (x1) : Form.Statement (.frameGrant x0 x1) := fun h => Bool.noConfusion h

theorem Form.groupRequest (x0) : Form.Statement (.groupRequest x0) := fun h => Bool.noConfusion h

theorem Form.handleRequest (x0) : Form.Statement (.handleRequest x0) := fun h => Bool.noConfusion h

theorem Form.tileFree (x0) (x1) : Form.Statement (.tileFree x0 x1) := fun h => Bool.noConfusion h

theorem Form.hallocGrant (x0) (x1) : Form.Statement (.hallocGrant x0 x1) := fun h => Bool.noConfusion h

theorem Form.vectorOpStart (x0) : Form.Statement (.vectorOpStart x0) := fun h => Bool.noConfusion h

theorem Form.gapBookingDrop (x0) : Form.Statement (.gapBookingDrop x0) := fun h => Bool.noConfusion h

theorem Form.vectorOpComplete (x0) : Form.Statement (.vectorOpComplete x0) := fun h => Bool.noConfusion h

theorem Form.bankReconfigure (x0) (x1) : Form.Statement (.bankReconfigure x0 x1) := fun h => Bool.noConfusion h

theorem Form.bankWipeDone (x0) (x1) : Form.Statement (.bankWipeDone x0 x1) := fun h => Bool.noConfusion h

theorem Form.matrixOpStart (x0) : Form.Statement (.matrixOpStart x0) := fun h => Bool.noConfusion h

theorem Form.matrixOpComplete (x0) : Form.Statement (.matrixOpComplete x0) := fun h => Bool.noConfusion h

theorem Form.memTranslate (x0) : Form.Statement (.memTranslate x0) := fun h => Bool.noConfusion h

theorem Form.pageWalkDone (x0) : Form.Statement (.pageWalkDone x0) := fun h => Bool.noConfusion h

theorem Form.fltctlRetry (x0) (x1) : Form.Statement (.fltctlRetry x0 x1) := fun h => Bool.noConfusion h

theorem Form.fltctlFail (x0) (x1) : Form.Statement (.fltctlFail x0 x1) := fun h => Bool.noConfusion h

theorem Form.memAccessPerform (x0) : Form.Statement (.memAccessPerform x0) := fun h => Bool.noConfusion h

theorem Form.staleGenerationRetry (x0) : Form.Statement (.staleGenerationRetry x0) := fun h => Bool.noConfusion h

theorem Form.wsRefreshEnd (x0) (x1) : Form.Statement (.wsRefreshEnd x0 x1) := fun h => Bool.noConfusion h

theorem Form.streamItem (x0) (x1) : Form.Statement (.streamItem x0 x1) := fun h => Bool.noConfusion h

theorem Form.streamGeneratorGrant (x0) : Form.Statement (.streamGeneratorGrant x0) := fun h => Bool.noConfusion h

theorem Form.bubEmit (x0) (x1) : Form.Statement (.bubEmit x0 x1) := fun h => Bool.noConfusion h

theorem Form.migrationGranuleCopy (x0) : Form.Statement (.migrationGranuleCopy x0) := fun h => Bool.noConfusion h

theorem Form.migrationComplete (x0) : Form.Statement (.migrationComplete x0) := fun h => Bool.noConfusion h

theorem Form.linkTokenRoute (x0) : Form.Statement (.linkTokenRoute x0) := fun h => Bool.noConfusion h

theorem Form.placementRetry (x0) : Form.Statement (.placementRetry x0) := fun h => Bool.noConfusion h

theorem Form.configWaveDone (x0) : Form.Statement (.configWaveDone x0) := fun h => Bool.noConfusion h

theorem Form.seedRelease (x0) : Form.Statement (.seedRelease x0) := fun h => Bool.noConfusion h

theorem Form.powerWindow (x0) : Form.Statement (.powerWindow x0) := fun h => Bool.noConfusion h

theorem Form.thermalDutyStep (x0) : Form.Statement (.thermalDutyStep x0) := fun h => Bool.noConfusion h

theorem Form.quiescenceWave (x0) : Form.Statement (.quiescenceWave x0) := fun h => Bool.noConfusion h

theorem Form.faultTimeSample (x0) : Form.Statement (.faultTimeSample x0) := fun h => Bool.noConfusion h

theorem Form.containmentTrigger (x0) (x1) : Form.Statement (.containmentTrigger x0 x1) := fun h => Bool.noConfusion h

theorem Form.twinDigest (x0) : Form.Statement (.twinDigest x0) := fun h => Bool.noConfusion h

theorem Form.twinDigestTimeout (x0) : Form.Statement (.twinDigestTimeout x0) := fun h => Bool.noConfusion h

theorem Form.ceLtctlWrite (x0) : Form.Statement (.ceLtctlWrite x0) := fun h => Bool.noConfusion h

theorem Form.collMessage (x0) (x1) : Form.Statement (.collMessage x0 x1) := fun h => Bool.noConfusion h

theorem Form.collectiveOpStart (x0) (x1) : Form.Statement (.collectiveOpStart x0 x1) := fun h => Bool.noConfusion h

theorem Form.colStall (x0) (x1) : Form.Statement (.colStall x0 x1) := fun h => Bool.noConfusion h

theorem Form.routeEntry : Form.Statement (.routeEntry) := fun h => Bool.noConfusion h

theorem Form.pageRelease (x0) : Form.Statement (.pageRelease x0) := fun h => Bool.noConfusion h

theorem Form.pageRetire (x0) : Form.Statement (.pageRetire x0) := fun h => Bool.noConfusion h

theorem Form.graftStageDone : Form.Statement (.graftStageDone) := fun h => Bool.noConfusion h

theorem Form.replicaFailed (x0) : Form.Statement (.replicaFailed x0) := fun h => Bool.noConfusion h

theorem Form.cellarLineWrite (x0) : Form.Statement (.cellarLineWrite x0) := fun h => Bool.noConfusion h

theorem Form.sealAbandoned (x0) : Form.Statement (.sealAbandoned x0) := fun h => Bool.noConfusion h

theorem Form.resilverRegion (x0) : Form.Statement (.resilverRegion x0) := fun h => Bool.noConfusion h

theorem Form.slotScan : Form.Statement (.slotScan) := fun h => Bool.noConfusion h

theorem Form.escalatedRollback (x0) : Form.Statement (.escalatedRollback x0) := fun h => Bool.noConfusion h

theorem Form.seedRecord (x0) : Form.Statement (.seedRecord x0) := fun h => Bool.noConfusion h

theorem Form.afterRelease (x0) (x1) : Form.Statement (.afterRelease x0 x1) := fun h => Bool.noConfusion h

theorem Form.inboundRequest (x0) : Form.Statement (.inboundRequest x0) := fun h => Bool.noConfusion h

theorem Form.flitReplay (x0) (x1) : Form.Statement (.flitReplay x0 x1) := fun h => Bool.noConfusion h

theorem Form.portDown (x0) : Form.Statement (.portDown x0) := fun h => Bool.noConfusion h

theorem Form.portTrain (x0) (x1) : Form.Statement (.portTrain x0 x1) := fun h => Bool.noConfusion h

theorem Form.hostCompletionTimeout (x0) : Form.Statement (.hostCompletionTimeout x0) := fun h => Bool.noConfusion h

theorem Form.hostCompletion (x0) (x1) (x2) : Form.Statement (.hostCompletion x0 x1 x2) := fun h => Bool.noConfusion h

theorem Form.lkIrqWrite (x0) : Form.Statement (.lkIrqWrite x0) := fun h => Bool.noConfusion h

theorem Form.timeEventMessage (x0) (x1) (x2) : Form.Statement (.timeEventMessage x0 x1 x2) := fun h => Bool.noConfusion h

theorem Form.sweepVisit (x0) : Form.Statement (.sweepVisit x0) := fun h => Bool.noConfusion h

theorem Form.obTadjWrite (x0) : Form.Statement (.obTadjWrite x0) := fun h => Bool.noConfusion h

theorem Form.walkStep (x0) : Form.Statement (.walkStep x0) := fun h => Bool.noConfusion h

theorem Form.stopHit (x0) : Form.Statement (.stopHit x0) := fun h => Bool.noConfusion h

theorem Form.monitorSample (x0) (x1) : Form.Statement (.monitorSample x0 x1) := fun h => Bool.noConfusion h

theorem Form.obLmselWrite (x0) (x1) : Form.Statement (.obLmselWrite x0 x1) := fun h => Bool.noConfusion h

theorem Form.injectionHit (x0) : Form.Statement (.injectionHit x0) := fun h => Bool.noConfusion h

theorem Form.inputLoss : Form.Statement (.inputLoss) := fun h => Bool.noConfusion h

theorem Form.deviceReset : Form.Statement (.deviceReset) := fun h => Bool.noConfusion h

theorem Form.computeDieReset (x0) : Form.Statement (.computeDieReset x0) := fun h => Bool.noConfusion h

theorem Form.ioDie1Reset : Form.Statement (.ioDie1Reset) := fun h => Bool.noConfusion h

theorem Form.ioDie0Reset : Form.Statement (.ioDie0Reset) := fun h => Bool.noConfusion h

theorem Form.wipeComplete (x0) : Form.Statement (.wipeComplete x0) := fun h => Bool.noConfusion h

theorem Form.calibrationEnd (x0) : Form.Statement (.calibrationEnd x0) := fun h => Bool.noConfusion h

theorem Form.pkBootWrite (x0) : Form.Statement (.pkBootWrite x0) := fun h => Bool.noConfusion h

theorem Form.lifeCycleAdvance : Form.Statement (.lifeCycleAdvance) := fun h => Bool.noConfusion h

theorem Form.registerWrite (x0) (x1) : Form.Statement (.registerWrite x0 x1) := fun h => Bool.noConfusion h

theorem Form.wsRefreshStart (x0) (x1) : Form.Statement (.wsRefreshStart x0 x1) := fun h => Bool.noConfusion h

theorem Form.chunkStall (x0) (x1) (x2) : Form.Statement (.chunkStall x0 x1 x2) := fun h => Bool.noConfusion h

theorem Form.attestationReport : Form.Statement (.attestationReport) := fun h => Bool.noConfusion h

end Sys2Proof.Laws
end

