-- ==== Sys2Proof/Tests/Slice0.lean ====
section
/-! SUPPORT. Tests: ill-formed terms, words of the spec's encodings, single steps on small states, and a witness for the hypotheses of every
statement. Expected results come from the spec's own examples and rules, named beside each. -/
set_option Elab.async false

namespace Sys2Proof.Tests

open Sys2Proof Sys2Proof.Machine Sys2Proof.Claims

/-- No guard. -/
def g0 : Guard := { pg := 0, pn := false }
def tf : TF := { g := g0, v := 1, f := 0, i := 0, port := false, tix := 0 }
def xf : XF := { g := g0, d := 1, a := 2, b := 0, c := 0, ef := .n8, rnd := .rne, sat := false, gap := 0, ct := 0x1FF, m := 0 }
def mf : MF := { g := g0, d := 1, a := 2, b := 0, alc := 0, scp := 1, ord := .plain, md := 0, tix := 0x1FF, off := 0 }
def sf : SF := { g := g0, d := 1, a := 2, b := 0, rt := 0x1FF, hi := 0 }
def ef0 : EntF := { arity := .mon, slot := 0, len := 3, feat := 31, pcls := 0, alt := 0 }

/-! ### Ill-formed terms: one for each check of R53 -/

/-- Values that are not legal (R53 check 4). -/
theorem test_illegal_values :
    ∀ i ∈ [Instr.bfx g0 1 1 60 5 true, .bfi g0 1 1 0 0, .cmp g0 .eq 0 1 1, .cmpi g0 .eq 0 1 1, .fcmp g0 .single .eq 0 1 1, .mhash g0 65 1 1 3,
      .pop g0 .and 0 1 1, .mfs g0 1 11 0, .mts g0 1 11 0, .ent { ef0 with len := 0 }, .ent { ef0 with pcls := 5 },
      .ent { ef0 with arity := .sel, alt := 1536 }, .falloc { tf with v := 0 } 6 0 false, .falloc { tf with v := 0, tix := 320 } 0 0 false,
      .send { tf with tix := 320 } .scalar 0, .halloc tf 5, .swt tf 320 0, .sendm tf 320 0, .join { tf with v := 0 }, .wait { tf with v := 0 },
      .leave { tf with v := 0 }, .arrive tf 10, .arrive { tf with v := 0 } 0, .psn g0 (.test 0)],
      i.wellFormed = false := by decide

/-- Formats, completion targets and modes of X words that are not legal (R53 check 4, R188, R189, R274). -/
theorem test_illegal_x :
    ∀ i ∈ [Instr.vadd { xf with ef := .n8, rnd := .rtz }, .vadd { xf with ct := 320 }, .vmin { xf with ef := .f4x }, .vabs xf, .vlog .and { xf with ef := .f32 },
      .vbit .bswap xf, .vcmp .un xf, .vsel { xf with ef := .f4x }, .vqnt { xf with ef := .f64 }, .vdqn xf, .vred .sum { xf with ef := .f4x },
      .vfill .iota { xf with ef := .f32, a := 0 }, .vhash 0 { xf with b := 3 }, .vpack false { xf with ef := .n16 }, .vmov { xf with m := 3 }, .vrnd xf,
      .mlds { xf with d := 0, ef := .i64 }, .mstt { xf with ef := .n4 }, .mout { xf with ef := .f32, m := 2 }, .mtkr true { xf with a := 0, ef := .f32 },
      .mspm true { xf with d := 0, ef := .n8 }, .mswp { xf with d := 0, a := 0, ef := .i8, ct := 400 },
      .mclaim { xf with ef := .i8, b := 3, c := 4, ct := 0x1FF }],
      i.wellFormed = false := by decide

/-- Scopes, sizes and targets of M and S words that are not legal (R53 check 4, R219, R321). -/
theorem test_illegal_m :
    ∀ i ∈ [Instr.ld mf, .ld { mf with tix := 0, scp := 10 }, .ld { mf with tix := 0, md := 7 }, .st { mf with scp := 10 }, .fence { mf with off := 0 },
      .fence { mf with d := 0, a := 0, off := 1 }, .sopen mf, .sopen { mf with tix := 0, scp := 2 }, .sclose { mf with d := 0, a := 0, scp := 2 },
      .wsld { mf with scp := 5 }, .migr mf, .qryState { sf with a := 0 }, .omrkTag { sf with d := 0, a := 0, rt := 0 },
      .pplace false { sf with rt := 320 }],
      i.wellFormed = false := by decide

/-- Fields that the instruction does not use and that are not zero (R53 check 3). -/
theorem test_unused_fields :
    ∀ i ∈ [Instr.pop g0 .not 1 1 1, .pop g0 .set 1 1 0, .mfs g0 1 0 1, .ent { ef0 with slot := 1 }, .ent { ef0 with arity := .dya, alt := 2 },
      .falloc tf 0 0 false, .send tf .scalar 1, .sendx { tf with tix := 1 } 2 0, .leave { tf with i := 1 }, .arrive { tf with port := true } 0,
      .vadd { xf with c := 1 }, .vabs { xf with ef := .i8, b := 1 }, .vlog .not { xf with b := 1 }, .vsh .shl { xf with m := 2 }, .vcmp .eq { xf with sat := true },
      .vsel { xf with rnd := .rtz }, .vqnt { xf with ef := .i8, m := 1 }, .vred .max { xf with rnd := .rtz }, .vfill .iota xf, .vmov { xf with b := 1 },
      .mlds xf, .mswp xf, .mstr { xf with b := 3 }, .manc { xf with d := 0 }, .mout { xf with ef := .f32, b := 1 }, .mclr { xf with d := 0, ef := .i8 },
      .ld { mf with b := 1, tix := 0 }, .ldt { mf with md := 1 }, .gth { mf with md := 4 }, .atom .add { mf with b := 1 }, .vatom .add { mf with off := 3 },
      .fence { mf with off := 257 }, .sclose mf, .pref mf, .migr { mf with scp := 5, off := 1 }, .gbump { mf with scp := 5, a := 1 },
      .pplace false { sf with hi := 1 }, .qryState { sf with b := 1, rt := 0 }, .xcntArr sf, .xverGet { sf with rt := 0 }, .otrc { sf with hi := 65536 }],
      i.wellFormed = false := by decide

/-! ### Words of the encodings -/

/-- The word decodes to the instruction. -/
def reads (p : Word × Instr) : Bool :=
  match decode p.1 with
  | .ok i => decide (i = p.2)
  | .error _ => false

/-- The word is no instruction. -/
def refused (w : Word) : Bool :=
  match decode w with
  | .ok _ => false
  | .error _ => true

/-- Group 0 (R128 to R133). -/
theorem test_words_integer :
    ∀ p ∈ [((0x0267890000000000 : Word), Instr.sub { pg := 3, pn := false } 7 8 9), (0x1606200020000000, .bitop g0 .popc 6 2),
      (0x1906123000000000, .sel g0 6 1 2 3), (0x1E02670060000000, .cmp g0 .lo 2 6 7), (0x1F011005FFFFFFFB, .cmpi g0 .ge 1 1 0xFFFFFFFB),
      (0x1B066000FFFFFFFF, .addi g0 6 6 0xFFFFFFFF), (0x1A09000112345678, .movi g0 true 9 0x12345678), (0x1706100000002308, .bfx g0 6 1 8 12 true),
      (0x1806200000000228, .bfi g0 6 2 40 8)], reads p = true := by decide

/-- Group 1 (R134 to R143). -/
theorem test_words_float :
    ∀ p ∈ [((0x20061200D0000000 : Word), Instr.fadd g0 .double .rup 6 1 2), (0x2306123000000000, .fma g0 .single .rne 6 1 2 3),
      (0x2801120400000000, .fcmp g0 .single .lt 1 1 2), (0x2906100250000000, .fcvt g0 .double .rtz .toi 6 1), (0x2A06100000000000, .fcls g0 .single 6 1),
      (0x2C06100C9E3779B9, .mhash g0 12 6 1 0x9E3779B9), (0x2D03120030000000, .pop g0 .andn 3 1 2), (0x2E06000000000000, .pmov g0 false 6),
      (0x2E00600010000000, .pmov g0 true 6), (0x300060000003000A, .mts g0 6 10 3), (0x3106123010000000, .clamp g0 .unsigned 6 1 2 3),
      (0x3206100010000000, .iabs g0 true 6 1)], reads p = true := by decide

/-- Group 2 (R144 to R158). -/
theorem test_words_sequencer :
    ∀ p ∈ [((0x400C14A001036000 : Word), Instr.ent { arity := .sel, slot := 5, len := 10, feat := 0, pcls := 1, alt := 27 }),
      (0x4106900000000004, .ldf g0 false 6 9 4), (0x4207000000000002, .stf g0 7 0 2), (0x4300000000000300, .fclr g0 0 0 3),
      (0x440000002800004A, .falloc { tf with v := 0, tix := 5 } 2 1 true), (0x4500300000000000, .ffree g0 3),
      (0x4606001008000000, .send { tf with v := 6, tix := 1 } .tile 0), (0x4707000020000201, .sendc { tf with v := 7, tix := 4 } 1 2),
      (0x4B08000000000000, .wadv g0 8), (0x4C40000000000000, .endH { pg := 2, pn := false }), (0x4D08000008000000, .join { tf with v := 8, tix := 1 }),
      (0x4F08000000000002, .arrive { tf with v := 8 } 2), (0x5106000018000000, .halloc { tf with v := 6, tix := 3 } 0), (0x5300600000000000, .hdec g0 6),
      (0x5406000000000001, .hinfo { tf with v := 6 } true), (0x550000000000002A, .trap g0 0x2A), (0x570600001000000C, .sys { tf with v := 6, tix := 2 } 12),
      (0x5800900000000000, .resmGo g0 9), (0x5903000000000000, .psn g0 (.test 3)), (0x5900000010000000, .psn g0 .set)],
      reads p = true := by decide

/-- The registers of the tile examples: D is s7, A is s6, B is s5. -/
def x7 : XF := { xf with d := 7, a := 6, b := 5 }

/-- Group 3 (R186 to R209). -/
theorem test_words_vector :
    ∀ p ∈ [((0x6A07650028201FF0 : Word), Instr.vcmp .lt { x7 with ef := .f32 }), (0x6B07654008001FF0, .vsel { x7 with ef := .f16, c := 4 }),
      (0x7E07600020101FF0, .vmask .lower { x7 with b := 0 }), (0x7A07600010101FF0, .vunpk true { x7 with b := 0 }),
      (0x6C07600005BB1FF0, .vcvt { x7 with b := 0, ef := .b8 true true 2, rnd := .sr, sat := true }), (0x7C07600008241FF0, .vrnd { x7 with b := 0, ef := .f32, rnd := .rdn }),
      (0x6F07600078101FF0, .vfn .gelu { x7 with b := 0, ef := .bf16 }), (0x7007600008001FF1, .vred .sum { x7 with b := 0, ef := .f16, m := 1 }),
      (0x7107600008201FF2, .vscan .sum { x7 with b := 0, ef := .f32, m := 2 }), (0x7307000010501FF0, .vfill .iota { x7 with a := 0, b := 0, ef := .n16 }),
      (0x7407600004C01FF0, .vtrn { x7 with b := 0, ef := .b8 false true 3 }), (0x7B07650008201FF1, .vmov { x7 with ef := .f32, m := 1 }),
      (0x76076500C0701FF0, .vhash 12 { x7 with ef := .n32 }), (0x6D0760000C000022, .vqnt { x7 with b := 0, ef := .f4x, ct := 2, m := 2 })],
      reads p = true := by decide

/-- Group 4 (R274 to R285). -/
theorem test_words_matrix :
    ∀ p ∈ [((0x8000600004C01FF0 : Word), Instr.mlds { x7 with d := 0, b := 0, ef := .b8 false true 3 }), (0x8C00600010301FF0, .mspm true { x7 with d := 0, b := 0, ef := .n4 }),
      (0x8200000000001FF0, .mswp { x7 with d := 0, a := 0, b := 0, ef := .i8 }), (0x8307650004C01FF1, .mstr { x7 with ef := .b8 false true 3, m := 1 }),
      (0x8500000010001FF0, .macc true { x7 with d := 0, a := 0, b := 0, ef := .i8 }), (0x8807600000801FF2, .mout { x7 with b := 0, ef := .i64, m := 2 }),
      (0x8900600000001FF1, .mclr { x7 with d := 0, b := 0, ef := .i8, m := 1 }), (0x8A07000010701FF0, .mtkr true { x7 with a := 0, b := 0, ef := .n32 }),
      (0x8D07654000000000, .mclaim { x7 with ef := .i8, c := 4, ct := 0 }), (0x9100000010000020, .mstat true { x7 with d := 0, a := 0, b := 0, ef := .i8, ct := 2 })],
      reads p = true := by decide

/-- The registers of the memory examples: D is s7, A is s6. -/
def m7 : MF := { mf with d := 7, a := 6 }

/-- Group 5 (R219, R239 to R247). -/
theorem test_words_memory :
    ∀ p ∈ [((0xA000600106018002 : Word), Instr.ld { m7 with d := 0, md := 6, tix := 3, off := 2 }),
      (0xA107601543010002, .st { m7 with alc := 1, scp := 5, ord := .release, md := 3, tix := 2, off := 2 }),
      (0xB207601943018000, .dst { m7 with alc := 1, scp := 9, ord := .release, md := 3, tix := 3 }),
      (0xA207680100008002, .ldt { m7 with b := 8, tix := 1, off := 2 }), (0xA307602100FF8000, .stt { m7 with alc := 2 }),
      (0xA407650103020001, .gth { m7 with b := 5, md := 3, tix := 4, off := 1 }), (0xA507650102FF8000, .sct { m7 with b := 5, md := 2 }),
      (0xA807600500008004, .put { m7 with scp := 5, tix := 1, off := 4 }), (0xAA08600102020000, .sopen { m7 with d := 8, md := 2, tix := 4 }),
      (0xAB00000102FF8000, .sclose { m7 with d := 0, a := 0, md := 2 }), (0xAC00800100010002, .fence { m7 with d := 0, a := 8, tix := 2, off := 2 }),
      (0xAE09680500008000, .migr { m7 with d := 9, b := 8, scp := 5, tix := 1 }), (0xAF08690500010000, .wsld { m7 with d := 8, b := 9, scp := 5, tix := 2 })],
      reads p = true := by decide

/-- Group 6 (R321, R352, R375, R398, R433). -/
theorem test_words_system :
    ∀ p ∈ [((0xC008900000000001 : Word), Instr.pplace false { sf with d := 8, a := 9, rt := 1 }), (0xC0089001000001FF, .pplace true { sf with d := 8, a := 9 }),
      (0xC208000200000003, .rmarkResume { sf with d := 8, a := 0, rt := 3 }), (0xC300000200000000, .qryPower { sf with d := 0, a := 0, rt := 0 }),
      (0xC408600000000401, .lnch false { sf with d := 8, a := 6, rt := 1, hi := 2 }), (0xC500600000000600, .pclaimClaim { sf with d := 0, a := 6, rt := 0, hi := 3 }),
      (0xC706780000000000, .cgrpMake { sf with d := 6, a := 7, b := 8, rt := 0 }), (0xC8067003000001FF, .cred 3 { sf with d := 6, a := 7 }),
      (0xC906000100000003, .cstat true { sf with d := 6, a := 0, rt := 3 })], reads p = true := by decide

/-- Group 6, the engines of experts, recovery and observation. -/
theorem test_words_engines :
    ∀ p ∈ [((0xCA060000000001FF : Word), Instr.ccan { sf with d := 6, a := 0 }), (0xCB067000000001FF, .xcntAdd { sf with d := 6, a := 7 }), (0xCC007801000001FF, .xdspArr { sf with d := 0, a := 7, b := 8 }),
      (0xCD00600100000001, .xverWait { sf with d := 0, a := 6, rt := 1 }), (0xCE00600000000003, .xmrg { sf with d := 0, a := 6, rt := 3 }),
      (0xD0060001000001FF, .xretFree { sf with d := 6, a := 0 }), (0xD208670000000A01, .rseal { sf with d := 8, a := 6, b := 7, rt := 1, hi := 5 }),
      (0xD300600100000003, .rrdpCheck { sf with d := 0, a := 6, rt := 3 }), (0xD500000000002002, .omrkWalk { sf with d := 0, a := 0, rt := 2, hi := 16 }),
      (0xD7060000000085FF, .otrc { sf with d := 6, a := 0, hi := 0x42 }), (0xD906700000000003, .ostpArm { sf with d := 6, a := 7, rt := 3 })],
      reads p = true := by decide

/-- A must-be-zero field that is set, a reserved function (R53). -/
theorem test_refused_fields :
    [(0x1900000800000000 : Word), 0x0000000010000000, 0x5500000100000000, 0x4B08000000000001, 0x8200000000001FF1].all refused = true := by decide

/-- Reserved opcodes (R54). -/
theorem test_refused_opcodes :
    [(0x3300000000000000 : Word), 0x5A00000000000000, 0x7F00000000000000, 0x9200000000000000, 0xB300000000000000, 0xDA00000000000000, 0xFF00000000000000].all refused = true := by decide

/-! ### Steps -/

/-- Reset with a word placed for the first step (log entry 1). -/
def placed (w : Nat) : State := State.reset.withFetchWord 64 w

/-- What the placed word leaves in a register, if its step goes on. -/
def regAfter (w : Nat) (r : Reg) : Option (Word × Nat) :=
  match step (placed w) with
  | .next u => (u.act? 2048 0).map fun t => (t.reg r, t.pc)
  | _ => none

/-- The traps queued at the site after the placed word's step: code and DETAIL. -/
def trapAfter (w : Nat) : List (Nat × Word) :=
  match step (placed w) with
  | .next u => (u.site 2048).seq.trapQ.map fun r => (r.status.toNat % 2 ^ 16, r.detail)
  | _ => []

/-- `addi s6, s6, -1` of 0 wraps (R132); `mhash` of R138's example hashes 0. -/
theorem test_step_addi : regAfter 0x1B066000FFFFFFFF 6 = some (0xFFFFFFFFFFFFFFFF, 2) := by decide

/-- `movi.hi s9, 0x1234_5678` (R132). -/
theorem test_step_movi : regAfter 0x1A09000112345678 9 = some (0x1234567800000000, 2) := by decide

/-- `trap 0x2A` is 0x010F with DETAIL 0x2A, `brk 7` is 0x0110 with DETAIL 7 (R155). -/
theorem test_step_trap : trapAfter 0x550000000000002A = [(0x010F, 0x2A)] ∧ trapAfter 0x5600000000000007 = [(0x0110, 7)] := by decide

/-- A reserved opcode takes 0x0101, whose DETAIL is the word (R53). -/
theorem test_step_reserved : trapAfter 0x3300000000000001 = [(0x0101, 0x3300000000000001)] := by decide

/-- Reset meets the invariant that every issue keeps. -/
theorem test_reset_memOk : MemOk State.reset := rfl

/-! ### Witnesses: states and operands that meet the hypotheses of the statements -/

/-- The activation of a placed word, with `x`, `y`, `z` in registers 1, 2, 3. -/
def actWith (x y z : Word) : Activation :=
  let t : Activation := ((placed 0).act? 2048 0).getD
    { ctx := 7, ip := 0, pc := 1, limit := 64, fp := 0, itn := 0, pz := false, inv := false, ovf := false, dz := false, out := false,
      regs := Vector.replicate 16 0, preds := 0, effects := [], armB := false, ended := false, feat := 31,
      tok := Token.ofWords 0 0, claim := none, partner := 0, step := false, trapHandler := false, tag := false, hist := 0,
      org := engineOrigin, deps := [], committing := none }
  { t with regs := ((t.regs.set 1 x).set 2 y).set 3 z }

/-- The part with that activation about to issue a word. -/
def ready (t : Activation) : State := { (placed 0).setAct 2048 0 t with cur := (2048, 0) }

/-- `Ready`, evaluated. -/
def readyB (i : Instr) (s : State) (t : Activation) : Bool :=
  decide (s.act? s.cur.1 s.cur.2 = some t) && (i.tixs.all fun k => decide (k < s.targetCount s.cur.1 t.ctx)) &&
  (match i.sdx? with
   | none => true
   | some k => decide (k < s.streamCount s.cur.1 t.ctx)) &&
  (i.needs &&& ~~~t.feat == 0) && (!i.privileged || t.ctx == 7) && t.guardOk i.guard

theorem readyB_sound {i : Instr} {s : State} {t : Activation} (h : readyB i s t = true) : Ready i s t := by
  simp only [readyB, Bool.and_eq_true, decide_eq_true_eq, List.all_eq_true, beq_iff_eq, Bool.or_eq_true, Bool.not_eq_true'] at h
  obtain ⟨⟨⟨⟨⟨h1, h2⟩, h3⟩, h4⟩, h5⟩, h6⟩ := h
  refine ⟨h1, h2, fun k hk => ?_, h4, fun hp => ?_, h6⟩
  · rw [hk] at h3; exact of_decide_eq_true h3
  · rcases h5 with h | h
    · rw [hp] at h; exact absurd h nofun
    · exact h

/-- Every word of the list is ready in the state of `t`. -/
theorem ready_all {t : Activation} {l : List Instr} (h : (l.all fun i => readyB i (ready t) t) = true) : ∀ i ∈ l, Ready i (ready t) t :=
  fun i hi => readyB_sound (List.all_eq_true.1 h i hi)

theorem witness_IntegerResults :
    ∀ i ∈ [Instr.nop g0, .add g0 4 1 2, .sub g0 4 1 2, .mul g0 4 1 2, .mulh g0 4 1 2, .mulhn g0 4 1 2, .and g0 4 1 2, .or g0 4 1 2, .xor g0 4 1 2,
      .andn g0 4 1 2, .shl g0 4 1 2, .shr g0 4 1 2, .sra g0 4 1 2, .rotl g0 4 1 2, .min g0 4 1 2, .max g0 4 1 2, .minn g0 4 1 2, .maxn g0 4 1 2],
      Ready i (ready (actWith 5 64 0)) (actWith 5 64 0) := ready_all (by decide)

/-- Divisors 0, −1 of the least integer, and any other. -/
theorem witness_DivisionsAndBitCounts :
    let l := [Instr.div g0 4 1 2, .rem g0 4 1 2, .divn g0 4 1 2, .remn g0 4 1 2, .bitop g0 .clz 4 1, .bitop g0 .ctz 4 1, .bitop g0 .popc 4 1,
      .bitop g0 .brev 4 1, .bitop g0 .bswap 4 1]
    (∀ i ∈ l, Ready i (ready (actWith 0 0 0)) (actWith 0 0 0)) ∧
    (∀ i ∈ l, Ready i (ready (actWith (1 <<< 63) (-1) 0)) (actWith (1 <<< 63) (-1) 0)) ∧
    ((actWith (1 <<< 63) (-1) 0).reg 1).toInt = -2 ^ 63 ∧ ((actWith (1 <<< 63) (-1) 0).reg 2).toInt = -1 ∧
    (∀ i ∈ l, Ready i (ready (actWith (1 <<< 63) 2 0)) (actWith (1 <<< 63) 2 0)) :=
  ⟨ready_all (by decide), ready_all (by decide), by decide, by decide, ready_all (by decide)⟩

theorem witness_ImmediatesAndComparisons :
    (∀ i ∈ [Instr.movi g0 false 4 3, .movi g0 true 4 3, .addi g0 4 1 3, .logi g0 .and 4 1 3, .logi g0 .or 4 1 3, .logi g0 .xor 4 1 3, .logi g0 .andn 4 1 3,
      .shfi g0 .shl 4 1 63, .shfi g0 .shr 4 1 63, .shfi g0 .sra 4 1 63, .shfi g0 .rotl 4 1 63, .bfx g0 4 1 0 64 false, .bfx g0 4 1 63 1 true, .bfi g0 4 1 0 64,
      .cmp g0 .lt 1 1 2, .cmpi g0 .hs 1 1 5], Ready i (ready (actWith 5 6 7)) (actWith 5 6 7)) ∧
    (∀ i ∈ [Instr.bfx g0 4 1 0 64 false, .bfx g0 4 1 63 1 true, .bfi g0 4 1 0 64, .bfi g0 4 1 63 1], i.wellFormed = true) :=
  ⟨ready_all (by decide), by decide⟩

theorem witness_SelectByPredicate : ∀ i ∈ [Instr.sel g0 4 1 2 0, .sel g0 4 1 2 3], Ready i (ready (actWith 5 6 7)) (actWith 5 6 7) := ready_all (by decide)

theorem witness_RegistersAndTokens : (15 : Reg) ≠ 0 ∧ (1 : Reg) ≠ 0 ∧ (7 : PredReg) ≠ 0 ∧ 6 ≤ (6 : Reg).toNat := by decide

theorem witness_FloatingPoint :
    let t := actWith 0x7FF8000000000000 0x3FF0000000000000 0
    (∀ i ∈ [Instr.fadd g0 .double .sr 4 1 2, .fsub g0 .double .rne 4 1 2, .fmul g0 .double .rne 4 1 2, .fma g0 .double .rne 4 1 2 3, .fdiv g0 .double .rne 4 1 2,
      .fsqrt g0 .single .rne 4 1, .fmin g0 .double 4 1 2, .fmax g0 .double 4 1 2, .fcmp g0 .double .lt 1 1 2, .fcvt g0 .double .rne .cvf 4 1,
      .fcvt g0 .double .rne .fri 4 1, .fcvt g0 .double .rne .frn 4 1, .fcvt g0 .double .rne .toi 4 1, .fcvt g0 .double .rne .ton 4 1, .fcls g0 .double 4 1],
      Ready i (ready t) t) ∧ (floatIn .double (t.reg 1)).isNan = true :=
  ⟨ready_all (by decide), by decide⟩

theorem witness_RoundingIsNearest : 0 < 65536 ∧ 65535 < 65536 := by decide

theorem witness_ScalarResults :
    (∀ i ∈ [Instr.lea g0 3 4 1 2 5, .mhash g0 64 4 1 3, .pop g0 .and 1 2 3, .pop g0 .or 1 2 3, .pop g0 .xor 1 2 3, .pop g0 .andn 1 2 3, .pop g0 .not 1 2 0,
      .pop g0 .set 1 0 0, .pop g0 .clr 1 0 0, .pmov g0 false 4, .pmov g0 true 1, .clamp g0 .signed 4 1 2 3, .clamp g0 .unsigned 4 1 2 3, .clamp g0 .single 4 1 2 3,
      .clamp g0 .double 4 1 2 3, .iabs g0 false 4 1, .iabs g0 true 4 1], Ready i (ready (actWith (1 <<< 63) 6 7)) (actWith (1 <<< 63) 6 7)) ∧
    (Instr.mhash g0 64 4 1 3).wellFormed = true ∧ (Instr.mhash g0 1 4 1 3).wellFormed = true ∧ (7 : PredReg) ≠ 0 :=
  ⟨ready_all (by decide), by decide, by decide, by decide⟩

/-- A policy of 3 in the lowest and in the highest field, and none. -/
theorem witness_SpecialRegisters :
    (∀ i ∈ [Instr.mfs g0 4 0 0, .mfs g0 4 10 3, .mts g0 1 8 7, .mts g0 1 10 0], Ready i (ready (actWith 0x03 0 0)) (actWith 0x03 0 0)) ∧
    Ready (.mts g0 1 10 0) (ready (actWith 0xC0 0 0)) (actWith 0xC0 0 0) ∧ Ready (.mts g0 1 10 0) (ready (actWith 0x82 0 0)) (actWith 0x82 0 0) ∧
    (∃ k < 4, ((actWith 0x03 0 0).reg 1).extractLsb' (2 * k) 2 = 3) ∧ (∃ k < 4, ((actWith 0xC0 0 0).reg 1).extractLsb' (2 * k) 2 = 3) ∧
    (¬∃ k < 4, ((actWith 0x82 0 0).reg 1).extractLsb' (2 * k) 2 = 3) ∧ ((ready (actWith 3 0 0)).slot? 2048 7).isSome = true ∧
    ((ready (actWith 3 0 0)).page? 2048 7).isSome = true :=
  ⟨ready_all (by decide), readyB_sound (by decide), readyB_sound (by decide), ⟨0, by decide⟩, ⟨3, by decide⟩, by decide, by decide, by decide⟩

/-- A frame of class 0, eight slots, at slot 64, for context 7, or for context 1. -/
def framed (t : Activation) (owner : Nat) : State :=
  (ready t).modSeq 2048 fun q => { q with frames := [(64, { cls := 0, owner := owner, origin := .trapFrame })] }

theorem ready_framed {t : Activation} {o : Nat} {l : List Instr} (h : (l.all fun i => readyB i (framed t o) t) = true) : ∀ i ∈ l, Ready i (framed t o) t :=
  fun i hi => readyB_sound (List.all_eq_true.1 h i hi)

/-- The last slot of the frame, and the one after it; an allocated base, and none; context 7, the owner, and another context. -/
theorem witness_FrameOperands :
    let t := actWith 64 65 0
    let u := { t with ctx := 1 }
    let s := framed t 7
    Reaches s t (frameOf t 1) 7 1 ∧ Reaches s t (frameOf t 1) 0 (7 + 1) ∧ Reaches s t (t.reg 1).toNat 0 0 ∧ freedBefore t (t.reg 1).toNat = false ∧
    freedBefore { t with effects := [.frameFree 64] } (t.reg 1).toNat = true ∧
    (∀ i ∈ [Instr.ldf g0 false 4 1 7, .ldf g0 true 4 1 7, .stf g0 4 1 7, .fclr g0 1 0 7, .ffree g0 1, .ldf g0 false 4 2 0, .stf g0 4 2 0, .ldf g0 false 4 1 8, .stf g0 4 1 8],
      Ready i s t) ∧
    s.frame? s.cur.1 (frameOf t 2) = none ∧ (∃ f, s.frame? s.cur.1 (frameOf t 1) = some f ∧ 8 * 2 ^ f.cls ≤ 8) ∧
    (∀ i ∈ [Instr.ldf g0 false 4 1 7, .stf g0 4 1 7], Ready i (framed u 2) u) ∧ u.ctx ≠ 7 ∧ (∃ f, (framed u 2).frame? 2048 (frameOf u 1) = some f ∧ f.owner ≠ u.ctx) :=
  ⟨⟨by decide, { cls := 0, owner := 7, origin := .trapFrame }, by decide⟩, ⟨by decide, { cls := 0, owner := 7, origin := .trapFrame }, by decide⟩,
   ⟨by decide, { cls := 0, owner := 7, origin := .trapFrame }, by decide⟩, by decide, by decide, ready_framed (by decide), by decide,
   ⟨{ cls := 0, owner := 7, origin := .trapFrame }, by decide⟩, ready_framed (by decide), by decide, ⟨{ cls := 0, owner := 2, origin := .trapFrame }, by decide⟩⟩

/-- The same page for context 1, with these targets in both. -/
def paged (t : Activation) (targets : List Word) : State :=
  let s := ready t
  match s.slot? 2048 7 with
  | some k =>
    let k := { k with page := k.page.map fun p => { p with targets := targets } }
    s.modSite 2048 fun x => { x with ctxs := [(1, k), (7, k)] }
  | none => s

theorem ready_paged {t : Activation} {e : List Word} {l : List Instr} (h : (l.all fun i => readyB i (paged t e) t) = true) : ∀ i ∈ l, Ready i (paged t e) t :=
  fun i hi => readyB_sound (List.all_eq_true.1 h i hi)

/-- Entry of context 7 at (3, 3), the last site of a 4 × 4 region; of (4, 0), outside it; of context 1. -/
def eIn : Word := 0x0C3000E000000000
def eOut : Word := 0x100000E000000000
def eOther : Word := 0x0000002000000000

theorem witness_SendFamily :
    let t := actWith 64 eIn 0
    let u := { actWith 64 eIn 0 with ctx := 1 }
    let s := paged t [eIn, eIn]
    MayName s t (entryOf s t 0) ∧ MayName s t (entryOf s t 1) ∧ MayName s t (t.reg 2) ∧ badEntry s s.cur.1 t.ctx (t.reg 2) = false ∧ t.ctx = 7 ∧
    (Desc.of (Desc.word 2048 0 0 0 0x01010101)).wellFormed = true ∧
    (∀ i ∈ [Instr.send tf .scalar 0, .send tf .tile 0, .send tf .ctl 0, .send tf .sys 0, .sendc tf 1 2, .sendx tf 2 0, .swt tf 1 2, .sendm tf 1 0], Ready i s t) ∧
    Ready (.send tf .tile 0) (paged (actWith (Desc.word 2048 0 0 0 0x01010101) 0 0) [eIn]) (actWith (Desc.word 2048 0 0 0 0x01010101) 0 0) ∧
    (∀ i ∈ [Instr.send tf .scalar 0, .send tf .sys 0, .sendx tf 2 0], Ready i (paged u [eOther]) u) ∧ u.ctx ≠ 7 ∧
    (Entry.of (entryOf (paged u [eIn]) u 0)).ctx.toNat ≠ u.ctx ∧ (Entry.of (u.reg 2)).ctx.toNat ≠ u.ctx ∧ badEntry (paged u [eIn]) 2048 1 (u.reg 2) = false ∧
    Ready (.send tf .scalar 0) (paged t [eOut]) t ∧ (Entry.of (entryOf (paged t [eOut]) t 0)).remote = false ∧
    4 ≤ (Entry.of (entryOf (paged t [eOut]) t 0)).dx.toNat ∧ badEntry (paged t [eIn]) 2048 7 1 = true ∧
    Ready (.sendx tf 1 0) (paged (actWith 1 0 0) [eIn]) (actWith 1 0 0) :=
  ⟨⟨by decide +kernel, .inr ⟨_, rfl, by decide +kernel⟩⟩, ⟨by decide +kernel, .inr ⟨_, rfl, by decide +kernel⟩⟩, ⟨by decide +kernel, .inr ⟨_, rfl, by decide +kernel⟩⟩, by decide +kernel, by decide +kernel, by decide +kernel,
   ready_paged (by decide +kernel), readyB_sound (by decide +kernel), ready_paged (by decide +kernel), by decide +kernel, by decide +kernel, by decide +kernel, by decide +kernel, readyB_sound (by decide +kernel), by decide +kernel, by decide +kernel,
   by decide +kernel, readyB_sound (by decide +kernel)⟩

/-- Ids at the ends of the layout: the last system site and group, and one past each field. -/
theorem witness_GroupRequests :
    GroupId 0x81F03F ∧ ¬GroupId 0x820000 ∧ ¬GroupId 0x000040 ∧ ¬GroupId 0x1000000 ∧
    (∀ i ∈ [Instr.join tf, .leave tf, .arrive tf 9, .wait tf], Ready i (ready (actWith 0x81F03F 0 0)) (actWith 0x81F03F 0 0)) ∧
    (∀ i ∈ [Instr.join tf, .leave tf, .arrive tf 9, .wait tf], Ready i (ready (actWith 0x820000 0 0)) (actWith 0x820000 0 0)) :=
  ⟨⟨by decide +kernel, by decide +kernel, by decide +kernel⟩, fun h => absurd h.2.1 (by decide +kernel), fun h => absurd h.2.2 (by decide +kernel), fun h => absurd h.1 (by decide +kernel), ready_all (by decide +kernel),
   ready_all (by decide +kernel)⟩

/-- A live 1 × 1 tile at granule 0 of site 2,048, of context 7, and its descriptor. -/
def tiled (t : Activation) : State :=
  (ready t).modSite 2048 fun x => { x with tile := { x.tile with tiles := [(0, { owner := 7, kind := 0, shape := 0x01010101, count := 1, poison := 0, dying := none })] } }
def dsc : Word := Desc.word 2048 0 0 0 0x01010101

theorem ready_tiled {t : Activation} {l : List Instr} (h : (l.all fun i => readyB i (tiled t) t) = true) : ∀ i ∈ l, Ready i (tiled t) t :=
  fun i hi => readyB_sound (List.all_eq_true.1 h i hi)

theorem witness_CommittedRequests :
    let t := actWith dsc dsc 0
    let s := tiled t
    (∃ p, s.page? s.cur.1 t.ctx = some p ∧ (p.reserve.getD 7 (0, 0)).1 = 0 ∧ (p.reserve.getD 7 (0, 0)).2 ≠ 0) ∧ t.ctx = 7 ∧
    (Desc.of (Desc.word s.cur.1 0 0 4 ((t.reg 1).toNat % 2 ^ 32))).wellFormed = true ∧ (Desc.of (t.reg 1)).wellFormed = true ∧ (Desc.of (t.reg 1)).site = s.cur.1 ∧
    (∃ x, s.liveTile? s.cur.1 (Desc.of (t.reg 1)) = some x) ∧
    (∀ i ∈ [Instr.falloc { tf with v := 0 } 0 7 true, .falloc { tf with v := 0 } 5 0 false, .halloc tf 4, .halloc tf 0, .hinfo tf true, .hinc g0 1, .hdec g0 1, .sys tf 12], Ready i s t) :=
  ⟨⟨_, rfl, by decide +kernel⟩, by decide +kernel, by decide +kernel, by decide +kernel, by decide +kernel, ⟨_, rfl⟩, ready_tiled (by decide +kernel)⟩

theorem witness_IterationNumbers :
    let t := { actWith 5 0 0 with itn := 0xFFFF }
    Ready (.wadv g0 8) (ready t) t ∧ Ready (.wadv g0 4) (ready t) t ∧ (8 : Reg) ≠ 4 ∧ Ready (.send tf .scalar 0) (ready t) t ∧ tf.i = 0 ∧ MayName (ready t) t (entryOf (ready t) t tf.tix) :=
  ⟨readyB_sound (by decide +kernel), readyB_sound (by decide +kernel), by decide +kernel, readyB_sound (by decide +kernel), by decide +kernel, ⟨by decide +kernel, .inr ⟨_, rfl, by decide +kernel⟩⟩⟩

/-- An `ent` runs at its IP: the activation of these is there, of those at the next word; ALT just after IP, at the last word, and beyond it. -/
theorem witness_ControlWords :
    let t := actWith 64 0 0
    let u := { t with pc := 0 }
    let e : EntF := { ef0 with arity := .sel, alt := 3 }
    (framed t 7).frame? 2048 (t.reg 1).toNat = some { cls := 0, owner := 7, origin := .trapFrame } ∧ freedBefore t (t.reg 1).toNat = false ∧
    (∀ i ∈ [Instr.wadv g0 8, .resmGo g0 1, .resmDrop g0 1, .resmStep g0 1, .psn g0 (.test 3), .psn g0 .set, .psn g0 .clr, .omrkTag { sf with d := 0, a := 0 }], Ready i (framed t 7) t) ∧
    (∀ i ∈ [Instr.ent ef0, .ent { e with alt := 1 }, .ent e, .ent { e with alt := 4 }, .ent { e with alt := 0 }], Ready i (ready u) u) ∧
    Ready (.ent ef0) (ready t) t ∧ t.pc ≠ t.ip.toNat ∧ u.pc = u.ip.toNat ∧ ef0.feat &&& ~~~((ready u).site 2048).feat = 0 ∧ ef0.arity ≠ .sel ∧ e.arity = .sel ∧
    u.ip.toNat < e.alt.toNat ∧ e.alt.toNat ≤ u.ip.toNat + e.len.toNat ∧ u.armB = false ∧ Ready (.ent e) (ready { u with armB := true }) { u with armB := true } ∧
    ef0.feat &&& ~~~(((ready u).modSite 2048 fun x => { x with feat := 0 }).site 2048).feat ≠ 0 :=
  ⟨by decide +kernel, by decide +kernel, ready_framed (by decide +kernel), ready_all (by decide +kernel), readyB_sound (by decide +kernel), by decide +kernel, by decide +kernel, by decide +kernel, by decide +kernel, by decide +kernel, by decide +kernel, by decide +kernel,
   by decide +kernel, readyB_sound (by decide +kernel), by decide +kernel⟩

theorem witness_SoftwareTraps :
    let t := actWith 0 0 0
    (∀ i ∈ [Instr.trap g0 42, .brk g0 7, .nop g0], Ready i (ready t) t) ∧ t.step = false ∧ (∀ i ∈ [Instr.brk g0 7, .nop g0], Ready i (ready { t with step := true }) { t with step := true }) :=
  ⟨ready_all (by decide +kernel), by decide +kernel, ready_all (by decide +kernel)⟩

theorem witness_EndOfHandler :
    let t := actWith 0 0 0
    Ready (.endH g0) (ready t) t ∧ t.guardOk { pg := 2, pn := false } = false ∧ (ready t).act? (ready t).cur.1 (ready t).cur.2 = some t :=
  ⟨readyB_sound (by decide +kernel), by decide +kernel, by decide +kernel⟩

/-- The tiles that the tile words work on: granule, KIND, EF code, rows, columns, FLAGS; each with its descriptor in the register of its number. -/
def shapes : List (Nat × Nat × Nat × Nat × Nat) :=
  [(0, 0x01, 1, 1, 0), (1, 0x01, 1, 1, 0), (0, 0x82, 1, 1, 0), (0, 0x05, 1, 1, 0), (0, 0x07, 1, 1, 0), (0, 0x09, 1, 1, 0), (0, 0x00, 1, 1, 1),
   (4, 0x09, 64, 32, 0), (4, 0x09, 64, 32, 0), (4, 0x09, 64, 32, 0), (4, 0x09, 64, 32, 0), (0, 0x03, 1, 1, 0), (0, 0x80, 1, 1, 0), (2, 0x09, 8, 32, 0)]

def descOf (k : Nat) : Word :=
  match shapes[k - 1]? with
  | some (kind, efc, r, c, f) => Desc.word 2048 (16 * k) 0 kind (efc * 2 ^ 24 + r * 2 ^ 16 + c * 2 ^ 8 + f)
  | none => 0

/-- Context 7 at a site that holds them, register k holding descriptor k; register 15 holds 128. -/
def tiles (owner : Nat) : Tbl Tile :=
  (List.range 14).map fun k => (16 * (k + 1), { owner := owner, kind := (Desc.of (descOf (k + 1))).kind, shape := (descOf (k + 1)).truncate 32, count := 1, poison := 0, dying := none })
def actTiles : Activation :=
  let t := actWith 0 0 0
  { t with regs := (((List.range 15).foldl (fun (v : Vector Word 16) k => if h : k < 16 then v.set k (descOf k) else v) t.regs).set 0 0).set 15 128 }
def onTiles (t : Activation) : State := (ready t).modSite 2048 fun x => { x with tile := { x.tile with tiles := tiles 7 } }

/-- The word is ready, its operands pass their checks, and it names no target. -/
def passes (i : Instr) : Bool :=
  let t := actTiles
  let s := onTiles t
  readyB i s t &&
  match i.xf?, i.mf?, i.sf? with
  | some x, _, _ =>
    x.ct == 0x1FF && !(cvtRndBad i (Desc.of (t.reg x.a))) &&
    (if (encode i).toNat < 2 ^ 63 then vecCheck s s.cur.1 t i (t.reg x.d) (t.reg x.a) (t.reg x.b) (t.reg x.c)
     else mxCheck s s.cur.1 t i x (t.reg x.d) (t.reg x.a) (t.reg x.b) (t.reg x.c)).isNone
  | _, some m, _ =>
    m.tix == 0x1FF &&
    (memCheck s s.cur.1 t i m ((t.reg m.a).toNat + sext m.off.toNat 15 * memUnit i) (t.reg m.d) (t.reg m.b)
      (match i with | .vatom _ m => t.reg (m.off.truncate 4) | _ => 0)).isNone
  | _, _, some x => x.rt == 0x1FF && (sysCheck (s.asidOf s.cur.1 t.ctx) i t).isNone
  | _, _, _ => false

def vx (d a b c : Nat) (e : EF) : XF := { g := g0, d := BitVec.ofNat 4 d, a := BitVec.ofNat 4 a, b := BitVec.ofNat 4 b, c := BitVec.ofNat 4 c, ef := e, rnd := .rne, sat := false, gap := 0, ct := 0x1FF, m := 0 }
def vm (d a b : Nat) (md : BitVec 5) : MF := { g := g0, d := BitVec.ofNat 4 d, a := BitVec.ofNat 4 a, b := BitVec.ofNat 4 b, alc := 0, scp := 1, ord := .plain, md := md, tix := 0x1FF, off := 0 }

theorem witness_VectorIssue :
    [Instr.vadd (vx 1 1 1 0 .n8), .vsub (vx 1 1 1 0 .n8), .vmul (vx 1 1 1 0 .n8), .vfma (vx 1 1 1 1 .n8), .vmin (vx 1 1 1 0 .n8), .vmax (vx 1 1 1 0 .n8),
      .vabs (vx 3 3 0 0 .f32), .vneg (vx 3 3 0 0 .f32), .vlog .and (vx 1 1 1 0 .n8), .vsh .shl (vx 1 1 1 0 .n8), .vcmp .eq (vx 2 1 1 0 .n8), .vsel (vx 1 1 1 2 .n8),
      .vcvt (vx 1 3 0 0 .n8), .vqnt (vx 7 3 0 0 .i8), .vdqn (vx 3 7 0 0 .f32), .vfn .exp2 (vx 3 3 0 0 .f32), .vred .sum (vx 1 1 0 0 .n8), .vscan .sum (vx 1 1 0 0 .n8),
      .vbc (vx 1 1 0 0 .n8), .vfill .const (vx 1 0 0 0 .n8), .vtrn (vx 1 1 0 0 .n8), .vperm (vx 1 1 4 0 .n8), .vhash 8 (vx 4 1 0 0 .n8), .vpopc false (vx 1 1 0 0 .n8),
      .vhist (vx 5 1 0 0 .n8), .vpack false (vx 6 2 0 0 .n8), .vunpk false (vx 2 6 0 0 .n8), .vmov (vx 1 1 0 0 .n8), .vrnd (vx 3 3 0 0 .f32), .vbit .clz (vx 1 1 0 0 .n8),
      .vmask .lower (vx 2 0 0 0 .n8)].all passes = true := by decide +kernel

theorem witness_MatrixIssue :
    [Instr.mlds (vx 0 1 0 0 .n8), .mldw (vx 0 0 1 0 .n8), .mswp (vx 0 0 0 0 .i8), .mstr (vx 0 1 0 0 .n8), .mstt (vx 0 1 0 0 .n8), .macc true (vx 0 0 0 0 .i8), .manc (vx 0 0 0 0 .i8),
      .mepc (vx 0 14 0 0 .i8), .mout (vx 3 0 0 0 .f32), .mclr (vx 0 0 0 0 .i8), .mtkr true (vx 5 0 0 0 .n32), .mtkc (vx 0 0 0 0 .i8), .mspm true (vx 0 12 0 0 .n4),
      .mclaim (vx 8 9 10 11 .i8), .mrel (vx 8 9 10 11 .i8), .msave (vx 8 9 10 11 .i8), .mrest (vx 8 9 10 11 .i8), .mstat true (vx 0 0 0 0 .i8)].all passes = true ∧
    (let t := { actTiles with ctx := 1 }
     readyB (.mswp (vx 0 0 0 0 .i8)) (onTiles t) t = true ∧ t.ctx ≠ 7 ∧ ((onTiles t).site 2048).mx.owner ≠ some t.ctx) := by decide +kernel

theorem witness_MemoryIssue :
    [Instr.st (vm 1 15 0 3), .dst (vm 1 15 0 3), .ldt (vm 1 15 0 0), .stt (vm 1 15 0 0), .gth (vm 5 15 5 2), .sct (vm 5 15 5 2), .atom .add (vm 5 15 0 0), .vatom .add (vm 5 15 5 0),
      .put (vm 1 15 0 0), .get (vm 1 15 0 0), .sclose (vm 0 0 0 2), .fence { vm 1 1 0 0 with off := 1 }, .pref (vm 0 15 0 0), .migr (vm 1 15 1 0), .wsld (vm 1 15 15 0), .inv (vm 1 15 1 0),
      .gbump (vm 1 0 0 0)].all passes = true ∧
    (let t := actTiles
     let s := onTiles t
     readyB (.ld { vm 0 15 0 3 with tix := 319 }) s t = true ∧ (memCheck s s.cur.1 t (.ld { vm 0 15 0 3 with tix := 319 }) (vm 0 15 0 3) 128 0 0 0).isNone = true ∧
     readyB (.sopen { vm 0 15 0 31 with tix := 0 }) s t = true ∧ streamTargetBad s 2048 7 { vm 0 15 0 31 with tix := 0 } = false ∧
     (Entry.of (entryOf s t 319)).ctx.toNat = 7 ∧ (Entry.of (entryOf s t 0)).ctx.toNat = 7) := by decide +kernel

theorem witness_SystemIssue :
    (let y (a b : Nat) : SF := { g := g0, d := 0, a := BitVec.ofNat 4 a, b := BitVec.ofNat 4 b, rt := 0x1FF, hi := 0 }
     [Instr.pplace false (y 0 0), .pevictVacate (y 0 0), .pevictKill (y 0 0), .pevictContain (y 0 0), .rmarkCut (y 0 0), .rmarkFreeze (y 0 0), .rmarkResume (y 0 0), .qryState (y 0 0),
      .qryQuiet (y 0 0), .qryPower (y 0 0), .lnch true (y 0 0), .pclaimClaim (y 15 0), .pclaimRelease (y 15 0), .twinOn (y 0 0), .twinOff (y 0 0), .cgrpMake (y 15 15), .cgrpDrop (y 0 0),
      .cred 0 (y 15 0), .cstat true (y 0 0), .ccan (y 0 0), .xcntAdd (y 0 0), .xcntArr (y 15 15), .xcntHist (y 15 0), .xcntTake (y 15 0), .xdspOne (y 15 15), .xdspArr (y 15 15),
      .xdspFlush (y 0 0), .xverGet (y 0 0), .xverWait (y 15 0), .xverResize (y 15 0), .xmrg (y 15 0), .xrep (y 15 0), .xretDrain (y 0 0), .xretFree (y 0 0), .rpnt (y 15 0), .rseal (y 15 15),
      .rrdpStat (y 0 0), .rrdpCheck (y 15 0), .rbak (y 0 0), .omrkWalk { y 0 0 with hi := 64 }, .octrRead (y 15 0), .octrTotal (y 15 0), .otrc (y 0 0), .oinjOff (y 0 0), .ostpArm (y 15 15),
      .ostpOff (y 0 0)].all passes = true) ∧
    (let t := actWith 3 0 0
     readyB (.oinjArm { sf with a := 1 }) (ready t) t = true ∧ (sysCheck 0 (.oinjArm { sf with a := 1 }) t).isNone = true) := by decide +kernel

/-- Operand lists that fail each check of R177, and one that passes. -/
theorem witness_TileChecks :
    let s := onTiles actTiles
    let o (w : Word) : TileOpnd := { pos := 0, w := w, role := .either }
    (o 0).d.wellFormed = false ∧ ((o (descOf 1)).d.wellFormed = true ∧ (o (descOf 1)).d.site ≠ 0) ∧ (s.liveTile? 2048 (o (Desc.word 2048 5 0 0 0x01010100)).d).isNone = true ∧
    ((s.liveTile? 2048 (o (descOf 1)).d).any fun t => t.owner != 1) = true ∧ (s.liveTile? 2048 (o (descOf 1)).d).isSome = true ∧ (o (descOf 1)).d.site = 2048 := by decide +kernel

theorem witness_IssueChecks :
    let t := actWith 0 0 0
    let u := { t with ctx := 1 }
    let i : Instr := .nop { pg := 2, pn := false }
    (i.isWord = true ∧ (ready t).act? (ready t).cur.1 (ready t).cur.2 = some t ∧ issueCheck (ready t) 2048 t i (encode i) = none ∧ t.guardOk i.guard = false) ∧
    ((Instr.mfs g0 4 0 0).isWord = true ∧ (ready u).act? 2048 0 = some u ∧ indexBad (ready u) 2048 u.ctx (.mfs g0 4 0 0) = false ∧ (Instr.mfs g0 4 0 0).privileged = true ∧ u.ctx ≠ 7) ∧
    (∃ k ∈ (Instr.send tf .scalar 0).tixs, (paged t []).targetCount 2048 t.ctx ≤ k) ∧
    ((Instr.sclose (vm 0 0 0 31)).sdx? = some 31 ∧ (ready u).streamCount 2048 u.ctx ≤ 31) ∧ (Instr.fadd g0 .single .sr 4 1 2).needs &&& ~~~(0 : BitVec 5) ≠ 0 := by decide +kernel

/-- A word that traps, and one that goes on. -/
theorem witness_WordFrame :
    (Instr.nop g0).isWord = true ∧ (∃ u, exec (.nop g0) (ready (actWith 0 0 0)) = .next u) ∧ (∃ u, exec (.trap g0 1) (ready (actWith 0 0 0)) = .next u) :=
  ⟨rfl, ⟨_, rfl⟩, ⟨_, rfl⟩⟩

/-! ### Witnesses for traps, arrivals and commits -/

def tok (cls : BitVec 2) (ctx : BitVec 3) (ip : BitVec 11) (v : Word) : Token :=
  { cls := cls, psn := false, ctx := ctx, dx := 0, dy := 0, ip := ip, port := false, fp := 0, itn := 0, smp := false, payload := v }
def fl (t : Token) : Flight := { tok := t, src := 2048, dst := 2048, vn := .request, org := engineOrigin, deps := [], asid := 0, gen := 0, step := false, here := true }
def who0 : Who := { site := 2048, ctx := 7, asid := 0, ip := 0, itn := 0, fp := 0, hdr := 0 }
/-- The same with no die in its wipe. -/
def awake (s : State) : State := { s with pkg := { s.pkg with wiping := [] } }
def rep0 : Reply := { entry := eIn, fp := 0, itn := 0 }
/-- The placed part, with this code at context 7's page. -/
def coded (code : List Word) : State :=
  (placed 0).modSite 2048 fun x => { x with ctxs := x.ctxs.map fun p => (p.1, { p.2 with page := p.2.page.map fun g => { g with code := code } }) }
/-- `ent` words with LEN 1: control-only, monadic, dyadic at slot 0, two-arm at slot 7 with ALT 1. -/
def eCtl : Word := 0x4000001000000000
def eMon : Word := 0x4004001000000000
def eDya : Word := 0x4008001000000000
def eSel : Word := 0x400C1C1000002000

theorem witness_ExceptionPolicies : 7 < 8 ∧ 31 < 32 ∧ (actWith 0 0 0).ctx < 8 := by decide +kernel

theorem witness_TrapEntry :
    (actWith 0 0 0).trapHandler = false ∧ { actWith 0 0 0 with trapHandler := true }.trapHandler = true ∧
    (((placed 0).modSeq 2048 fun q => { q with halt := true }).site 2048).seq.halt = true ∧ (∃ j, j ≠ 0) ∧ (∃ slot, slot ∉ ((placed 0).site 2048).seq.clearing) :=
  ⟨by decide +kernel, by decide +kernel, by decide +kernel, ⟨1, by decide⟩, ⟨0, by decide +kernel⟩⟩

def trap0 : TrapRec := { hdr := 0, payload := 0, partner := 0, detail := 0, status := 0, va := 0, time := 0, handle := 0, itn := 0, deps := [] }
def svc0 : ServiceReq := { who := who0, itn := 0, gen := 0, num := 1, arg := 2, reply := rep0, psn := false, deps := [] }

/-- A queued trap and a usable handler at word 0, an unusable one at word 1; a held service request. -/
theorem witness_HandlerDelivery :
    let s := (coded [eMon, 0]).modSeq 2048 fun q => { q with trapQ := [trap0], trapEn := true, service := some svc0, sysEn := true }
    let q := (s.site 2048).seq
    q.trapQ = [trap0] ∧ q.trapEn = true ∧ q.halt = false ∧ q.fireQ.length < 32 ∧ q.systemFrame = some 0 ∧ s.codeWord? 2048 7 q.trapIp.toNat = some eMon ∧ isEnt eMon = true ∧ entArity eMon = 1 ∧
    s.codeWord? 2048 7 1 = some 0 ∧ isEnt 0 = false ∧ q.service = some svc0 ∧ q.sysEn = true ∧ q.canFire = true := by decide +kernel

/-- Each arity's entry, an empty slot, a parked operand of the same and of the other port, a claimed slot with room in the retry buffer and without. -/
theorem witness_Matching :
    let s := (coded [eCtl, eMon, eDya, eSel]).modSeq 2048 fun q => { q with frames := [(0, { cls := 0, owner := 7, origin := .pool })] }
    let p (b : Bool) : Slot := { value := 1, pres := true, psn := false, port := b, stamp := 0 }
    let c := s.modSeq 2048 fun q => { q with acts := [(0, { actWith 0 0 0 with claim := some 0 })] }
    let full := c.modSeq 2048 fun q => { q with retryQ := List.replicate 16 (fl (tok 0 7 2 5)) }
    (s.codeWord? 2048 7 0 = some eCtl ∧ s.codeWord? 2048 7 1 = some eMon ∧ s.codeWord? 2048 7 2 = some eDya ∧ s.codeWord? 2048 7 3 = some eSel) ∧
    [eCtl, eMon, eDya, eSel].map entArity = [0, 1, 2, 3] ∧ [eCtl, eMon, eDya, eSel].all isEnt = true ∧
    classOk 0 (tok 1 7 0 5) = true ∧ classOk 1 (tok 0 7 1 5) = true ∧ classOk 2 (tok 0 7 2 5) = true ∧ classOk 3 (tok 0 7 3 5) = true ∧
    (s.site 2048).seq.canFire = true ∧ s.frameCheck 2048 7 0 (entSlot eDya) 1 = none ∧ s.frameCheck 2048 7 0 (entSlot eSel) 1 = none ∧
    (s.claimed 2048 0 = false ∧ (s.fslot 2048 0).pres = false) ∧ c.claimed 2048 0 = true ∧ (c.site 2048).seq.retryQ.length < 16 ∧ 16 ≤ (full.site 2048).seq.retryQ.length ∧
    ((s.setFslot 2048 0 (p false)).fslot 2048 0 = p false ∧ (s.setFslot 2048 0 (p true)).fslot 2048 0 = p true ∧ (s.setFslot 2048 0 (p true)).claimed 2048 0 = false) := by
  decide +kernel

/-- Payloads of CSW hold and release of context 1, of RMK, and of plain control; a reply for a context that is not here. -/
theorem witness_ArrivalEvents :
    let s := awake (coded [eCtl])
    let at1 (f : Flight) : State := { s with mesh := [f] }
    let k : CtxSlot := { asid := 0, handle := 0, bx := 0, by_ := 0, w := 4, h := 4, page := none, held := false, frozen := false, csw := false, captured := [], stopped := [] }
    let two (b : Bool) (f : Flight) : State := (at1 f).modSite 2048 fun x => { x with ctxs := Tbl.set x.ctxs 1 { k with csw := b, captured := [fl (tok 0 1 0 0)] } }
    let hold := fl (tok 1 7 0 0x0400000000000001)
    let rel := fl (tok 1 7 0 0x0400000000000009)
    let rmk := fl (tok 1 7 0 0x0500000000000001)
    let eos := fl (tok 1 7 0 0x0100000000000000)
    let stale := { fl (tok 2 7 0 5) with gen := 1 }
    let away := fl (tok 2 2 0 5)
    let cist := (at1 away).modSite 2048 fun x => { x with port := { x.port with cistLen := [(2, 1)] } }
    (∀ f ∈ [hold, rel, rmk, eos, stale, away], atHead [f] 0 = true ∧ retryWaits (at1 f) f.dst = false ∧ ((at1 f).site f.dst).seq.trapQ.length < 16 ∧ ((at1 f).site f.dst).seq.fireQ.length < 32 ∧ dieOf f.dst ∉ (at1 f).pkg.wiping) ∧
    (arrivalKind (at1 stale) 2048 stale = .plain ∧ replyStale (at1 stale) 2048 stale = true) ∧
    (arrivalKind (at1 eos) 2048 eos = .plain ∧ replyStale (at1 eos) 2048 eos = false ∧ controlOk eos.tok = true ∧ ((at1 eos).site 2048).seq.trapQ.length < 16 ∧
      ((at1 eos).site 2048).seq.fireQ.length < 32 ∧ (((at1 eos).slot? 2048 7).any fun k => !k.held && !k.frozen && !k.csw) = true ∧
      (((at1 eos).takeFlight 0 eos).onArrival 2048 eos).isSome = true) ∧
    (arrivalKind (two false hold) 2048 hold = .hold ∧ ((two false hold).slot? 2048 1).isSome = true) ∧
    (arrivalKind (two true rel) 2048 rel = .release ∧ ((two true rel).slot? 2048 1).any (fun k => k.csw && !k.frozen) = true) ∧
    arrivalKind (at1 rmk) 2048 rmk = .rmk ∧
    (arrivalKind cist 2048 away = .cistern ∧ Tbl.getD (cist.site 2048).port.cistCount 2 0 < Tbl.getD (cist.site 2048).port.cistLen 2 0) := by decide +kernel

/-- A fired activation and free slots 0 and 7; a held token whose claim has ended; activations that commit nothing and one effect. -/
theorem witness_SequencerEvents :
    let f : Fired := { tok := tok 0 7 0 5, word := eMon, d1 := 5, d2 := 0, pz := false, claim := none, partner := 0, armB := false, step := false, trapHandler := false, org := engineOrigin, hist := 0, deps := [] }
    let s := (coded [eDya]).modSeq 2048 fun q => { q with acts := [], fireQ := [f], frames := [(0, { cls := 0, owner := 7, origin := .pool })] }
    let r := s.modSeq 2048 fun q => { q with released := [0], retryQ := [fl (tok 0 7 0 5)] }
    let t := { actWith 0 0 0 with ended := true }
    let c (e : List Effect) : State := (coded [eDya]).modSeq 2048 fun q => { q with acts := [(0, { t with effects := e })], ready := [0] }
    ((s.site 2048).seq.halt = false ∧ (s.site 2048).seq.fireQ = [f] ∧ (s.site 2048).seq.freeSlot 7 = some 0) ∧
    ((r.site 2048).seq.released = [0] ∧ (r.site 2048).seq.retryQ = [fl (tok 0 7 0 5)] ∧ matchSlot r 2048 (tok 0 7 0 5) = some 0 ∧ r.claimed 2048 0 = false ∧
      ((r.slot? 2048 7).any fun k => !k.frozen && !k.csw) = true ∧ ((r.modSeq 2048 fun q => { q with retryQ := [] }).onArrival 2048 (fl (tok 0 7 0 5))).isSome = true) ∧
    (((c []).site 2048).seq.ready = [0] ∧ ((c []).site 2048).seq.service = none ∧ (c []).act? 2048 0 = some { t with effects := [] } ∧ t.committing = none) ∧
    ((c [.frameFree 8]).act? 2048 0 = some { t with effects := [.frameFree 8] } ∧ t.deps = [] ∧
      (((c [.frameFree 8]).commitBegin 2048 0 t).commitEffect { site := 2048, who := t.who 2048 0, gen := 0, psn := false, org := engineOrigin, itn := 0, deps := [], all := [], act := 0 } false 0 0 (.frameFree 8)).isSome = true) ∧
    ((c []).clk ≤ t.endAt ∧ t.endAt < { c [] with clk := 1 }.clk ∧ ((c []).commitBegin 2048 0 t).site 2048 = (((c []).commitBegin 2048 0 t).site 2048)) := by
  decide +kernel

theorem witness_CommittedEffects : (coded [eDya]).claimed 2048 (0 + 0) = false ∧ (∃ k, k ≠ frameKey 2048 (0 + 0)) := ⟨by decide +kernel, ⟨1, by decide +kernel⟩⟩

/-- Entries in the region, outside it, remote, and of a context that no region holds there. -/
theorem witness_EngineReplies :
    let s := placed 0
    let e (w : Word) : Entry := Entry.of w
    ((e eIn).remote = false ∧ (s.region? 2048 (e eIn).ctx.toNat 0).any (fun k => decide ((e eIn).dx.toNat < k.w ∧ (e eIn).dy.toNat < k.h)) = true) ∧
    ((s.region? 2048 (e eOut).ctx.toNat 0).any fun k => decide (k.w ≤ (e eOut).dx.toNat)) = true ∧ (e 0x000000F000000000).remote = true ∧
    s.region? 2048 (e eOther).ctx.toNat 0 = none := by decide +kernel

/-! ### Witnesses for requests and engines of a site -/

theorem witness_FrameAndTileGrants :
    let s := (placed 0).modSeq 2048 fun q => { q with allocQ := [{ ctx := 7, cls := 0, level := 0, useRes := false, what := .reply rep0 false [] engineOrigin }] }
    let h (k : BitVec 32) : HallocReq := { shape := k, kind := 0, who := who0, gen := 0, psn := false, target := rep0, deps := [], org := engineOrigin }
    let w (k : BitVec 32) : State := (placed 0).modSite 2048 fun x => { x with tile := { x.tile with waiting := [h k] } }
    let full : State := (placed 0).modSite 2048 fun x => { x with tile := { x.tile with waiting := [h 0x01010101], banks := List.replicate 8 { Bank.reset with pend := true } } }
    let d := (tiled (actWith 0 0 0)).modSite 2048 fun x => { x with tile := { x.tile with tiles := [(0, { owner := 7, kind := 0, shape := 0x01010101, count := 0, poison := 0, dying := some 1 })] } }
    ((s.site 2048).seq.allocQ.length = 1 ∧ (s.site 2048).seq.canGrant (s.frozenAt 2048) 0 = true ∧ ({ (s.site 2048).seq with allocQ := [] }).canGrant (s.frozenAt 2048) 0 = false) ∧
    ((w 0x01010101).allocTile 2048 7 0 0x01010101).any (fun r => r.1.isSome) = true ∧ (full.allocTile 2048 7 0 0x01010101).isNone = true ∧
    ((Tbl.get? (d.site 2048).tile.tiles 0).any (fun t => t.dying == some 1) = true ∧ (d.site 2048).tile.queue = [] ∧ (d.site 2048).mx.queue = [] ∧ d.reqs = []) := by decide +kernel

/-- The first member, the 64th and the 65th; the last arrival; the last member leaving; another ASID's request. -/
theorem witness_GroupsAndHandles :
    let g (m a : Nat) : Group := { asid := 0, ctx := 7, members := m, arrived := a, phase := 0, poison := false, waiters := [], deps := [] }
    let r (op : GroupOp) : GroupReq := { op := op, id := 0x800001, src := 2048, asid := 0, ctx := 7, scope := 1, target := some rep0, psn := false, deps := [], seq := 1, org := engineOrigin }
    let s (x : Option Group) : State :=
      { (placed 0).modSeq 2048 (fun q => { q with groups := match x with | some g => [(1, g)] | none => [] }) with groupReqs := [r .arrive, r .join] }
    let old : MemReq := { id := 0, ins := .st (vm 1 2 0 3), who := who0, vd := 0, va := 0, vb := 0, vc := 0, ea := 0, gen := 0, psn := false, target := none, deps := [], org := engineOrigin, phase := .committed, elems := none, rows := 0, since := 0 }
    let hr (op : HandleOp) : HandleReq := { op := op, desc := dsc, src := 2048, ctx := 7, asid := 0, gen := 0, target := some rep0, psn := false, deps := [] }
    (s none).group? 2048 1 = none ∧ (s (some (g 63 0))).group? 2048 1 = some (g 63 0) ∧ (g 63 0).members < 64 ∧ (g 64 0).members = 64 ∧ (g 3 2).members ≤ (g 3 2).arrived + 1 ∧
    (g 3 1).arrived + 1 < (g 3 1).members ∧ (g 1 0).members = 1 ∧ (1 < (g 3 2).members ∧ 0 < (g 3 2).arrived ∧ (g 3 2).members - 1 ≤ (g 3 2).arrived) ∧
    (1 < (g 3 0).members ∧ (g 3 0).arrived = 0) ∧ (g 3 0).asid = (r .join).asid ∧ (g 3 0).ctx = (r .join).ctx ∧ ¬((g 3 0).asid = { r .join with asid := 1 }.asid) ∧ (g 3 0).waiters.length < 64 ∧
    (s none).groupReqs[0]? = some (r .arrive) ∧ (s none).setPerformed ((s none).groupAgent (r .arrive)) = true ∧
    { s none with reqs := [old] }.setPerformed ({ s none with reqs := [old] }.groupAgent (r .arrive)) = false ∧ (r .arrive).scope < 8 ∧
    ({ tiled (actWith 0 0 0) with handleReqs := [hr .inc] }.handleReqs[0]? = some (hr .inc) ∧ ((tiled (actWith 0 0 0)).liveTile? 2048 (Desc.of dsc)).any (fun t => t.count == 1) = true) := by
  decide +kernel

def op0 (i : Instr) : TileOp :=
  { seq := 2, ins := i, who := who0, vd := dsc, va := dsc, vb := dsc, vc := 0, exc := 0, psn := false, gen := 0, target := none, deps := [], org := engineOrigin, started := false, result := none, g := 0,
    booked := true }

/-- A first operation that must wait for an earlier one, one that need not, one whose tile is gone, and started ones; commands in and out of the rules, and a wipe. -/
theorem witness_VectorEngine :
    let i : Instr := .vadd (vx 1 1 1 0 .n8)
    let s (l : List TileOp) : State := (tiled (actWith 0 0 0)).modSite 2048 fun x => { x with tile := { x.tile with queue := l } }
    let w : State := (s [op0 i]).modSite 2048 fun x => { x with mx := { x.mx with queue := [{ op0 (.mlds (vx 0 1 0 0 .n8)) with seq := 1 }] } }
    let f : State := { s [op0 i] with fences := [{ seq := 1, site := 2048, ctx := 7, bef := 255, aft := 255, obs := { scope := 1, site := 2048, bx := 0, by_ := 0, w := 4, h := 4 }, deps := [], req := none }] }
    let b (v : Word) : BankOp := { bankCommand v with wiping := true }
    (f.tileWaits 2048 1 (op0 i) = true ∧ (op0 i).started = false ∧ (op0 i).booked = true) ∧ ((s [op0 i]).tileWaits 2048 1 (op0 i) = false ∧ (s [op0 i]).staleTile (op0 i) = none) ∧
    ((placed 0).tileWaits 2048 1 (op0 i) = false ∧ ((placed 0).staleTile (op0 i)).isSome = true) ∧ (w.site 2048).tile.queue = [op0 i] ∧
    { op0 i with started := true }.result = none ∧ { op0 i with started := true, result := some (0, true) }.result = some (0, true) ∧
    ((placed 0).site 2048).tile.bankOps = [] ∧ ((placed 0).site 2048).tile.bankOk (bankCommand 0x0C00) = true ∧ ((placed 0).site 2048).tile.bankOk (bankCommand 0x0C01) = false ∧
    (b 0x0C00).wiping = true ∧ ((placed 0).site 2048).tile.banks.length = 8 := by decide +kernel

theorem witness_MatrixEngine :
    let s (l : List TileOp) : State := (tiled (actWith 0 0 0)).modSite 2048 fun x => { x with mx := { x.mx with queue := l } }
    let i : Instr := .mlds (vx 0 1 0 0 .n8)
    let f : State := { s [op0 i] with fences := [{ seq := 1, site := 2048, ctx := 7, bef := 255, aft := 255, obs := { scope := 1, site := 2048, bx := 0, by_ := 0, w := 4, h := 4 }, deps := [], req := none }] }
    let m : MatrixUnit := { MatrixUnit.reset with owner := some 1 }
    (f.tileWaits 2048 2 (op0 i) = true ∧ (f.site 2048).mx.next? = some 0) ∧
    ((s [op0 i]).tileWaits 2048 2 (op0 i) = false ∧ ((s [op0 i]).site 2048).mx.next? = some 0 ∧ (s [op0 i]).staleTile (op0 i) = none ∧ ownerStops ((s [op0 i]).site 2048).mx (op0 i) = false ∧ (op0 i).ins.isMldw = false) ∧
    ownerStops m (op0 i) = true ∧ ((placed 0).staleTile (op0 i)).isSome = true ∧ (MatrixUnit.reset.core.accz = true ∧ MatrixUnit.reset.claim = false ∧ MatrixUnit.reset.owner ≠ some 7) ∧
    { MatrixUnit.reset.core with acc := [{ AccRow.cleared with clear := false }] }.accz = false ∧ { m with claim := true, void := true }.void = true ∧
    (∃ x, MatrixUnit.reset.core.acc[63]? = some x) :=
  ⟨by decide +kernel, by decide +kernel, by decide +kernel, by decide +kernel, by decide +kernel, by decide +kernel, rfl, ⟨AccRow.cleared, by decide +kernel⟩⟩

/-- One element of a 1 × 1 tile. -/
theorem witness_VectorElements : 0 < (Desc.of dsc).rows ∧ 0 < (Desc.of dsc).cols ∧ EF.n8.isInt = true ∧ EF.i8.isInt = true ∧ 7 < EF.n8.width := by decide +kernel

/-! ### Witnesses for the memory port -/

/-- A page of 2 MiB at frame 1, for context 7. -/
def ext0 (r w : Bool) (page : Nat) : Nat × Extent := (0, { w := w, r := r, ctx := 7, pin := false, vpn := page, npg := 0, dev := 0, frame := 1, typ := 0, used := 0 })
def mreq (i : Instr) (ea : Nat) (p : ReqPhase) : MemReq :=
  { id := 3, ins := i, who := who0, vd := 0x1122334455667788, va := BitVec.ofNat 64 ea, vb := 0, vc := 0, ea := ea, gen := 0, psn := false, target := none, deps := [], org := engineOrigin, phase := p,
    elems := none, rows := 0, since := 0 }
def withReq (r : MemReq) : State := { placed 0 with reqs := [r] }
def withExt (s : State) (e : List (Nat × Extent)) : State := s.modSite 2048 fun x => { x with port := { x.port with ext := e } }
/-- Words of memory, addresses rising. -/
def cellsOf (l : List (Nat × Nat)) : List Host.Cell :=
  l.flatMap fun p => ((toBytes p.2 8).zipIdx.filter fun b => b.1 != 0).map fun b => (p.1 + b.2, b.1)
/-- Tables that map page 0, whose leaf is `leaf`. -/
def tabled (s : State) (leaf : Nat) : State :=
  let s := { s with mem := { s.mem with cells := cellsOf [(0x1008, 0x2000), (0x2000, 0x8000000000003000), (0x3000, 0x8000000000004000), (0x4000, 0x8000000000005000), (0x5000, leaf)] } }
  s.modPager fun p => { p with binds := [(0, { pa := 0x1000, seq := 0, lost := false, desc := List.replicate 8 0 ++ toBytes 0x2000 8 ++ List.replicate 48 0 })] }
def leafOf (r : WalkRes) : Bool := match r with | .leaf _ => true | _ => false
def invalidOf (r : WalkRes) : Bool := match r with | .invalid _ => true | _ => false

/-- Physical and translated loads and stores; an extent that allows the access, one that does not, none; walks that end in a leaf and in an invalid entry; parked and stale requests. -/
theorem witness_Translation :
    let ld (md : BitVec 5) : Instr := .ld { vm 0 2 0 md with tix := 0 }
    let r := mreq (ld 3) (2 ^ 21 - 8) .committed
    let s := withReq r
    let p := { withReq (mreq (ld 3) 0 (.parked [0] false)) with pager := { (placed 0).pager with walks := [(2048, 0, 7, 0)] } }
    let good := tabled p 0xE000000000200000
    let bad := tabled p 0
    (s.reqs.find? (·.id == r.id) = some r ∧ r.phase = .committed ∧ pagesOf r.ranges = [0] ∧ pagesOf (mreq (ld 3) (2 ^ 21) .committed).ranges = [1] ∧ (s.slot? 2048 7).any (fun k => k.asid == 0) = true) ∧
    ((withExt s [ext0 true true 0]).extent? 2048 7 0 = some (ext0 true true 0) ∧ (withExt s [ext0 true true 0]).extent? 2048 7 1 = none ∧ (ext0 false true 0).2.r = false ∧ (ext0 true false 0).2.w = false) ∧
    (good.pager.walks[0]? = some (2048, 0, 7, 0) ∧ leafOf (({ good with pager := { good.pager with walks := [] } }.walk 2048 (good.tableKey 2048 7) 0).1) = true ∧
      invalidOf (({ bad with pager := { bad.pager with walks := [] } }.walk 2048 (bad.tableKey 2048 7) 0).1) = true ∧ ((good.waitingFor 2048 0 7 0).all fun q => q.ins == ld 3) = true) ∧
    ((withReq (mreq (ld 3) 0 (.ready []))).reqs[0]? = some (mreq (ld 3) 0 (.ready [])) ∧ { mreq (ld 3) 0 (.ready []) with gen := 1 }.gen ≠ (s.gen 0).toNat ∧ r.gen = (s.gen 0).toNat) := by decide +kernel

/-- The first and the last 8 bytes of HBM. -/
theorem witness_MemoryContents :
    (∀ ea ∈ [0, 2 ^ 39 - 8], ∀ i ∈ [Instr.st (vm 1 2 0 11), .ld { vm 0 2 0 11 with tix := 0 }],
      let r := mreq i ea (.ready [])
      let s := withReq r
      s.fences.find? (·.seq == r.id) = none ∧ s.reqs.find? (·.id == r.id) = some r ∧ r.gen = (s.gen r.who.asid).toNat ∧ s.fenced 3 2048 7 0 r.id = false ∧ (∀ q ∈ s.portAccs 2048, mustFollow q (s.portAcc r) = false) ∧ r.vat = none ∧ r.ea % 8 = 0 ∧
      r.ea + 8 ≤ 2 ^ 39 ∧ inCellarRange s.rcv r.ea = false ∧ s.pager.migs = [] ∧ s.pager.twins = [] ∧ s.pager.twinPairs = [] ∧ s.twinAt 2048 7 = none ∧ s.pager.twinOk = [] ∧ r.psn = false ∧
      s.mem.recs = [] ∧ s.mem.units = [] ∧ s.mem.lines = [] ∧ s.mem.inj = none) ∧
    ({ placed 0 with pkg := { (placed 0).pkg with wiping := [] } }.pkg.wiping = []) ∧ (11 : BitVec 5).getLsbD 3 = true ∧ (11 : BitVec 5).getLsbD 2 = false ∧ (15 : BitVec 5).getLsbD 2 = true ∧
    (placed 0).mem.wf = true := by decide +kernel

/-- A migration with its first and its last granule to copy, and with none; a bank whose window has come, one in refresh. -/
theorem witness_MigrationAndRefresh :
    let m (k : Nat) : Migration := { asid := 0, va := 0, old := 1, new := 2, p := k, req := 3, fwd := false }
    let s (k : Nat) : State := { withReq (mreq (.migr (vm 1 2 0 0)) 0 (.remote [])) with pager := { (placed 0).pager with migs := [m k] } }
    let t (l : List Nat) (c n : Nat) : State := { placed 0 with clk := c, mem := { (placed 0).mem with refresh := l, wsNext := [(127, n)] } }
    ((s 0).pager.migs[0]? = some (m 0) ∧ (m 2047).p < 2048 ∧ (m 2048).p = 2048 ∧ (m 2048).fwd = false ∧ ((s 2048).reqs.find? (·.id == 3)).isSome = true) ∧
    ((7 * 16 + 15 ∉ (t [] 0 0).mem.refresh) ∧ (t [] 0 0).nextWindow 7 15 ≤ (t [] 0 0).clkAt (7 * 256)) ∧
    (127 ∈ (t [127] 168 22400).mem.refresh ∧ (t [127] 168 22400).nextWindow 7 15 + 168 ≤ (t [127] 168 22400).clkAt (7 * 256) + 22400) ∧
    (t [127] 167 22400).clkAt (7 * 256) + 22400 < (t [127] 167 22400).nextWindow 7 15 + 168 := by decide +kernel

/-- A line of the first and of the last cellar region that is no log; a read of the host's, 70,000 clk old and younger. -/
theorem witness_CellarAndHost :
    let s (k : Nat) : State :=
      { withReq { mreq (.dst (vm 1 2 0 3)) (56) (.ready [{ vpn := 0, typ := 5, dev := 0, frame := 2 ^ 20 + k, r := true, w := true }]) with gen := 0 } with
        rcv := { (placed 0).rcv with nreg := 8, celBase := 16, logFirst := 1, logLen := 1 }, pkg := { (placed 0).pkg with wiping := [] } }
    let q := mreq (.ld { vm 0 2 0 3 with tix := 0 }) 0 (.remote [{ vpn := 0, typ := 3, dev := 0, frame := 2 ^ 19, r := true, w := true }])
    let h (c : Nat) : State := { withReq q with clk := c }
    (∀ k ∈ [0, 7], let pa := (2 ^ 20 + k) * 2 ^ 21 + 56
      (56 % 64 + 8 ≤ 64 ∧ 2 ^ 41 ≤ pa ∧ cellarRegion pa < (s k).rcv.nreg ∧ inLog (s k).rcv (cellarRegion pa) = false ∧ (s k).rcv.openState = 0 ∧ (s k).rcv.nreg % 8 = 0 ∧ (s k).rcv.held = 0 ∧ (s k).rcv.dirty = [] ∧
        (s k).pkg.wiping = [] ∧ (s k).fenced 3 2048 7 0 3 = false ∧ (s k).twinAt 2048 7 = none ∧ (s k).rcv.mirrors = [] ∧ (∀ r ∈ (s k).reqs, ∀ q ∈ (s k).portAccs 2048, mustFollow q ((s k).portAcc r) = false))) ∧
    ((h 0).reqs.find? (·.id == q.id) = some q ∧ ((h 0).hostPieces q [{ vpn := 0, typ := 3, dev := 0, frame := 2 ^ 19, r := true, w := true }]).length = 1 ∧ q.ins.isMldw = false ∧
      q.since + 70000 ≤ (h 70000).clk ∧ (h 69999).clk < q.since + 70000 ∧ (toBytes 5 8).length = 8) := by decide +kernel

def gen0 (pos beat : Nat) (d : List Word) : StreamRun :=
  { sdx := 0, who := who0, gen := 0, psn := false, desc := d, target := rep0, alc := 0, off := 0, pos := pos, replayPos := 0, parked := false, beat := beat, seq := 3, deps := [], org := engineOrigin }

/-- Item 0 of 8 bytes at address 0, one misaligned, past the last item; a page with an extent, without one, and with one that forbids reads; DUTY 0 and 16. -/
theorem witness_StreamSteps :
    let d (base : Word) : List Word := [base, 0x600000000, 0x0001000100010001, 0]
    let s := (withExt (placed 0) [ext0 true true 0])
    let hot := { s with pager := { s.pager with duty := [(8, 16)] } }
    let o := s.modSite 2048 fun x => { x with port := { x.port with sopens := [{ mreq (.sopen { vm 0 2 0 0 with tix := 0 }) 0 .committed with target := some rep0 }] } }
    ((o.site 2048).port.sopens.length = 1 ∧ Tbl.get? (o.site 2048).port.gens 0 = none ∧ Tbl.get? (o.site 2048).port.gens 7 = none) ∧
    s.sourcesStopped 2048 7 = false ∧ (gen0 0 0 (d 0)).beat = 0 ∧ s.duty 2048 = 0 ∧ 0 < hot.duty 2048 ∧ (gen0 0 1 (d 0)).beat ≠ 0 ∧
    (let g := (gen0 0 0 (d 0)).d
     g.count = 1 ∧ g.replay = false ∧ g.tile = false ∧ g.itemBytes = 8 ∧ g.itemVa 0 0 = 0 ∧ (gen0 1 0 (d 4)).d.itemVa 0 0 = 4 ∧ g.count ≤ 1) ∧
    s.extent? 2048 7 0 = some (ext0 true true 0) ∧ (placed 0).extent? 2048 7 0 = none ∧ (ext0 false true 0).2.r = false ∧
    inCellarRange s.rcv ((1 + (0 - 0)) * 2 ^ 21) = false ∧ s.pager.migs = [] ∧ s.mem.recs = [] := by decide +kernel

/-! ### Witnesses for launches -/

/-- A launch of context 7 on system site 2,048, handle 0. -/
def launch0 (st : LState) : Launch :=
  { state := st, imageKey := 0, ctx := 7, asid := 0, sys := true, bx := 0, by_ := 0, w := 1, h := 1, io := 0, fixed := some (0, 0), twin := none, twinOff := false, round := 0, base := .empty, seeds := [], links := [],
    log := [], logOver := false, windowOver := false, evictAtEnd := false, nsink := 0, endOn := false, endEntry := 0, endFp := 0, endSite := 0, endCtx := 0, inRun := true, saved := false, snap := [], eosBase := 0,
    eosAtBase := 0, escalated := false, freeze := none, quiet := none, replies := [], behind := [], runs := 0, credSince := false, cols := [] }
def withLaunch (l : Launch) : State := { placed 0 with pager := { (placed 0).pager with launches := [(0, l)] } }
def seed0 : Seed := { entry := 0, ctl := false, psn := false, itn := 0, payload := 5, tag := none, deps := [] }
def link0 (dx : BitVec 6) : LinkFlight := { tok := { tok 0 7 0 5 with dx := dx }, link := 0, src := 2048, sctx := 7, asid := 0, org := engineOrigin, deps := [] }
/-- A region-link table of one entry, `e`, for ASID 0. -/
def linked (s : State) (e : Nat) : State :=
  let s := { s with mem := { s.mem with cells := cellsOf [(0x1000, 2 ^ 32), (0x1018, 0x2000), (0x2000, e)] } }
  { s with pager := { s.pager with binds := [(0, { pa := 0x1000, seq := 0, lost := false, desc := toBytes (2 ^ 32) 8 ++ List.replicate 16 0 ++ toBytes 0x2000 8 ++ List.replicate 32 0 })], links := [{ link0 0 with entry := BitVec.ofNat 64 e }] } }

theorem witness_SeedsAndLinks :
    let l := launch0 .idle
    let run := { launch0 .running with seeds := [seed0] }
    let tok := { launch0 .running with links := [fl (tok 0 7 0 5)] }
    let full := { launch0 .frozen with links := List.replicate 256 (fl (Tests.tok 0 7 0 5)) }
    ((withLaunch l).launch? 0 = some l ∧ l.open_ = true ∧ (launch0 .frozen).open_ = false ∧ run.open_ = true ∧ run.seeds = [seed0] ∧ tok.open_ = true ∧ tok.seeds = []) ∧
    ((linked (withLaunch (launch0 .frozen)) 0).pager.links[0]? = some (link0 0) ∧ linkTo 0 = none ∧ linkTo 0x8000000000000000 = some (0, 0) ∧ linkTo 0x8001000000000000 = some (1, 0) ∧
      ((linked (withLaunch l) (2 ^ 63 + 2 ^ 48)).linkLookup 2048 0 0).1 = 0x8001000000000000 ∧ (placed 0).isSelf 0 = true ∧ (placed 0).isSelf 1 = false ∧ (placed 0).twinAt 2048 7 = none) ∧
    ((launch0 .frozen).asid = (link0 0).asid ∧ (launch0 .frozen).links.length < 256 ∧ 256 ≤ full.links.length ∧ (link0 0).tok.dx.toNat < (launch0 .frozen).w ∧ (launch0 .frozen).state ≠ .failed) ∧
    (let s := linked (withLaunch l) (2 ^ 63 + 2 ^ 48)
     let s := { s with mem := { s.mem with cells := cellsOf [(0x1000, 2 ^ 32), (0x1018, 0x2000), (0x2000, 2 ^ 63 + 2 ^ 48), (0x40008, 2 ^ 63 + 2 ^ 17)] },
                       link := { s.link with podPa := 0x40000, ports := List.replicate 18 { PortState.reset with up := true } } }
     s.reachable 1 = true) := by decide +kernel

theorem witness_PlacementAndQuiescence :
    let l := { launch0 .placing with sys := false, ctx := 1 }
    let w : WaitPlace := { what := .place, handle := 0, req := none, data := true, denied := false }
    let s := { withLaunch l with pager := { (withLaunch l).pager with waiting := [w] } }
    let k : CtxSlot := { asid := 0, handle := 9, bx := 0, by_ := 0, w := 1, h := 1, page := none, held := false, frozen := false, csw := false, captured := [], stopped := [] }
    let busy := s.modSite 0 fun x => { x with ctxs := [(1, k)] }
    let held (st : LState) : State := (withLaunch (launch0 st)).modSite 2048 fun x => { x with ctxs := x.ctxs.map fun p => (p.1, { p.2 with held := true }) }
    let idle := (withLaunch (launch0 .running)).modSeq 2048 fun q => { q with acts := [] }
    let cold : State := idle.modSite 2048 fun x => { x with ctxs := x.ctxs.map fun p => (p.1, { p.2 with frozen := true }) }
    ((s.pager.waiting = [w]) ∧ ((s.plans l).1 = some []) ∧ (((s.plans l).2.search l [] false [] l.bases).base = some (0, 0, 0)) ∧ (s.plans l).2.pager.waiting = s.pager.waiting) ∧
    (((busy.plans l).2.search l [] false [] l.bases).base = none ∧ ((busy.plans l).2.search l [] false [] l.bases).feat = none) ∧
    (∀ st ∈ [LState.placing, .resuming, .containing], (held st).launch? 0 = some (launch0 st) ∧ (held st).heldSites 0 (launch0 st) ≠ []) ∧ (idle.heldSites 0 (launch0 .running) = []) ∧
    (let t := idle.sums 7 (launch0 .running).allSites
     t.sent = t.recv ∧ t.live = 0 ∧ t.tile = 0 ∧ t.req = 0 ∧ (launch0 .running).quiet ≠ some t.sent ∧ { launch0 .running with quiet := some t.sent }.quiet = some t.sent ∧
     (launch0 .running).nsink ≤ (idle.sums 7 (launch0 .running).sites).eos4 + (launch0 .running).eosBase) ∧
    (((withLaunch (launch0 .running)).sums 7 (launch0 .running).allSites).live ≠ 0) ∧ cold.allFrozen (launch0 .running) = true ∧ idle.allFrozen (launch0 .running) = false ∧
    { launch0 .running with freeze := some { why := .freeze none, marked := [] } }.freeze.isSome = true := by decide +kernel

/-- At the 14,000th clk and before it; at DUTY 0 and 240; a request parked for longer than the limit, and for less. -/
theorem witness_GovernorSteps :
    let s (c d : Nat) : State := { withLaunch (launch0 .running) with clk := c, pager := { (withLaunch (launch0 .running)).pager with duty := [(0, d)] } }
    let p (c : Nat) : State := { s c 0 with reqs := [mreq (.ld { vm 0 2 0 3 with tix := 0 }) 0 (.parked [0] false)] }
    let k : CtxSlot := { asid := 0, handle := 0, bx := 0, by_ := 0, w := 4, h := 4, page := none, held := false, frozen := false, csw := false, captured := [], stopped := [] }
    let q (c : Nat) : State := (p c).modSite 2048 fun x => { x with ctxs := [(7, k)] }
    ((s 0 0).site 2048).obs.power = [] ∧ (Tbl.getD (s 14000 240).pager.dutyAt 0 0 + 14000 ≤ (s 14000 240).clk ∧ Tbl.getD (s 14000 240).pager.duty 0 0 ≤ 240) ∧
    (s 13999 0).clk < Tbl.getD (s 13999 0).pager.dutyAt 0 0 + 14000 ∧ { (s 0 0).pager with fltLimit := 0 }.fltLimit = 0 ∧
    (((q 71400).site 2048).ctxs = [(7, k)] ∧ ((q 71400).launch? 0 = some (launch0 .running)) ∧ (launch0 .running).open_ = true ∧ (q 71400).pager.fltLimit < (q 71400).parkedAge 2048 7 / 1400 ∧
      (q 71399).parkedAge 2048 7 / 1400 ≤ (q 71399).pager.fltLimit ∧ (q 0).pager.fltLimit ≠ 0) := by decide +kernel

def exit0 (copy : Bool) (dg : Nat) (t : Option Nat) : TwinExit := { handle := 0, copy := copy, pos := 0, cls := 0, num := 0, digest := dg, what := .req (if copy then 4 else 3), since := t }

theorem witness_ContainmentSteps :
    let l := launch0 .running
    let halted := (withLaunch l).modSeq 2048 fun q => { q with halt := true }
    let s (d : Nat) (c : Nat) : State := { withLaunch l with clk := c, pager := { (withLaunch l).pager with twins := [exit0 false 1 (some 0), exit0 true d (some 0)] } }
    ((withLaunch l).launch? 0 = some l ∧ (∃ n ∈ l.allSites, (halted.site n).seq.halt = true) ∧ (∀ n ∈ l.allSites, ((withLaunch l).site n).seq.halt = false)) ∧
    ((s 1 0).pager.twins[0]? = some (exit0 false 1 (some 0)) ∧ ((s 1 0).pager.twins.find? fun y => y.copy) = some (exit0 true 1 (some 0)) ∧ (exit0 false 1 none).digest = (exit0 true 1 none).digest ∧
      (exit0 false 1 none).digest ≠ (exit0 true 2 none).digest) ∧
    ((exit0 false 1 (some 0)).since = some 0 ∧ 0 + 65536 ≤ (s 1 65536).clk ∧ (s 1 65535).clk < 0 + 65536) := by decide +kernel

/-! ### Witnesses for the engines of the I/O dies -/

def sreq (i : Instr) : SysReq :=
  { seq := 3, ins := i, word := encode i, who := who0, vd := 0, va := 0, vb := 0, exc := 0, gen := 0, psn := false, target := none, deps := [], org := engineOrigin, hist := 0 }
def cmsg (ver : Nat) : CollMsg := { src := 1, gtag := 0, key := 0, op := 0, ver := ver, kind := .issue 0 false, data := [] }
/-- A sum of 8 binary32 values from VA 0 to VA 0x1000, with marks at 0x2000; and one whose COUNT is 0. -/
def cdesc (count : Nat) : List Byte :=
  toBytes 0 16 ++ toBytes 0x1000 8 ++ toBytes 0x2000 8 ++ toBytes 0 8 ++ toBytes count 4 ++ [0x82, 0, 0x82, 0] ++ List.replicate 16 0
def cop0 (d : List Byte) : CollOp :=
  { req := sreq (.cred 0 { sf with a := 0, d := 0 }), fn := 0, num := 1, desc := d, bad := none, earlier := false, started := false, done := false, xl := [], marks := [], anchors := [], ups := [], sentUp := [], exch := false, mxUps := [],
    mxSent := false, restarts := 0, inv := false, ovf := false, pois := false, psn := false, stalled := [], progress := [] }
def grp0 (o : CollOp) (issued : List (Nat × Nat × Nat × Bool)) : CollGroup :=
  { asid := 0, gtag := 0, members := [0, 1], key := 0, trees := [[0]], opNum := 1, cur := some o, past := none, waiting := [], issued := issued }
def collS (g : CollGroup) : State := { tabled (placed 0) 0xE000000000200000 with coll := { (placed 0).coll with groups := [g] } }

theorem witness_Collectives :
    let s := placed 0
    let v := { s with coll := { s.coll with ltVer := 5 } }
    let h : HeldMsg := { msg := cmsg 6, since := 0 }
    let held (c : Nat) : State := { v with clk := c, coll := { v.coll with held := [[h], []] } }
    let full := { v with coll := { v.coll with held := [List.replicate 256 h, []] } }
    let o := cop0 (cdesc 8)
    let d := CollDesc.of (cdesc 8)
    let dg := collDigest 0 (cdesc 8)
    let run := { o with started := true, marks := List.replicate d.nbits false }
    ((v.coll.ltVer.toNat + 2 ^ 32 - (cmsg 4).ver) % 2 ^ 32 < 2 ^ 31 ∧ 2 ^ 31 ≤ (v.coll.ltVer.toNat + 2 ^ 32 - (cmsg 6).ver) % 2 ^ 32 ∧ 1 < v.coll.held.length ∧ (v.coll.held.getD 1 []).length < 256 ∧ 256 ≤ (full.coll.held.getD 0 []).length) ∧
    ((match v.links.1 with | .ok _ => true | .error _ => false) = true ∧ (5 : Nat) % 2 ^ 32 ≠ (v.links.2.coll.ltVer.toNat + 1) % 2 ^ 32 ∧ v.links.2.coll.groups = [] ∧
      (match { v with coll := { v.coll with held := [] } }.links.1 with | .ok _ => true | .error _ => false) = true) ∧
    (((held 0).coll.held.getD 0 [])[0]? = some h ∧ (held 1399999).clk < h.since + ((held 0).coll.stall.getD 0 0).toNat ∧ h.since + ((held 0).coll.stall.getD 0 0).toNat ≤ (held 1400000).clk) ∧
    ((collS (grp0 o [])).collGroup? 0 0 = some (grp0 o []) ∧ o.started = false ∧ d.badField o.desc 0 0 [0, 1] = none ∧ overlapOf (d.ranges 0 0 [0, 1]) = none ∧
      (CollDesc.of (cdesc 0)).badField (cdesc 0) 0 0 [0, 1] = some 0x28 ∧ ((grp0 o [(1, 1, dg, false)]).issued.find? fun i => i.1 == 1 && i.2.1 == o.num).map (·.2.2) = some (dg, false) ∧
      (match ((collS (grp0 o [])).mapAll o.req (d.ranges 0 0 [0, 1])).1 with | .ok _ => true | .error _ => false) = true) ∧
    (run.bitOf d 1 0 = some 0 ∧ 0 % d.nch = 0 ∧ run.done = false ∧ run.exch = false ∧ 0 ∉ run.stalled ∧ (placed 0).clk < Tbl.getD run.progress 0 0 + ((placed 0).coll.stall.getD 0 0).toNat ∧
      Tbl.getD run.progress 0 0 + ((placed 0).coll.stall.getD 0 0).toNat ≤ (held 1400000).clk) := by decide +kernel

def rep1 (st : RepState) : Replica :=
  { state := st, handle := 0, entry := 0, expert := 0, word := 0, batch := 8, openPage := some 0, queue := [1], redo := [], drainReq := none }
def ent1 (e : Nat) : DispEntry := { expert := e, payload := 5, key := 0, index := 0, req := sreq (.xdspOne { sf with d := 0, a := 0 }) }

theorem witness_Experts :
    let c (l : List DispEntry) : Dispatch := { req := sreq (.xdspOne { sf with d := 0, a := 0 }), rest := l, done := 0 }
    let xp (f : XpState → XpState) : State := { withLaunch (launch0 .frozen) with xp := f { (placed 0).xp with nexp := 1, en := true } }
    let pg : PoolPage := { rows := [], stamp := 0, closed := false }
    let s (e : Nat) (rows : Tbl (List Nat)) : State := xp fun x => { x with cur := some (c [ent1 e, ent1 e]), rows := rows, reps := [(0, rep1 .live)], pages := [(0, pg), (1, pg)] }
    let gr (k : Nat) : Graft := { req := sreq (.xrep { sf with d := 0, a := 0 }), stage := k, desc := List.replicate 8 0 ++ toBytes 0x8000000000 8 ++ List.replicate 48 0, placing := false }
    let g (k : Nat) : State := xp fun x => { x with graft := some (gr k) }
    let ref := { g 2 with mem := { (g 2).mem with refresh := [0] } }
    let full := { rep1 .live with redo := List.replicate 64 (1, 0) }
    let done := { rep1 .live with redo := [(1, 1)] }
    ((s 1 []).xp.waiting = [] ∧ (s 1 []).xp.nexp ≤ (ent1 1).expert ∧ (ent1 0).expert < (s 0 []).xp.nexp ∧ (s 0 []).xp.row 0 = [] ∧ (s 0 [(0, [0])]).xp.replicaFor (ent1 0) = some 0 ∧
      Tbl.get? (s 0 [(0, [0])]).xp.reps 0 = some (rep1 .live) ∧ (rep1 .live).openPage = some 0 ∧ Tbl.get? (s 0 []).xp.pages 0 = some pg ∧ pg.rows.length + 1 < (rep1 .live).batch) ∧
    ((rep1 .live).queue = [1] ∧ (s 0 []).launch? 0 = some (launch0 .frozen) ∧ 64 ≤ full.redo.length ∧ (rep1 .live).redo.length < 64 ∧ (launch0 .frozen).open_ = false ∧ (launch0 .frozen).seeds.length < 64 ∧
      64 ≤ { launch0 .frozen with seeds := List.replicate 64 seed0 }.seeds.length) ∧
    ((1, 1) ∈ done.redo ∧ 1 ≤ { launch0 .running with runs := 1 }.runs) ∧
    (ref.xp.graft = some (gr 2) ∧ ref.mem.refreshing (field (gr 2).desc 8 8) = true) ∧ (gr 5).stage = 5 ∧ ((gr 6).stage = 6 ∧ Tbl.get? (g 6).xp.reps 0 = none ∧ (g 6).xp.orphans = [] ∧ field (gr 6).desc 0x14 2 = 0) ∧
    ((xp fun x => { x with hurt := [0] }).xp.hurt = [0] ∧ (launch0 .failed).state = .failed ∧ (launch0 .frozen).state ≠ .failed ∧ (s 0 []).xp.hurt = []) := by decide +kernel

theorem witness_RecoverySteps :
    let x (b : Bool) : Seal := { req := sreq (.rseal { sf with d := 0, a := 0 }), point := 0, lost := b }
    let s (f : RecState → RecState) : State := { placed 0 with rcv := f { (placed 0).rcv with nreg := 8, celBase := 16 } }
    let l := { launch0 .containing with escalated := true }
    ((s fun r => { r with sealing := some (x true) }).rcv.sealing = some (x true) ∧ (x true).lost = true ∧ (x false).lost = false ∧ (s id).rcv.sealing = none) ∧
    (((s fun r => { r with dirty := [(7, 1)] }).rcv.dirty.find? fun p => mendable (s fun r => { r with dirty := [(7, 1)] }).rcv p.1).map (·.1) = some 7 ∧ staleOf (s fun r => { r with dirty := [(7, 1)] }).rcv 7 = 1 ∧
      staleOf (s fun r => { r with dirty := [(0, 2)] }).rcv 0 = 2 ∧ (s id).mem.wf = true) ∧
    ((s fun r => { r with scan := true }).rcv.scan = true ∧ (s id).rcv.roll = none ∧ (s id).rcv.scan = false) ∧
    (l.escalated = true ∧ l.state = .containing ∧ l.asid = (s id).rcv.asid ∧ (withLaunch l).launch? 0 = some l ∧ (launch0 .containing).escalated = false) := by decide +kernel

def hrec (flags : Nat) (handle : Nat) (off : Nat) : HeadRec :=
  { src := none, off := off, data := toBytes handle 4 ++ toBytes 0 2 ++ toBytes flags 2 ++ List.replicate 24 0, need := 0, req := none, tag := 0, deps := [] }

theorem witness_LinksAndHeadgates :
    let p : PortState := { up := true, train := true, replays := 0, tries := 6 }
    let s := withLaunch (launch0 .frozen)
    let img := { s with pager := { s.pager with cache := [(0, { bytes := toBytes 0 12 ++ toBytes 1 2 ++ List.replicate 50 0 })] } }
    let q (l : List HeadRec) (h : List HeadRec) : State := { img with link := { img.link with inq := [l, []], hold := [h, []] } }
    let rd : Inbound := { src := none, port := 0, pa := 0xE000820000, kind := .read false 8, earlier := 0, tag := 7 }
    (p.up = true ∧ p.tries + 1 < 8 ∧ 8 ≤ { p with tries := 7 }.tries + 1 ∧ p.train = true ∧ PortState.reset.up = false ∧ s.link.ports[17]? = some PortState.reset) ∧
    (0x8000000000000001 : Word).getLsbD 63 = true ∧ (1 : Word).getLsbD 63 = false ∧
    ((q [hrec 0 0 1] []).link.inq.getD 0 [] = [hrec 0 0 1] ∧ (q [] []).badField? (hrec 0 0 1) = some 0 ∧ (q [] []).badField? (hrec 16 0 0) = some 6 ∧ (q [] []).badField? (hrec 0 9 0) = none ∧
      (q [] []).launch? (hrec 0 9 0).handle = none ∧ (q [] []).badField? (hrec 1 0 0) = none ∧ (q [] []).launch? (hrec 1 0 0).handle = some (launch0 .frozen) ∧ (hrec 1 0 0).flags % 2 = 1 ∧ (hrec 1 0 0).req = none ∧
      ((q [] []).link.hold.getD 0 []).length < 64) ∧
    ((q [] [hrec 1 0 0]).link.hold.getD 0 [] = [hrec 1 0 0] ∧ (q [] []).storesDone (hrec 1 0 0) = true ∧ (q [] []).storesDone { hrec 1 0 0 with need := 1 } = false ∧ (launch0 .frozen).open_ = false ∧
      (launch0 .frozen).seeds.length < 64) ∧
    (rd.src = none ∧ rd.kind = .read false 8 ∧ 0xE000820000 ≤ rd.pa ∧ rd.pa < 0xF000000000 ∧ s.link.inbound = [] ∧ 8 + inDie rd ∈ s.pkg.wiping) := by decide +kernel

theorem witness_ObservationSteps :
    let s := placed 0
    let e (o : Origin) : HistEntry := { gen := 0, ctx := 7, ip := 0, itn := 0, fp := 0, stamp := 0, clk := 0, org := o, single := true }
    let w (d : Nat) : Walk := { req := sreq (.omrkWalk { sf with d := 0, a := 0, hi := 2 }), depth := d, steps := 0, site := 2048, idx := 0, gen := 0 }
    let hist (l : List (Nat × HistEntry)) (d : Nat) : State := { s.modSite 2048 (fun x => { x with obs := { x.obs with hist := l } }) with obs := { s.obs with walks := [w d] } }
    let f := fl (tok 0 7 0 5)
    let st := { withLaunch (launch0 .running) with mesh := [f], obs := { s.obs with stopArmed := true, stopHandle := 0, stop1 := 0 } }
    let inj := { s with mem := { s.mem with inj := some (64, .correctable) } }
    ({ s.obs with swEn := true }.swEn = true ∧ s.obs.swEn = false ∧ 0 ≤ (5 : Word).toInt ∧ (-5 : Word).toInt < 0) ∧ (s.obs.mons[2]? = some Monitor.reset ∧ Monitor.reset.en = false ∧ { Monitor.reset with en := true }.en = true) ∧
    ((hist [] 2).obs.walks[0]? = some (w 2) ∧ Tbl.get? ((hist [] 2).site 2048).obs.hist 0 = none) ∧
    (Tbl.get? ((hist [(0, e engineOrigin)] 2).site 2048).obs.hist 0 = some (e engineOrigin) ∧ engineOrigin.site = 0xFFF ∧ (w 1).depth ≤ (w 1).steps + 1) ∧
    (let o : Origin := { site := 2048, idx := 1, gen := 0 }
     (w 2).steps + 1 < (w 2).depth ∧ o.site ≠ 0xFFF ∧ s.obs.trLen = 0 ∧ Tbl.get? ((hist [(0, e o), (1, e o)] 2).site o.site).obs.hist o.idx = some (e o) ∧ (e o).gen = o.gen) ∧
    (st.mesh[0]? = some f ∧ atHead st.mesh 0 = true ∧ retryWaits st f.dst = false ∧ arrivalKind st f.dst f = .stop ∧ f.dst < 2080 ∧ (st.slot? f.dst f.tok.ctx.toNat).isSome = true) ∧
    (inj.mem.inj = some (64, .correctable) ∧ paTarget 64 ≠ .tile ∧ (inj.injectAt 127) / 64 = 64 / 64 ∧ (inj.injectAt 128) / 64 ≠ 64 / 64) := by decide +kernel

theorem witness_ResetAndPackage :
    let s := placed 0
    let p (f : PkgState → PkgState) : State := { s with pkg := f s.pkg }
    s.pkg.boot = .wiping ∧ (p fun k => { k with boot := .running }).pkg.boot ≠ .wiping ∧ (7 ∈ s.pkg.wiping ∧ 9 ∈ s.pkg.wiping) ∧ s.rcv.nreg = 0 ∧
    ((p fun k => { k with recov := 0x81, wiping := [] }).pkg.recov.getLsbD 0 = true ∧ (p fun k => { k with recov := 0x81 }).pkg.recov.getLsbD 7 = true ∧ 7 ∉ (p fun k => { k with wiping := [] }).pkg.wiping) ∧
    s.pkg.bootWin = false ∧ (s.sysRead coordSite 0 0).1 = [] ∧ (s.sysRead coordSite 0 0).2.fwVerified [] = false ∧ (p fun k => { k with bootWin := true }).pkg.bootWin = true ∧
    s.pkg.life < 3 ∧ 3 ≤ (p fun k => { k with life := 3 }).pkg.life ∧ paTarget 0 ≠ .regs ∧ (s.pkg.life = 1 ∨ s.pkg.life = 2) ∧ ((p fun k => { k with life := 0 }).pkg.life = 0) := by decide +kernel

theorem witness_SequencerRegisters : 2079 < 2080 ∧ 0 ≠ 2079 := by decide

theorem witness_OpcodeWords : (let opc := (0xDA00000000000000 : Word).toNat / 2 ^ 56; 0xDA ≤ opc) ∧ (let opc := (0x3FFFFFFFFFFFFFFF : Word).toNat / 2 ^ 56; 0x33 ≤ opc ∧ opc ≤ 0x3F) := by decide +kernel

theorem witness_DecodeOfEncode : (Instr.sub { pg := 3, pn := false } 7 8 9).isWord = true ∧ (Instr.sub { pg := 3, pn := false } 7 8 9).wellFormed = true ∧ reads (0x0267890000000000, .sub { pg := 3, pn := false } 7 8 9) = true := by
  decide +kernel

theorem witness_EncodeOfDecode : ∃ i, decode 0x0267890000000000 = .ok i := ⟨_, rfl⟩

/-- A word to run, an undecodable one, one outside the code area, one past its arm. -/
theorem witness_StepRunsDecoded :
    let s := placed 0x0601230000000000
    let t := actWith 0 0 0
    (s.turn = some (.issue 2048 0) ∧ s.act? 2048 0 = some t ∧ t.ended = false ∧ (s.site 2048).seq.halt = false ∧ (s.codeWord? 2048 7 t.pc).isSome = true ∧ t.pc < t.limit) ∧
    reads (0x0601230000000000, .div g0 1 2 3) = true ∧ refused 0x3300000000000000 = true ∧ s.codeWord? 2048 7 1000 = none ∧ { t with limit := 1 }.limit ≤ t.pc := by decide +kernel

theorem witness_StepsAndTime : { State.reset with turn := some .tick }.obs.withhold = 0 ∧ State.reset.obs.timeFrac < 7 ∧ State.reset.obs.time.toNat + 1 < 2 ^ 64 := by decide

/-- A step that issues a word keeps the canonical form, and goes on. -/
theorem witness_IssueKeepsMemory : (placed 0).turn = some (.issue 2048 0) ∧ MemOk (placed 0) ∧ ∃ u, step (placed 0) = .next u := ⟨by decide +kernel, by unfold MemOk; decide +kernel, ⟨_, rfl⟩⟩

/-! ### Witnesses where a step waits, and for what is in flight -/

/-- The trap queue full and with room; a trap handler is served at once. -/
theorem witness_TrapRooms :
    let s := ready (actWith 0 0 0)
    let full := s.modSeq 2048 fun q => { q with trapQ := List.replicate 16 trap0 }
    (s.site 2048).seq.trapRoom = true ∧ (full.site 2048).seq.trapRoom = false ∧ (actWith 0 0 0).trapHandler = false ∧ readyB (.trap g0 5) full (actWith 0 0 0) = true ∧
    full.act? full.cur.1 full.cur.2 = some (actWith 0 0 0) := by decide +kernel

/-- Context 7 of the site not frozen, and frozen; a firing that waits and a trap that waits; a service request whose handler's slot is claimed while the retry buffer is full. -/
theorem witness_Waiting :
    let s := coded [eCtl, eMon, eDya]
    let cold := s.modSite 2048 fun x => { x with ctxs := x.ctxs.map fun p => (p.1, { p.2 with frozen := true }) }
    let f : Fired := { tok := tok 0 7 0 5, word := eMon, d1 := 5, d2 := 0, pz := false, claim := none, partner := 0, armB := false, step := false, trapHandler := false, org := engineOrigin, hist := 0, deps := [] }
    let full := s.modSeq 2048 fun q => { q with fireQ := List.replicate 32 f }
    let traps := s.modSeq 2048 fun q => { q with trapQ := List.replicate 16 trap0, frames := [(0, { cls := 0, owner := 7, origin := .pool })] }
    let p : Slot := { value := 1, pres := true, psn := false, port := false, stamp := 0 }
    s.frozen7 2048 = false ∧ cold.frozen7 2048 = true ∧ (s.site 2048).seq.canFire = true ∧ (full.site 2048).seq.canFire = false ∧ full.codeWord? 2048 7 1 = some eMon ∧ classOk 1 (tok 0 7 1 5) = true ∧
    full.onArrival 2048 (fl (tok 0 7 1 5)) = none ∧ 16 ≤ (traps.site 2048).seq.trapQ.length ∧ traps.frameCheck 2048 7 0 (entSlot eDya) 1 = none ∧ traps.claimed 2048 0 = false ∧
    ((traps.setFslot 2048 0 p).fslot 2048 0 = p) ∧ (traps.setFslot 2048 0 p).onArrival 2048 (fl (tok 0 7 2 5)) = none ∧
    (let a := awake { s.modSeq 2048 (fun q => { q with halt := true }) with mesh := [fl (tok 0 7 1 5)] }
     atHead a.mesh 0 = true ∧ retryWaits a 2048 = false ∧ dieOf 2048 ∉ a.pkg.wiping ∧ arrivalKind a 2048 (fl (tok 0 7 1 5)) = .plain ∧ replyStale a 2048 (fl (tok 0 7 1 5)) = false ∧ (a.site 2048).seq.fireQ = [] ∧
       (a.site 2048).seq.trapQ = [] ∧ (a.takeFlight 0 (fl (tok 0 7 1 5))).onArrival 2048 (fl (tok 0 7 1 5)) = none) := by decide +kernel

/-- A commit in the clk of its `end` and after it, one with a service request held, one whose effects go, and one that stops at a load while its port is full. -/
theorem witness_CommitSteps :
    let t := { actWith 0 0 0 with ended := true }
    let a (e : List Effect) : Activation := { t with effects := e }
    let c (e : List Effect) : State := { (coded [eDya]).modSeq 2048 (fun q => { q with acts := [(0, a e)], ready := [0] }) with clk := 1 }
    let svc := (c []).modSeq 2048 fun q => { q with service := some svc0 }
    let goes (s : State) (e : Effect) : Bool :=
      let b := s.commitBegin 2048 0 (a [e])
      (b.commitEffect (issuerOf b s.seq 2048 (a [e])) t.tag s.seq t.hist e).isSome
    let ld : Effect := .mem (.ld { vm 0 2 0 3 with tix := 0 }) 0 0 0 0 0 none
    let full := { c [ld] with reqs := List.replicate 512 (mreq (.ld { vm 0 2 0 3 with tix := 0 }) 0 (.ready [])) }
    t.endAt < (c []).clk ∧ ({ c [] with clk := 0 }).clk ≤ t.endAt ∧ (svc.site 2048).seq.service = some svc0 ∧ (c []).act? 2048 0 = some (a []) ∧ (a []).committing = none ∧
    goes (c [.service 1 2 rep0]) (.service 1 2 rep0) = true ∧ goes (c [ld]) ld = true ∧ goes full ld = false ∧ full.act? 2048 0 = some (a [ld]) ∧ (full.site 2048).seq.ready = [0] ∧ ((c [ld]).site 2048).seq.service = none := by
  decide +kernel

/-- A wanted release that performs at scope 9 with a posted write of its set still in flight. -/
theorem witness_FlushedArrivals :
    let r : GroupReq := { op := .arrive, id := 0x800001, src := 2048, asid := 0, ctx := 7, scope := 9, target := none, psn := false, deps := [4], seq := 5, org := engineOrigin }
    let p : Posted := { fences := [], num := 0, pa := 0x10000000000, who := { path := 3, site := 2048, ctx := 7, asid := 0, seq := 4, act := 4, deps := [], obs := { scope := 9, site := 2048, bx := 0, by_ := 0, w := 1, h := 1 } } }
    let s := { placed 0 with groupReqs := [r] }
    let f := { s with mem := { s.mem with posted := [p] } }
    s.setPerformed (s.groupAgent r) = true ∧ (s.flushGate r.seq fun p => (s.releaseSet (s.groupAgent r)).contains p.who.seq) = none ∧ 8 ≤ r.scope ∧ f.setPerformed (f.groupAgent r) = true ∧
    (f.flushGate r.seq fun p => (f.releaseSet (f.groupAgent r)).contains p.who.seq).isSome = true ∧ (f.flushGate r.seq fun p => p.who.path == 7) = none := by decide +kernel

/-- An operation whose tile an earlier one of the matrix engine uses, one that comes before it, and one alone. -/
theorem witness_OperationsWait :
    let i : Instr := .vadd (vx 1 1 1 0 .n8)
    let s (l : List TileOp) : State := (tiled (actWith 0 0 0)).modSite 2048 fun x => { x with tile := { x.tile with queue := l } }
    let m (o : TileOp) (q : Nat) : State := (s [op0 i]).modSite 2048 fun x => { x with mx := { x.mx with queue := [{ o with seq := q }] } }
    let o := op0 (.mlds (vx 0 1 0 0 .n8))
    let w : State := m { op0 (.mout { vx 1 1 0 0 .f32 with m := 0 }) with started := true } 1
    (w.tileBlocked 2048 (op0 i) = true ∧ (w.tileWaits 2048 1 (op0 i) = true)) ∧ (s [op0 i]).tileBlocked 2048 (op0 i) = false ∧ ((s [op0 i]).site 2048).mx.queue = [] ∧ (m o 3).tileBlocked 2048 (op0 i) = false := by
  decide +kernel

/-- A port with 255 parked requests and with 256; an earlier request still to be looked up; an answer kept and a flush under way; the other mirror's bytes on their way. -/
theorem witness_PortWaits :
    let ld : Instr := .ld { vm 0 2 0 3 with tix := 0 }
    let r := mreq ld 0 .committed
    let s (k : Nat) : State := { withReq r with reqs := r :: List.replicate k { mreq ld 0 (.parked [0] false) with id := 9 } }
    let early := { withReq r with reqs := [{ r with id := 1 }, r] }
    (s 255).parkedReqs 2048 < 256 ∧ 256 ≤ (s 256).parkedReqs 2048 ∧ ((s 0).reqs.all fun q => !(q.who.site == 2048 && decide (q.id < r.id) && q.phase == .committed)) = true ∧
    (early.reqs.any fun q => decide (q.id < r.id) && q.phase == .committed && !q.unread) = true ∧ r.answer = none ∧ (withReq r).flushing 3 = false ∧ (placed 0).rcv.mirrors = [] ∧
    (placed 0).pager.links = [] ∧ (placed 0).link.unacked = [] ∧ (placed 0).rcv.roll = none ∧ (placed 0).rcv.scan = false := by decide +kernel

/-- A stream's only item and its first of two, with nothing of the port before them. -/
theorem witness_StreamOrder :
    let d (n : Word) : List Word := [0, 0x600000000, n, 0]
    let s := withExt (placed 0) [ext0 true true 0]
    let g (n : Word) : StreamRun := gen0 0 0 (d n)
    let run (n : Word) : State := s.modSite 2048 fun x => { x with port := { x.port with gens := [(0, g n)] } }
    let acc (n : Word) : PortAcc := (run n).itemAcc (g n).who (g n).seq (g n).act (g n).alc (g n).deps (g n).d (g n).off (g n).pos ((g n).pos + 1)
    (g 0x0001000100010001).d.count = 1 ∧ (g 0x0001000100010002).d.count = 2 ∧ (run 0x0001000100010002).parkedReqs 2048 < 256 ∧
    (((run 0x0001000100010002).portAccs 2048).all fun q => !mustFollow q (acc 0x0001000100010002)) = true ∧ (acc 0x0001000100010002).g.site = 2048 := by decide +kernel

/-- An operation that another participant has not issued, one issued by all before the table in force, one whose check failed, and descriptors with a bad field and with overlapping areas. -/
theorem witness_CollectiveStarts :
    let o := cop0 (cdesc 8)
    let d := CollDesc.of (cdesc 8)
    let dg := collDigest 0 (cdesc 8)
    let lap := (cdesc 8).take 24 ++ toBytes 0x1000 8 ++ (cdesc 8).drop 32
    let told (g : CollGroup) : Option (Nat × Bool) := (g.issued.find? fun i => i.1 == 1 && i.2.1 == o.num).map (·.2.2)
    let bad := { o with bad := some (0x0606, 0x28) }
    let wait := { grp0 o [] with cur := none, waiting := [bad] }
    let solo := { grp0 o [] with members := [0] }
    (told (grp0 o []) = none ∧ (grp0 o []).members.filter (· ≠ (placed 0).link.devno) = [1] ∧ told (grp0 o [(1, 1, dg + 1, false)]) ≠ none ∧ dg + 1 ≠ dg ∧ told (grp0 { o with earlier := true } [(1, 1, dg, true)]) = some (dg, true)) ∧
    ((CollDesc.of (cdesc 0)).badField (cdesc 0) 0 0 [0, 1] = some 0x28 ∧ d.badField (cdesc 8) 0 0 [0, 1] = none ∧
      (CollDesc.of lap).badField lap 0 0 [0, 1] = none ∧ (overlapOf ((CollDesc.of lap).ranges 0 0 [0, 1])).isSome = true) ∧
    ((collS wait).collGroup? 0 0 = some wait ∧ wait.cur = none ∧ wait.trees ≠ [] ∧ bad.bad = some (0x0606, 0x28)) ∧
    ((collS solo).collGroup? 0 0 = some solo ∧ solo.members = [(placed 0).link.devno] ∧ o.earlier = false) := by decide +kernel

/-- An entry whose write finds its page, and one whose write finds none; a page whose seed must wait behind a STORE of the device to itself. -/
theorem witness_ExpertWrites :
    let c : Dispatch := { req := sreq (.xdspOne { sf with d := 0, a := 0 }), rest := [ent1 0, ent1 0], done := 0 }
    let pg : PoolPage := { rows := [], stamp := 0, closed := false }
    let xp (s : State) : State := { s with xp := { s.xp with nexp := 1, en := true, cur := some c, rows := [(0, [0])], reps := [(0, rep1 .live)], pages := [(0, pg), (1, pg)] } }
    let s := xp (tabled (withLaunch (launch0 .placing)) 0xE000000000200000)
    let none_ := xp (withLaunch (launch0 .placing))
    let written (s : State) : Bool := (s.bumpFree.ownerWrite (s.bumpFree.reqAgent 5 (ent1 0).req) (ent1 0).who (s.xp.pageVa 0 + 8 * pg.rows.length) (toBytes (ent1 0).payload.toNat 8)).1
    let store := mreq (.st (vm 1 2 0 0)) 0 (.ready [{ vpn := 0, typ := 4, dev := 0, frame := 1, r := true, w := true }])
    let own := { s with reqs := [store] }
    written s = true ∧ written none_ = false ∧ s.xp.replicaFor (ent1 0) = some 0 ∧ Tbl.get? s.xp.reps 0 = some (rep1 .live) ∧ (rep1 .live).openPage = some 0 ∧ Tbl.get? s.xp.pages 0 = some pg ∧ pg.rows.length + 1 < (rep1 .live).batch ∧
    s.homeStores = false ∧ own.homeStores = true := by decide +kernel

def inb (src : Option Nat) (port : Nat) : Inbound := { src := src, port := port, pa := 0xE000820000, kind := .read false 8, earlier := 0, tag := 7 }

/-- A scan while I/O die 0 is in its wipe and after; a record behind its source's earlier one and one that is first; a record with flag bit 3 and a host write in flight, and none; host requests by BAR0 and by BAR4 in the wipe of a device reset. -/
theorem witness_RecordsAndWipes :
    let s := placed 0
    let scan (l : List Nat) : State := { s with rcv := { s.rcv with scan := true }, pkg := { s.pkg with wiping := l } }
    let r := hrec 9 0 0
    let q (l : List (List HeadRec)) : State := { withLaunch (launch0 .frozen) with link := { s.link with hold := l } }
    let p : Posted := { fences := [], num := 0, pa := 0x10000000000, who := { path := 7, site := 2048, ctx := 7, asid := 0, seq := 4, act := 4, deps := [], obs := { scope := 9, site := 2048, bx := 0, by_ := 0, w := 1, h := 1 } } }
    let f := { q [[r], []] with mem := { s.mem with posted := [p] } }
    8 ∈ (scan [8]).pkg.wiping ∧ 8 ∉ (scan []).pkg.wiping ∧ (scan []).rcv.roll = none ∧
    (q [[], []]).headBehind r = false ∧ (q [[{ r with num := 0 }], []]).headBehind { r with num := 1 } = true ∧
    r.flags / 8 % 2 = 1 ∧ ((q [[r], []]).flushGate r.num fun p => p.who.path == 7) = none ∧ (f.flushGate r.num fun p => p.who.path == 7).isSome = true ∧ f.storesDone r = true ∧
    ((inb none 1).src = none ∧ (inb none 1).port ≠ 0 ∧ s.link.inbound = [] ∧ s.pkg.boot = .wiping ∧ 8 ∈ s.pkg.wiping ∧ (scan []).pkg.wiping = []) := by decide +kernel

/-- A visit that is due and one that is not; a stop condition at an open input; sources of the report. -/
theorem witness_VisitsAndReports :
    let s := placed 0
    let sw (c : Nat) : State := { s with clk := c, obs := { s.obs with swEn := true, period := 1, swSite := 2, swFrom := 0 } }
    let fw := { withLaunch (launch0 .running) with pkg := { s.pkg with life := 1, boot := .running, wiping := [], fw := some (0, []) } }
    (0 + 2 * ((sw 1347).obs.period * 1400000) / 2080 ≤ (sw 1347).clk ∧ ¬(0 + 2 * ((sw 1345).obs.period * 1400000) / 2080 ≤ (sw 1345).clk) ∧ (sw 0).obs.swEn = true ∧ (sw 0).obs.swSite = 2) ∧
    (fw.pkg.life = 1 ∧ fw.pkg.boot = .running ∧ 8 ∉ fw.pkg.wiping ∧ fw.pkg.fw = some (0, []) ∧ fw.launch? 0 = some (launch0 .running) ∧ (launch0 .running).ctx = 7 ∧ (launch0 .running).state ≠ .placing) ∧
    (8 ∈ ({ s with pkg := { s.pkg with boot := .running } } : State).pkg.wiping ∧ ({ s with pkg := { s.pkg with boot := .running } } : State).pkg.boot ≠ .wiping) ∧
    (s.pkg.fw = none ∧ (withLaunch (launch0 .running)).rcv.nreg = 0) ∧ inputOpen (awake s) 2048 = true := by decide +kernel

/-- A step that is an event, and one that is an own step of the part. -/
theorem witness_TurnKinds :
    ({ placed 0 with turn := some (.event .inputLoss) } : State).turn = some (.event .inputLoss) ∧ ({ placed 0 with turn := some (.own (.commit 2048)) } : State).turn = some (.own (.commit 2048)) ∧
    lateResult (.add g0 4 1 2) = none := by decide +kernel

/-! ### Witnesses where each event completes -/

/-- One fired activation, a held operand whose slot is free again, activations that commit, a trap and a service request, a frame request, a first join and a counted reference. -/
theorem witness_SequencerComplete :
    let f : Fired := { tok := tok 0 7 0 5, word := eMon, d1 := 5, d2 := 0, pz := false, claim := none, partner := 0, armB := false, step := false, trapHandler := false, org := engineOrigin, hist := 0, deps := [] }
    let h := fl (tok 0 7 0 5)
    let s := (coded [eDya]).modSeq 2048 fun q => { q with acts := [], fireQ := [f], frames := [(0, { cls := 0, owner := 7, origin := .pool })] }
    let r := s.modSeq 2048 fun q => { q with released := [0], retryQ := [h] }
    let a (e : List Effect) : Activation := { actWith 0 0 0 with ended := true, effects := e }
    let c (e : List Effect) : State := { (coded [eDya]).modSeq 2048 (fun q => { q with acts := [(0, a e)], ready := [0] }) with clk := 1 }
    let v := (coded [eMon]).modSeq 2048 fun q => { q with trapQ := [trap0], trapEn := true, acts := [] }
    let w := (coded [eMon]).modSeq 2048 fun q => { q with service := some svc0, sysEn := true, acts := [] }
    let al := (placed 0).modSeq 2048 fun q => { q with allocQ := [{ ctx := 7, cls := 0, level := 0, useRes := false, what := .reply rep0 false [] engineOrigin }] }
    let g : GroupReq := { op := .join, id := 0x800001, src := 2048, asid := 0, ctx := 7, scope := 1, target := some rep0, psn := false, deps := [], seq := 1, org := engineOrigin }
    let j := { placed 0 with groupReqs := [g] }
    let hr : HandleReq := { op := .inc, desc := dsc, src := 2048, ctx := 7, asid := 0, gen := 0, target := some rep0, psn := false, deps := [] }
    let d := { tiled (actWith 0 0 0) with handleReqs := [hr] }
    ((s.site 2048).seq.halt = false ∧ (s.site 2048).seq.fireQ = [f] ∧ (s.site 2048).seq.acts = []) ∧
    ((r.site 2048).seq.released = [0] ∧ (r.site 2048).seq.retryQ = [h] ∧ r.codeWord? 2048 7 0 = some eDya ∧ isEnt eDya = true ∧ 2 ≤ entArity eDya ∧ classOk (entArity eDya) h.tok = true ∧
      0 = h.tok.fp.toNat + entSlot eDya ∧ r.claimed 2048 0 = false ∧ (r.slot? 2048 7).all (fun c => !c.frozen && !c.csw) = true ∧ r.frameCheck 2048 7 0 (entSlot eDya) 1 = none ∧ (r.fslot 2048 0).pres = false) ∧
    (∀ e ∈ [[], [Effect.frameWrite 0 1 5]], ((c e).site 2048).seq.ready = [0] ∧ ((c e).site 2048).seq.service = none ∧ (c e).act? 2048 0 = some (a e) ∧ (a e).committing = none ∧ (a e).endAt < (c e).clk ∧ (a e).claim = none) ∧
    (∀ x ∈ [v, w], (x.site 2048).seq.systemFrame = some 0 ∧ (x.site 2048).seq.halt = false ∧ (x.site 2048).seq.fireQ = [] ∧ x.frozen7 2048 = false ∧ x.codeWord? 2048 7 0 = some eMon) ∧
    (isEnt eMon = true ∧ entArity eMon = 1 ∧ (v.site 2048).seq.trapQ = [trap0] ∧ (v.site 2048).seq.trapEn = true ∧ (w.site 2048).seq.trapQ = [] ∧ (w.site 2048).seq.service = some svc0 ∧ (w.site 2048).seq.sysEn = true ∧
      (v.site 2048).seq.trapIp = 0 ∧ (w.site 2048).seq.sysIp = 0) ∧
    ((al.site 2048).seq.allocQ.length = 1 ∧ al.frozenAt 2048 7 = false ∧ ((al.site 2048).seq.poolFrame 0).isSome = true) ∧
    (j.groupReqs = [g] ∧ (Entry.of rep0.entry).remote = false ∧ j.group? (g.id.toNat / 2 ^ 12 % 2 ^ 12) (g.id.toNat % 2 ^ 6) = none) ∧
    (d.handleReqs = [hr] ∧ (d.liveTile? (Desc.of dsc).site (Desc.of dsc)).any (fun b => b.count != BitVec.allOnes 16) = true) := by decide +kernel

/-- An allocation that fits, a dead tile nobody uses, first operations that start, drop a booking and complete with and without a result, a bank command and a wipe, and matrix operations. -/
theorem witness_EnginesComplete :
    let i : Instr := .vadd (vx 1 1 1 0 .n8)
    let s (l : List TileOp) : State := (tiled (actWith 0 0 0)).modSite 2048 fun x => { x with tile := { x.tile with queue := l } }
    let m (l : List TileOp) : State := (tiled (actWith 0 0 0)).modSite 2048 fun x => { x with mx := { x.mx with queue := l } }
    let h : HallocReq := { shape := 0x01010101, kind := 0, who := who0, gen := 0, psn := false, target := rep0, deps := [], org := engineOrigin }
    let w : State := (placed 0).modSite 2048 fun x => { x with tile := { x.tile with waiting := [h] } }
    let d := (tiled (actWith 0 0 0)).modSite 2048 fun x => { x with tile := { x.tile with tiles := [(0, { owner := 7, kind := 0, shape := 0x01010101, count := 0, poison := 0, dying := some 1 })] } }
    let o := op0 i
    let started := { o with started := true }
    let mo := op0 (.mlds (vx 0 1 0 0 .n8))
    let busy := (s [o]).modSite 2048 fun x => { x with mx := { x.mx with queue := [{ op0 (.mout { vx 1 1 0 0 .f32 with m := 0 }) with started := true, seq := 1 }] } }
    let b : BankOp := { bankCommand 0x0C00 with wiping := true }
    let bk : State := (placed 0).modSite 2048 fun x => { x with tile := { x.tile with bankOps := [b] } }
    ((w.site 2048).tile.waiting = [h] ∧ (w.allocTile 2048 h.who.ctx h.kind h.shape).any (fun r => r.1.isSome) = true) ∧
    ((Tbl.get? (d.site 2048).tile.tiles 0).any (fun t => t.dying == some 1) = true ∧ (d.site 2048).tile.queue = [] ∧ (d.site 2048).mx.queue = [] ∧ d.reqs = []) ∧
    (((s [o]).site 2048).tile.queue = [o] ∧ o.started = false ∧ (s [o]).tileWaits 2048 1 o = false ∧ (s [o]).staleTile o = none) ∧
    ((busy.site 2048).tile.queue = [o] ∧ o.booked = true ∧ busy.tileBlocked 2048 o = true) ∧
    (((s [started]).site 2048).tile.queue = [started] ∧ started.result = none ∧ started.started = true) ∧ { started with result := some (0, true) }.result = some (0, true) ∧
    (((placed 0).site 2048).tile.bankOps = [] ∧ ((placed 0).site 2048).tile.bankOk (bankCommand 0x0C00) = true ∧ (bankCommand 0x0C00).bank < 8) ∧ ((bk.site 2048).tile.bankOps = [b] ∧ b.wiping = true ∧ (bk.site 2048).tile.banks.length = 8) ∧
    (((m [mo]).site 2048).mx.queue = [mo] ∧ mo.started = false ∧ ((m [mo]).site 2048).mx.claim = false ∧ (m [mo]).tileWaits 2048 2 mo = false ∧ (m [mo]).staleTile mo = none ∧ ownerStops ((m [mo]).site 2048).mx mo = false ∧
      mo.ins.isMldw = false ∧ ((m [{ mo with started := true, result := some (0, true) }]).site 2048).mx.queue = [{ mo with started := true, result := some (0, true) }]) := by decide +kernel

/-- Each request alone in the queue, in the phase that its step takes up. -/
theorem witness_PortComplete :
    let ld : Instr := .ld { vm 0 2 0 3 with tix := 0 }
    let go := withReq (mreq (.ld { vm 0 2 0 11 with tix := 0 }) 0 .committed)
    let park := { withReq (mreq ld 0 (.parked [0] false)) with pager := { (placed 0).pager with walks := [(2048, 0, 7, 0)] } }
    let good := tabled park 0xE000000000200000
    let gb := mreq (.gbump { vm 0 0 0 0 with scp := 5 }) 0 (.ready [])
    let stale := { mreq ld 0 (.ready [{ vpn := 0, typ := 0, dev := 0, frame := 1, r := true, w := true }]) with gen := 1 }
    let st := withReq (mreq (.st (vm 1 2 0 11)) 8 (.ready []))
    (go.reqs.length = 1 ∧ (11 : BitVec 5).getLsbD 3 = true) ∧
    (good.pager.walks = [(2048, 0, 7, 0)] ∧ good.reqs.length = 1 ∧ (good.slot? 2048 7).any (fun k => k.asid == 0) = true ∧ leafOf (({ good with pager := { good.pager with walks := [] } }.walk 2048 (good.tableKey 2048 7) 0).1) = true) ∧
    ((withReq gb).reqs = [gb] ∧ (withReq gb).fences = [] ∧ gb.gen = ((withReq gb).gen gb.who.asid).toNat) ∧
    (st.fences = [] ∧ (st.site 2048).port.gens = [] ∧ (st.reqs.all fun r => (st.portAccs 2048).all fun q => !mustFollow q (st.portAcc r)) = true ∧ 8 + 8 ≤ 2 ^ 39 ∧ inCellarRange st.rcv 8 = false ∧ (awake st).pkg.wiping = [] ∧ st.pager.migs = [] ∧
      st.pager.twins = [] ∧ st.pager.twinPairs = [] ∧ st.twinAt 2048 7 = none ∧ st.pager.twinOk = []) ∧
    ((withReq stale).reqs = [stale] ∧ stale.gen ≠ ((withReq stale).gen stale.who.asid).toNat) := by decide +kernel

/-- Refresh windows, a waiting stream, one with a held beat and one with an item of its page, a migration at its start and at its end. -/
theorem witness_PortComplete_streams :
    let d (n : Word) : List Word := [0, 0x600000000, n, 0]
    let gens (beat : Nat) : State := (withExt (placed 0) [ext0 true true 0]).modSite 2048 fun x => { x with port := { x.port with gens := [(0, gen0 0 beat (d 0x0001000100010002))] } }
    let hot := { gens 0 with pager := { (gens 0).pager with duty := [(8, 16)] } }
    let g := gen0 0 1 (d 0x0001000100010002)
    let acc := (gens 1).itemAcc g.who g.seq g.act g.alc g.deps g.d g.off g.pos (g.pos + 1)
    let mg (k : Nat) : Migration := { asid := 0, va := 0, old := 1, new := 2, p := k, req := 3, fwd := false }
    let ms (k : Nat) : State := { withReq (mreq (.migr (vm 1 2 0 0)) 0 (.remote [])) with pager := { (placed 0).pager with migs := [mg k] } }
    let ws (l : List Nat) (c n : Nat) : State := { placed 0 with clk := c, mem := { (placed 0).mem with refresh := l, wsNext := [(127, n)] } }
    let op := (placed 0).modSite 2048 fun x => { x with port := { x.port with sopens := [{ mreq (.sopen { vm 0 2 0 0 with tix := 0 }) 0 .committed with target := some rep0 }] } }
    ((ws [] 0 0).mem.refresh = [] ∧ (ws [] 0 0).nextWindow 7 15 ≤ (ws [] 0 0).clkAt (7 * 256) ∧ (ws [127] 168 22400).mem.refresh = [7 * 16 + 15] ∧ (ws [127] 168 22400).nextWindow 7 15 + 168 ≤ (ws [127] 168 22400).clkAt (7 * 256) + 22400) ∧
    ((op.site 2048).port.sopens.length = 1 ∧ (op.site 2048).port.gens = []) ∧
    (0 < hot.duty 2048 ∧ hot.sourcesStopped 2048 7 = false ∧ (hot.site 2048).port.gens.length = 1) ∧
    (((gens 1).site 2048).port.gens = [(0, g)] ∧ g.beat = 1 ∧ g.parked = false ∧ (gens 1).sourcesStopped 2048 7 = false ∧ g.d.replay = false ∧ g.d.tile = false ∧ g.d.itemVa g.off g.pos = 0 ∧ g.d.itemBytes = 8 ∧
      (gens 1).extent? 2048 7 0 = some (ext0 true true 0) ∧ (ext0 true true 0).2.r = true ∧ (ext0 true true 0).2.typ = 0 ∧ inCellarRange (gens 1).rcv (2 ^ 21) = false ∧ (awake (gens 1)).pkg.wiping = [] ∧ (gens 1).fences = [] ∧
      (((gens 1).portAccs 2048).all fun q => !mustFollow q acc) = true ∧ g.pos + 1 < g.d.count) ∧
    ((ms 0).pager.migs = [mg 0] ∧ (ms 2048).pager.migs = [mg 2048] ∧ (mg 2048).fwd = false ∧ ((ms 2048).reqs.all fun r => r.id == (mg 2048).req) = true) := by decide +kernel

/-- A launch with a seed, with a link token, waiting for a place, with its configuration on its way, with no work left; steps of the governor; a containment; two exits of a twin. -/
theorem witness_LaunchesComplete :
    let sd := { launch0 .idle with seeds := [seed0] }
    let lk := linked (withLaunch (launch0 .placing)) (2 ^ 63)
    let f := { link0 0 with entry := 0x8000000000000000 }
    let pl := { launch0 .placing with sys := false, ctx := 1 }
    let w : WaitPlace := { what := .place, handle := 0, req := none, data := true, denied := false }
    let s := { withLaunch pl with pager := { (withLaunch pl).pager with waiting := [w] } }
    let held : State := (withLaunch (launch0 .placing)).modSite 2048 fun x => { x with ctxs := x.ctxs.map fun p => (p.1, { p.2 with held := true }) }
    let idle (q : Option Nat) : State := (withLaunch { launch0 .running with quiet := q }).modSeq 2048 fun q => { q with acts := [] }
    let gov (c : Nat) : State := { withLaunch (launch0 .running) with clk := c }
    let k : CtxSlot := { asid := 0, handle := 0, bx := 0, by_ := 0, w := 4, h := 4, page := none, held := false, frozen := false, csw := false, captured := [], stopped := [] }
    let p : State := ({ gov 71400 with reqs := [mreq (.ld { vm 0 2 0 3 with tix := 0 }) 0 (.parked [0] false)] } : State).modSite 2048 fun x => { x with ctxs := [(7, k)] }
    let tw : State := { withLaunch (launch0 .running) with clk := 65536, pager := { (withLaunch (launch0 .running)).pager with twins := [exit0 false 1 (some 0), exit0 true 1 (some 0)] } }
    let one : State := { tw with pager := { tw.pager with twins := [exit0 false 1 (some 0)] } }
    ((withLaunch sd).launch? 0 = some sd ∧ sd.state = .idle ∧ sd.freeze = none ∧ sd.seeds = [seed0]) ∧
    (lk.pager.links = [f] ∧ lk.twinAt f.src f.sctx = none ∧ linkTo f.entry = some (0, 0) ∧ lk.isSelf 0 = true ∧ lk.launch? 0 = some (launch0 .placing) ∧ (launch0 .placing).asid = f.asid ∧ f.tok.dx.toNat < (launch0 .placing).w ∧
      f.tok.dy.toNat < (launch0 .placing).h ∧ (launch0 .placing).links = []) ∧
    (s.pager.waiting = [w] ∧ s.launch? 0 = some pl ∧ (s.plans pl).1 = some [] ∧ ((s.plans pl).2.search pl [] pl.twin.isSome pl.twin.toList pl.bases).base = some (0, 0, 0)) ∧
    (held.launch? 0 = some (launch0 .placing) ∧ held.heldSites 0 (launch0 .placing) ≠ [] ∧ held.rcv.roll = none) ∧
    (Tbl.getD (gov 14000).pager.dutyAt 0 0 + 14000 ≤ (gov 14000).clk) ∧
    (∀ q ∈ [none, some ((idle none).sums 7 (launch0 .running).allSites).sent], (idle q).launch? 0 = some { launch0 .running with quiet := q } ∧ ((idle q).sums 7 (launch0 .running).allSites).still true = true ∧
      (launch0 .running).nsink ≤ ((idle q).sums 7 (launch0 .running).sites).eos4 + (launch0 .running).eosBase) ∧
    ((p.site 2048).ctxs = [(7, k)] ∧ p.launch? 0 = some (launch0 .running) ∧ (launch0 .running).open_ = true ∧ p.pager.fltLimit ≠ 0 ∧ p.pager.fltLimit < p.parkedAge 2048 7 / 1400) ∧
    (tw.launch? 0 = some (launch0 .running) ∧ tw.pager.twins = [exit0 false 1 (some 0), exit0 true 1 (some 0)] ∧ (exit0 false 1 (some 0)).what = .req 3 ∧ (exit0 true 1 (some 0)).what = .req 4) ∧
    (one.pager.twins = [exit0 false 1 (some 0)] ∧ 0 + 65536 ≤ one.clk) := by decide +kernel

/-- A message of the next table and one held too long, an operation of one device, a stalled chunk, an entry for an open page, pages to release and to retire, a graft to publish, a replica whose launch failed. -/
theorem witness_CollectivesComplete :
    let s := tabled (withLaunch (launch0 .placing)) 0xE000000000200000
    let h : HeldMsg := { msg := cmsg 1, since := 0 }
    let held := { s with clk := 1400000, coll := { s.coll with held := [[h], []] } }
    let o := cop0 (cdesc 8)
    let solo := { grp0 o [] with members := [0] }
    let d := CollDesc.of (cdesc 8)
    let run := { o with started := true, marks := List.replicate d.nbits false }
    let late : State := { collS (grp0 run []) with clk := 1400000 }
    let c : Dispatch := { req := sreq (.xdspOne { sf with d := 0, a := 0 }), rest := [ent1 0, ent1 0], done := 0 }
    let pg : PoolPage := { rows := [], stamp := 0, closed := false }
    let ex (r : Replica) : State := { s with xp := { s.xp with nexp := 1, en := true, cur := some c, rows := [(0, [0])], reps := [(0, r)], pages := [(0, pg), (1, pg)] } }
    let x := ex (rep1 .live)
    let gr : Graft := { req := sreq (.xrep { sf with d := 0, a := 0 }), stage := 6, desc := List.replicate 64 0, placing := false }
    let dead := { x with pager := (withLaunch (launch0 .failed)).pager }
    ((placed 0).coll.held = [[], []] ∧ (cmsg 1).ver = ((placed 0).coll.ltVer.toNat + 1) % 2 ^ 32) ∧ (held.coll.held.getD 0 [] = [h] ∧ h.since + (held.coll.stall.getD 0 0).toNat ≤ held.clk) ∧
    ((collS solo).collGroup? 0 0 = some solo ∧ o.started = false ∧ o.earlier = false ∧ solo.members = [(collS solo).link.devno]) ∧
    (late.collGroup? 0 0 = some (grp0 run []) ∧ run.bitOf d 1 0 = some 0 ∧ 0 % d.nch = 0 ∧ run.stalled = [] ∧ Tbl.getD run.progress 0 0 + (late.coll.stall.getD 0 0).toNat ≤ late.clk) ∧
    ((match s.links.1 with | .ok _ => true | .error _ => false) = true ∧ s.links.2.coll.groups = [] ∧ ({ s with coll := { s.coll with held := [] } }.links.2.coll.held = []) ∧ 1 % 2 ^ 32 = (s.links.2.coll.ltVer.toNat + 1) % 2 ^ 32) ∧
    (x.xp.waiting = [] ∧ x.xp.cur = some c ∧ x.xp.replicaFor (ent1 0) = some 0 ∧ (x.bumpFree.ownerWrite (x.bumpFree.reqAgent 5 (ent1 0).req) (ent1 0).who (x.xp.pageVa 0 + 8 * 0) (toBytes (ent1 0).payload.toNat 8)).1 = true) ∧
    (x.launch? 0 = some (launch0 .placing) ∧ (rep1 .live).queue = [1] ∧ (rep1 .live).redo = [] ∧ x.reqs = [] ∧ (launch0 .placing).seeds = []) ∧
    ({ rep1 .live with redo := [(1, 1)] }.redo = [(1, 1)] ∧ (1 : Nat) ≤ { launch0 .running with runs := 1 }.runs) ∧ (dead.launch? 0 = some (launch0 .failed) ∧ (rep1 .live).state = .live) ∧
    (({ s with xp := { s.xp with graft := some gr } } : State).xp.reps = [] ∧ s.xp.orphans = [] ∧ gr.stage = 6) := by decide +kernel

/-- A seal that a reset tore, a dirty region to mend, a scan, an escalated launch, records of a headgate, a host's read, a port, a visit that is due, a walk, a stop condition. -/
theorem witness_PackageComplete :
    let s := placed 0
    let rc (f : RecState → RecState) : State := { s with rcv := f { s.rcv with nreg := 8, celBase := 16 } }
    let l := { launch0 .containing with escalated := true }
    let img : State := { withLaunch (launch0 .placing) with pager := { (withLaunch (launch0 .placing)).pager with cache := [(0, { bytes := toBytes 0 12 ++ toBytes 1 2 ++ List.replicate 50 0 })] } }
    let q (a b : List HeadRec) : State := { img with link := { img.link with inq := [a, []], hold := [b, []] } }
    let r := hrec 1 0 0
    (({ req := sreq (.rseal { sf with d := 0, a := 0 }), point := 0, lost := true } : Seal).lost = true) ∧
    ((rc fun r => { r with dirty := [(7, 1)] }).rcv.mirrors = [] ∧ (((rc fun r => { r with dirty := [(7, 1)] }).rcv.dirty.find? fun p => mendable (rc fun r => { r with dirty := [(7, 1)] }).rcv p.1).map (·.1)) = some 7) ∧
    ((awake (rc fun r => { r with scan := true })).rcv.scan = true ∧ 8 ∉ (awake (rc fun r => { r with scan := true })).pkg.wiping) ∧
    ((withLaunch l).launch? 0 = some l ∧ l.escalated = true ∧ l.asid = (withLaunch l).rcv.asid ∧ (withLaunch l).rcv.roll = none ∧ (withLaunch l).rcv.scan = false) ∧
    ((q [r] []).link.inq.getD 0 [] = [r] ∧ (q [r] []).headBehind r = false ∧ (q [r] []).badField? r = none ∧ (q [r] []).launch? r.handle = some (launch0 .placing) ∧ r.flags % 2 = 1 ∧ r.req = none ∧ 0 < (q [r] []).link.hold.length) ∧
    ((q [] [r]).link.hold.getD 0 [] = [r] ∧ (q [] [r]).storesDone r = true ∧ r.flags / 8 % 2 = 0 ∧ (launch0 .placing).seeds = []) ∧
    ((inb none 0).kind = .read false 8 ∧ 0xE000820000 ≤ (inb none 0).pa ∧ (inb none 0).pa < 0xF000000000 ∧ (awake s).link.inbound = [] ∧ (awake s).pkg.wiping = []) ∧ s.link.ports[17]? = some PortState.reset := by decide +kernel

/-- A visit that is due, a walk with a further entry, a stop condition, an armed monitor and injection, and the package in each phase that a reset or a write takes up. -/
theorem witness_PackageComplete_observation :
    let s := placed 0
    let e (o : Origin) : HistEntry := { gen := 0, ctx := 7, ip := 0, itn := 0, fp := 0, stamp := 0, clk := 0, org := o, single := true }
    let o : Origin := { site := 2048, idx := 1, gen := 0 }
    let w : Walk := { req := sreq (.omrkWalk { sf with d := 0, a := 0, hi := 2 }), depth := 2, steps := 0, site := 2048, idx := 0, gen := 0 }
    let hist := { s.modSite 2048 (fun x => { x with obs := { x.obs with hist := [(0, e o), (1, e o)] } }) with obs := { s.obs with walks := [w] } }
    let f := fl (tok 0 7 0 5)
    let st := awake { withLaunch (launch0 .running) with mesh := [f], obs := { s.obs with stopArmed := true, stopHandle := 0, stop1 := 0 } }
    let sw := { s with clk := 1347, obs := { s.obs with swEn := true, period := 1, swSite := 2, swFrom := 0 } }
    let inj := { s with mem := { s.mem with inj := some (64, .correctable) } }
    let run := { awake s with pkg := { s.pkg with boot := .running, wiping := [7], recov := 0x40 } }
    let fw := { withLaunch (launch0 .running) with pkg := { s.pkg with life := 1, boot := .running, wiping := [], fw := some (0, []) } }
    (sw.obs.swEn = true ∧ sw.obs.swSite = 2 ∧ sw.obs.swFrom + 2 * (sw.obs.period * 1400000) / 2080 ≤ sw.clk) ∧
    (hist.obs.walks = [w] ∧ Tbl.get? (hist.site w.site).obs.hist w.idx = some (e o) ∧ w.steps + 1 < w.depth ∧ (e o).org.site ≠ 0xFFF ∧ hist.obs.trLen = 0 ∧ Tbl.get? (hist.site o.site).obs.hist o.idx = some (e o) ∧ (e o).gen = o.gen) ∧
    (st.mesh = [f] ∧ f.here = true ∧ retryWaits st f.dst = false ∧ arrivalKind st f.dst f = .stop ∧ inputOpen st f.dst = true) ∧
    (s.obs.mons[2]? = some Monitor.reset ∧ { Monitor.reset with en := true }.en = true) ∧ (inj.mem.inj = some (64, .correctable) ∧ paTarget 64 ≠ .tile ∧ inj.injectAt 64 / 64 = 64 / 64) ∧
    (run.pkg.boot ≠ .wiping ∧ run.pkg.wiping = [7] ∧ run.pkg.recov.getLsbD 6 = true ∧ 6 ∉ run.pkg.wiping ∧ run.pkg.life < 3) ∧
    (fw.pkg.life = 1 ∧ fw.pkg.boot = .running ∧ 8 ∉ fw.pkg.wiping ∧ fw.pkg.fw = some (0, []) ∧ fw.launch? 0 = some (launch0 .running)) ∧ (0x8000000000000000 : Word).getLsbD 63 = true ∧ 0 ≤ (5 : Word).toInt := by decide +kernel
end Sys2Proof.Tests
end

section
/-! SUPPORT. Where a step of the machine goes: what running a word, the row of an event and a move of the part answer. -/
namespace Sys2Proof.Machine

/-- The answer is a next state: no fault, no refusal. -/
def GoesOn (o : Out) : Prop := ∃ u, o = .next u

@[simp] theorem goesOn_next (u : State) : GoesOn (.next u) := ⟨u, rfl⟩

/-- A match on a pair goes on if it does for any two parts. `m` stands for the match and `p` stays opaque, so that the kernel does not evaluate
the computation that gives the pair (a slot of the log, in the scan). -/
theorem goesOn_pair {α β : Type} {m : α × β → (α → β → Out) → Out} (hm : ∀ a b f, m (a, b) f = f a b) {p : α × β} {f : α → β → Out}
    (h : ∀ a b, GoesOn (f a b)) : GoesOn (m p f) := by
  rw [← Prod.eta p, hm]
  exact h p.1 p.2

/-- A word goes on for an activation in flight (R14). -/
theorem run_goesOn {i : Instr} {body : Body} {s : State} (h : s.act? s.cur.1 s.cur.2 ≠ none) : GoesOn (run i body s) := by
  rcases run_cases i body s with ⟨habsent, -⟩ | ⟨a, -, ⟨t, htrap⟩ | hskip | ⟨t, b, -, hbody⟩⟩
  · exact absurd habsent h
  · exact ⟨_, htrap⟩
  · exact ⟨_, hskip⟩
  · exact ⟨_, hbody⟩

/-- The meaning of every instruction word is a `run`, so it goes on where `run` does. -/
theorem exec_word_goesOn {i : Instr} {s : State} (hw : i.isWord = true) (h : s.act? s.cur.1 s.cur.2 ≠ none) : GoesOn (exec i s) := by
  fun_cases exec i s <;> cases hw <;> exact run_goesOn h

/-! ### The rows of the events, one by one

Every branch of a row's meaning, the ones whose conditions do not hold among them, ends in a next state. -/

/-! #### The sequencer and the input of a site -/

@[simp] theorem execTokenArrival_goesOn (i : Nat) (s : State) : GoesOn (execTokenArrival i s) := by
  fun_cases execTokenArrival i s <;> exact goesOn_next _

@[simp] theorem execCswHold_goesOn (i : Nat) (s : State) : GoesOn (execCswHold i s) := by
  fun_cases execCswHold i s <;> exact goesOn_next _

@[simp] theorem execCswRelease_goesOn (i : Nat) (s : State) : GoesOn (execCswRelease i s) := by
  fun_cases execCswRelease i s <;> exact goesOn_next _

@[simp] theorem execRmkArrival_goesOn (i : Nat) (s : State) : GoesOn (execRmkArrival i s) := by
  fun_cases execRmkArrival i s <;> exact goesOn_next _

@[simp] theorem execCisternWrite_goesOn (i : Nat) (s : State) : GoesOn (execCisternWrite i s) := by
  fun_cases execCisternWrite i s <;> exact goesOn_next _

@[simp] theorem execStopHit_goesOn (i : Nat) (s : State) : GoesOn (execStopHit i s) := by
  fun_cases execStopHit i s <;> exact goesOn_next _

@[simp] theorem execActivationSlotGrant_goesOn (n : Nat) (s : State) : GoesOn (execActivationSlotGrant n s) := by
  fun_cases execActivationSlotGrant n s <;> exact goesOn_next _

@[simp] theorem execHeldTokenRetry_goesOn (n : Nat) (s : State) : GoesOn (execHeldTokenRetry n s) := by
  fun_cases execHeldTokenRetry n s <;> exact goesOn_next _

@[simp] theorem execCommit_goesOn (n : Nat) (s : State) : GoesOn (execCommit n s) := by
  fun_cases execCommit n s <;> exact goesOn_next _

@[simp] theorem execTrapDelivery_goesOn (n : Nat) (s : State) : GoesOn (execTrapDelivery n s) := by
  fun_cases execTrapDelivery n s <;> exact goesOn_next _

@[simp] theorem execServiceDelivery_goesOn (n : Nat) (s : State) : GoesOn (execServiceDelivery n s) := by
  fun_cases execServiceDelivery n s <;> exact goesOn_next _

@[simp] theorem execFrameGrant_goesOn (n i : Nat) (s : State) : GoesOn (execFrameGrant n i s) := by
  fun_cases execFrameGrant n i s <;> exact goesOn_next _

@[simp] theorem execGroupRequest_goesOn (k : Nat) (s : State) : GoesOn (execGroupRequest k s) := by
  fun_cases execGroupRequest k s <;> exact goesOn_next _

@[simp] theorem execHandleRequest_goesOn (k : Nat) (s : State) : GoesOn (execHandleRequest k s) := by
  fun_cases execHandleRequest k s <;> exact goesOn_next _

/-! #### The tile store, the vector engine and the matrix engine -/

@[simp] theorem execTileFree_goesOn (n g : Nat) (s : State) : GoesOn (execTileFree n g s) := by
  fun_cases execTileFree n g s <;> exact goesOn_next _

@[simp] theorem execHallocGrant_goesOn (n k : Nat) (s : State) : GoesOn (execHallocGrant n k s) := by
  fun_cases execHallocGrant n k s <;> exact goesOn_next _

@[simp] theorem execBankReconfigure_goesOn (n : Nat) (v : Word) (s : State) : GoesOn (execBankReconfigure n v s) := by
  fun_cases execBankReconfigure n v s <;> exact goesOn_next _

@[simp] theorem execBankWipeDone_goesOn (n k : Nat) (s : State) : GoesOn (execBankWipeDone n k s) := by
  fun_cases execBankWipeDone n k s <;> exact goesOn_next _

@[simp] theorem execVectorOpStart_goesOn (n : Nat) (s : State) : GoesOn (execVectorOpStart n s) := by
  fun_cases execVectorOpStart n s <;> exact goesOn_next _

@[simp] theorem execGapBookingDrop_goesOn (n : Nat) (s : State) : GoesOn (execGapBookingDrop n s) := by
  fun_cases execGapBookingDrop n s <;> exact goesOn_next _

@[simp] theorem execVectorOpComplete_goesOn (n : Nat) (s : State) : GoesOn (execVectorOpComplete n s) := by
  fun_cases execVectorOpComplete n s <;> exact goesOn_next _

@[simp] theorem execMatrixOpStart_goesOn (n : Nat) (s : State) : GoesOn (execMatrixOpStart n s) := by
  fun_cases execMatrixOpStart n s <;> exact goesOn_next _

@[simp] theorem execMatrixOpComplete_goesOn (n : Nat) (s : State) : GoesOn (execMatrixOpComplete n s) := by
  fun_cases execMatrixOpComplete n s <;> exact goesOn_next _

/-! #### The memory port -/

@[simp] theorem execMemTranslate_goesOn (id : Nat) (s : State) : GoesOn (execMemTranslate id s) := by
  fun_cases execMemTranslate id s <;> exact goesOn_next _

@[simp] theorem execPageWalkDone_goesOn (k : Nat) (s : State) : GoesOn (execPageWalkDone k s) := by
  fun_cases execPageWalkDone k s <;> exact goesOn_next _

@[simp] theorem execStaleGenerationRetry_goesOn (id : Nat) (s : State) : GoesOn (execStaleGenerationRetry id s) := by
  fun_cases execStaleGenerationRetry id s <;> exact goesOn_next _

@[simp] theorem execHostCompletionTimeout_goesOn (id : Nat) (s : State) : GoesOn (execHostCompletionTimeout id s) := by
  fun_cases execHostCompletionTimeout id s <;> exact goesOn_next _

@[simp] theorem execHostCompletion_goesOn (id code : Nat) (data : List Byte) (s : State) : GoesOn (execHostCompletion id code data s) := by
  fun_cases execHostCompletion id code data s <;> exact goesOn_next _

@[simp] theorem execWsRefreshStart_goesOn (die bank : Nat) (s : State) : GoesOn (execWsRefreshStart die bank s) := by
  fun_cases execWsRefreshStart die bank s <;> exact goesOn_next _

@[simp] theorem execWsRefreshEnd_goesOn (die bank : Nat) (s : State) : GoesOn (execWsRefreshEnd die bank s) := by
  fun_cases execWsRefreshEnd die bank s <;> exact goesOn_next _

@[simp] theorem execStreamItem_goesOn (n k : Nat) (s : State) : GoesOn (execStreamItem n k s) := by
  fun_cases execStreamItem n k s <;> exact goesOn_next _

@[simp] theorem execStreamGeneratorGrant_goesOn (n : Nat) (s : State) : GoesOn (execStreamGeneratorGrant n s) := by
  fun_cases execStreamGeneratorGrant n s <;> exact goesOn_next _

@[simp] theorem execBubEmit_goesOn (n k : Nat) (s : State) : GoesOn (execBubEmit n k s) := by
  fun_cases execBubEmit n k s <;> exact goesOn_next _

@[simp] theorem execMigrationComplete_goesOn (k : Nat) (s : State) : GoesOn (execMigrationComplete k s) := by
  fun_cases execMigrationComplete k s <;> exact goesOn_next _

/-! #### The region pager -/

@[simp] theorem execLinkTokenRoute_goesOn (i : Nat) (s : State) : GoesOn (execLinkTokenRoute i s) := by
  fun_cases execLinkTokenRoute i s <;> exact goesOn_next _

@[simp] theorem execPlacementRetry_goesOn (k : Nat) (s : State) : GoesOn (execPlacementRetry k s) := by
  fun_cases execPlacementRetry k s <;> exact goesOn_next _

@[simp] theorem execConfigWaveDone_goesOn (h : Nat) (s : State) : GoesOn (execConfigWaveDone h s) := by
  fun_cases execConfigWaveDone h s <;> exact goesOn_next _

@[simp] theorem execSeedRelease_goesOn (h : Nat) (s : State) : GoesOn (execSeedRelease h s) := by
  fun_cases execSeedRelease h s <;> exact goesOn_next _

@[simp] theorem execThermalDutyStep_goesOn (die : Nat) (s : State) : GoesOn (execThermalDutyStep die s) := by
  fun_cases execThermalDutyStep die s <;> exact goesOn_next _

@[simp] theorem execQuiescenceWave_goesOn (h : Nat) (s : State) : GoesOn (execQuiescenceWave h s) := by
  fun_cases execQuiescenceWave h s <;> exact goesOn_next _

@[simp] theorem execContainmentTrigger_goesOn (h cause : Nat) (s : State) : GoesOn (execContainmentTrigger h cause s) := by
  fun_cases execContainmentTrigger h cause s <;> exact goesOn_next _

@[simp] theorem execTwinDigest_goesOn (i : Nat) (s : State) : GoesOn (execTwinDigest i s) := by
  fun_cases execTwinDigest i s <;> exact goesOn_next _

@[simp] theorem execTwinDigestTimeout_goesOn (i : Nat) (s : State) : GoesOn (execTwinDigestTimeout i s) := by
  fun_cases execTwinDigestTimeout i s <;> exact goesOn_next _

@[simp] theorem execEscalatedRollback_goesOn (h : Nat) (s : State) : GoesOn (execEscalatedRollback h s) := by
  fun_cases execEscalatedRollback h s <;> exact goesOn_next _

/-! #### The collective, expert placement and recovery engines -/

@[simp] theorem execCollMessage_goesOn (e : Nat) (m : CollMsg) (s : State) : GoesOn (execCollMessage e m s) := by
  fun_cases execCollMessage e m s <;> exact goesOn_next _

@[simp] theorem execCollectiveOpStart_goesOn (asid gtag : Nat) (s : State) : GoesOn (execCollectiveOpStart asid gtag s) := by
  fun_cases execCollectiveOpStart asid gtag s <;> exact goesOn_next _

@[simp] theorem execColStall_goesOn (e i : Nat) (s : State) : GoesOn (execColStall e i s) := by
  fun_cases execColStall e i s <;> exact goesOn_next _

@[simp] theorem execChunkStall_goesOn (asid gtag c : Nat) (s : State) : GoesOn (execChunkStall asid gtag c s) := by
  fun_cases execChunkStall asid gtag c s <;> exact goesOn_next _

@[simp] theorem execRouteEntry_goesOn (s : State) : GoesOn (execRouteEntry s) := by
  fun_cases execRouteEntry s <;> exact goesOn_next _

@[simp] theorem execPageRelease_goesOn (k : Nat) (s : State) : GoesOn (execPageRelease k s) := by
  fun_cases execPageRelease k s <;> exact goesOn_next _

@[simp] theorem execPageRetire_goesOn (k : Nat) (s : State) : GoesOn (execPageRetire k s) := by
  fun_cases execPageRetire k s <;> exact goesOn_next _

@[simp] theorem execGraftStageDone_goesOn (s : State) : GoesOn (execGraftStageDone s) := by
  fun_cases execGraftStageDone s <;> exact goesOn_next _

@[simp] theorem execReplicaFailed_goesOn (k : Nat) (s : State) : GoesOn (execReplicaFailed k s) := by
  fun_cases execReplicaFailed k s <;> exact goesOn_next _

@[simp] theorem execSealAbandoned_goesOn (cause : Nat) (s : State) : GoesOn (execSealAbandoned cause s) := by
  fun_cases execSealAbandoned cause s <;> exact goesOn_next _

@[simp] theorem execResilverRegion_goesOn (k : Nat) (s : State) : GoesOn (execResilverRegion k s) := by
  fun_cases execResilverRegion k s <;> exact goesOn_next _

@[simp] theorem execSlotScan_goesOn (s : State) : GoesOn (execSlotScan s) := by
  unfold execSlotScan
  split
  · exact goesOn_next _
  · refine goesOn_pair (fun _ _ _ => rfl) fun a s => goesOn_pair (fun _ _ _ => rfl) fun b s => ?_
    extract_lets top above point fresh scanned
    clear_value scanned
    split <;> exact goesOn_next _

/-! #### Links, host, observation and package -/

@[simp] theorem execInboundRequest_goesOn (r : Inbound) (s : State) : GoesOn (execInboundRequest r s) := by
  fun_cases execInboundRequest r s <;> exact goesOn_next _

@[simp] theorem execFlitReplay_goesOn (p : Nat) (again : Bool) (s : State) : GoesOn (execFlitReplay p again s) := by
  fun_cases execFlitReplay p again s <;> exact goesOn_next _

@[simp] theorem execSweepVisit_goesOn (n : Nat) (s : State) : GoesOn (execSweepVisit n s) := by
  fun_cases execSweepVisit n s <;> exact goesOn_next _

@[simp] theorem execWalkStep_goesOn (i : Nat) (s : State) : GoesOn (execWalkStep i s) := by
  fun_cases execWalkStep i s <;> exact goesOn_next _

@[simp] theorem execInjectionHit_goesOn (pa : Nat) (s : State) : GoesOn (execInjectionHit pa s) := by
  fun_cases execInjectionHit pa s <;> exact goesOn_next _

@[simp] theorem execComputeDieReset_goesOn (d : Nat) (s : State) : GoesOn (execComputeDieReset d s) := by
  fun_cases execComputeDieReset d s <;> exact goesOn_next _

@[simp] theorem execWipeComplete_goesOn (dom : Nat) (s : State) : GoesOn (execWipeComplete dom s) := by
  fun_cases execWipeComplete dom s <;> exact goesOn_next _

@[simp] theorem execCalibrationEnd_goesOn (d : Nat) (s : State) : GoesOn (execCalibrationEnd d s) := by
  fun_cases execCalibrationEnd d s <;> exact goesOn_next _

@[simp] theorem execRegisterWrite_goesOn (pa : Nat) (v : Word) (s : State) : GoesOn (execRegisterWrite pa v s) := by
  fun_cases execRegisterWrite pa v s <;> exact goesOn_next _

@[simp] theorem execAttestationReport_goesOn (s : State) : GoesOn (execAttestationReport s) := by
  fun_cases execAttestationReport s <;> exact goesOn_next _

/-! ### Every event, every move -/

/-- The row of an event goes on, in every state. -/
theorem exec_event_goesOn {i : Instr} (hw : i.isWord = false) (s : State) : GoesOn (exec i s) := by
  fun_cases exec i s <;> cases hw <;>
    simp [execFltctlRetry, execFltctlFail, execMemAccessPerform, execMigrationGranuleCopy, execPowerWindow, execFaultTimeSample,
    execCeLtctlWrite, execCellarLineWrite, execSeedRecord, execAfterRelease, execPortDown, execPortTrain, execLkIrqWrite,
    execTimeEventMessage, execObTadjWrite, execMonitorSample, execObLmselWrite, execInputLoss, execDeviceReset, execIoDie1Reset,
    execIoDie0Reset, execPkBootWrite, execLifeCycleAdvance]

/-- A row of the table stops only where it is a word that no activation issues. -/
theorem exec_goesOn_or_unissued (i : Instr) (s : State) :
    GoesOn (exec i s) ∨ (i.isWord = true ∧ s.act? s.cur.1 s.cur.2 = none) := by
  cases hw : i.isWord with
  | false => exact .inl (exec_event_goesOn hw s)
  | true =>
    by_cases ha : s.act? s.cur.1 s.cur.2 = none
    · exact .inr ⟨rfl, ha⟩
    · exact .inl (exec_word_goesOn hw ha)

/-- The row of the opcode table that a move makes (not compiled: Lean's runtime has no tags for so many constructors). -/
noncomputable def Move.row (m : Move) : Instr :=
  match m with
  | .activationSlotGrant site => .activationSlotGrant site
  | .heldTokenRetry site => .heldTokenRetry site
  | .commit site => .commit site
  | .trapDelivery site => .trapDelivery site
  | .serviceDelivery site => .serviceDelivery site
  | .frameGrant site n => .frameGrant site n
  | .tileFree site gran => .tileFree site gran
  | .hallocGrant site n => .hallocGrant site n
  | .bankWipeDone site n => .bankWipeDone site n
  | .bankReconfigure site v => .bankReconfigure site v
  | .vectorOpStart site => .vectorOpStart site
  | .vectorOpComplete site => .vectorOpComplete site
  | .matrixOpStart site => .matrixOpStart site
  | .matrixOpComplete site => .matrixOpComplete site
  | .gapBookingDrop site => .gapBookingDrop site
  | .streamGeneratorGrant site => .streamGeneratorGrant site
  | .streamItem site gen => .streamItem site gen
  | .bubEmit site gen => .bubEmit site gen
  | .powerWindow site => .powerWindow site
  | .tokenArrival n => .tokenArrival n
  | .cswHold n => .cswHold n
  | .cswRelease n => .cswRelease n
  | .rmkArrival n => .rmkArrival n
  | .cisternWrite n => .cisternWrite n
  | .stopHit n => .stopHit n
  | .groupRequest n => .groupRequest n
  | .handleRequest n => .handleRequest n
  | .linkTokenRoute n => .linkTokenRoute n
  | .memTranslate id => .memTranslate id
  | .faultTimeSample site => .faultTimeSample site
  | .cellarLineWrite id => .cellarLineWrite id
  | .staleGenerationRetry id => .staleGenerationRetry id
  | .memAccessPerform id => .memAccessPerform id
  | .hostCompletionTimeout id => .hostCompletionTimeout id
  | .pageWalkDone n => .pageWalkDone n
  | .migrationGranuleCopy n => .migrationGranuleCopy n
  | .migrationComplete n => .migrationComplete n
  | .wsRefreshEnd die bank => .wsRefreshEnd die bank
  | .wsRefreshStart die bank => .wsRefreshStart die bank
  | .configWaveDone handle => .configWaveDone handle
  | .seedRelease handle => .seedRelease handle
  | .quiescenceWave handle => .quiescenceWave handle
  | .containmentTrigger handle cause => .containmentTrigger handle cause
  | .escalatedRollback handle => .escalatedRollback handle
  | .placementRetry n => .placementRetry n
  | .twinDigest n => .twinDigest n
  | .twinDigestTimeout n => .twinDigestTimeout n
  | .thermalDutyStep die => .thermalDutyStep die
  | .chunkStall asid gtag chunk => .chunkStall asid gtag chunk
  | .collectiveOpStart asid gtag => .collectiveOpStart asid gtag
  | .colStall engine n => .colStall engine n
  | .routeEntry => .routeEntry
  | .pageRelease replica => .pageRelease replica
  | .pageRetire replica => .pageRetire replica
  | .replicaFailed replica => .replicaFailed replica
  | .graftStageDone => .graftStageDone
  | .sealAbandoned cause => .sealAbandoned cause
  | .resilverRegion k => .resilverRegion k
  | .slotScan => .slotScan
  | .seedRecord die => .seedRecord die
  | .afterRelease die n => .afterRelease die n
  | .inboundRequest r => .inboundRequest r
  | .portTrain port done => .portTrain port done
  | .walkStep n => .walkStep n
  | .sweepVisit site => .sweepVisit site
  | .monitorSample m v => .monitorSample m v
  | .wipeComplete dom => .wipeComplete dom
  | .calibrationEnd die => .calibrationEnd die

theorem Move.isWord_row (m : Move) : m.row.isWord = false := by cases m <;> rfl

theorem Move.run_eq_exec (m : Move) (s : State) : m.run s = exec m.row s := by cases m <;> rfl

theorem Move.run_goesOn (m : Move) (s : State) : GoesOn (m.run s) := by
  rw [m.run_eq_exec s]
  exact exec_event_goesOn m.isWord_row s

end Sys2Proof.Machine
end

section
/-! SUPPORT. One step, turn by turn. -/
namespace Sys2Proof.Machine

/-- A site's slot having had its turn leaves the slot's activation as it is. -/
@[simp] theorem State.act?_turnTaken (s : State) (n k : Nat) : (s.turnTaken n k).act? n k = s.act? n k := by
  simp [State.turnTaken, State.act?]

/-- A word is fetched for an activation in flight only (R14). -/
theorem act?_of_fetch_run {s : State} {n k : Nat} {i : Instr} (h : fetch s n k = .run i) : s.act? n k ≠ none := by
  intro hnone
  simp [fetch, hnone] at h

/-- A fetched word goes on. -/
theorem exec_fetched_goesOn {s : State} {n k : Nat} {i : Instr} (h : fetch s n k = .run i) :
    GoesOn (exec i { s.turnTaken n k with cur := (n, k) }) := by
  refine (exec_goesOn_or_unissued i _).resolve_right fun hstop => ?_
  have hact : (s.turnTaken n k).act? n k = none := hstop.2
  exact act?_of_fetch_run h (by simpa using hact)

/-- A turn to issue goes on. -/
theorem step_issue_goesOn {s r : State} {n k : Nat} (h : nextMove s = (.issue n k, r)) : GoesOn (step s) := by
  unfold step
  rw [h]
  dsimp only
  split
  case h_1 => exact goesOn_next _
  case h_2 i hf =>
    obtain ⟨u, hu⟩ := exec_fetched_goesOn hf
    rw [hu]
    exact goesOn_next _
  case h_3 t hf => split <;> exact goesOn_next _

theorem step_event {s r : State} {i : Instr} (h : nextMove s = (.event i, r)) : step s = exec i r := by simp [step, h]

theorem step_own {s r : State} {m : Move} (h : nextMove s = (.own m, r)) : step s = m.run r := by simp [step, h]

theorem step_tick {s r : State} (h : nextMove s = (.tick, r)) : step s = .next (tick r) := by simp [step, h]

/-- A turn of an instruction word given as an outside event is the only one that may stop. -/
theorem stepsGoOn : Claims.StepsGoOn := by
  intro s
  rcases hm : nextMove s with ⟨turn, r⟩
  cases turn with
  | issue n k => exact .inl (step_issue_goesOn hm)
  | event i =>
    rw [step_event hm]
    exact (exec_goesOn_or_unissued i r).imp_right fun hstop => ⟨i, r, rfl, hstop⟩
  | own m =>
    rw [step_own hm]
    exact .inl (m.run_goesOn r)
  | tick => exact .inl ⟨_, step_tick hm⟩
  | eject i => exact .inl ⟨r.eject i, by simp [step, hm]⟩
  | serve g => exact .inl ⟨serveEngine g r, by simp [step, hm]⟩
  | ack i => exact .inl ⟨r.ackMessage i, by simp [step, hm]⟩
  | mirror i => exact .inl ⟨r.mirrorAck i, by simp [step, hm]⟩

end Sys2Proof.Machine
end

section
/-! SUPPORT. The passing of a clk (R3, R421, R422). -/
namespace Sys2Proof.Machine

@[simp] theorem State.clk_count (s : State) (n e : Nat) : (s.count n e).clk = s.clk := rfl
@[simp] theorem State.obs_count (s : State) (n e : Nat) : (s.count n e).obs = s.obs := rfl

/-- What every count of an event leaves as it is, the counts of a clk leave as it is. -/
theorem State.countClk_frame {α : Type} (f : State → α) (h : ∀ s n e, f (s.count n e) = f s) (s : State) : f s.countClk = f s := by
  unfold State.countClk
  generalize (s.sites.flatMap fun p => (s.clkEvents p.1 p.2).map fun e => (p.1, e)) = l
  induction l generalizing s with
  | nil => rfl
  | cons c l ih => rw [List.foldl_cons, ih, h]

@[simp] theorem State.clk_countClk (s : State) : s.countClk.clk = s.clk := State.countClk_frame _ State.clk_count s
@[simp] theorem State.obs_countClk (s : State) : s.countClk.obs = s.obs := State.countClk_frame _ State.obs_count s

/-- A measurement changes nothing but the samples that have arisen. -/
theorem State.measure_eq (s : State) (m src v : Nat) : ∃ l, s.measure m src v = { s with obs := { s.obs with samples := l } } := by
  unfold State.measure
  split
  · exact ⟨_, rfl⟩
  · split
    · exact ⟨_, rfl⟩
    · exact ⟨_, rfl⟩

theorem State.measureQueues_eq (s : State) : ∃ l, s.measureQueues = { s with obs := { s.obs with samples := l } } := by
  unfold State.measureQueues
  split
  · exact ⟨_, rfl⟩
  · exact s.measure_eq ..

theorem tick_clk (s : State) : (tick s).clk = s.clk + 1 := by
  obtain ⟨l, hl⟩ := s.countClk.measureQueues_eq
  simp [tick, hl]

/-- With nothing withheld the time base takes the whole nanoseconds of 5/7 ns and what was left over, and leaves the rest over (R421). -/
theorem tick_time {s : State} (h : s.obs.withhold = 0) :
    (tick s).obs.time = s.obs.time + BitVec.ofNat 64 ((s.obs.timeFrac + 5) / 7) ∧ (tick s).obs.timeFrac = (s.obs.timeFrac + 5) % 7 := by
  obtain ⟨l, hl⟩ := s.countClk.measureQueues_eq
  simp [tick, hl, h]

theorem clockTick : Claims.ClockTick := by
  intro s hturn hheld hfrac htime
  have hm : nextMove s = (.tick, { s with turn := none }) := by simp [nextMove, hturn]
  obtain ⟨ht, hf⟩ := tick_time (s := { s with turn := none }) hheld
  refine ⟨_, step_tick hm, tick_clk _, ?_, ?_⟩
  · rw [hf]
    exact Nat.mod_lt _ (by decide)
  · rw [ht, hf, BitVec.toNat_add, BitVec.toNat_ofNat]
    dsimp only
    omega

/-- Settles O57: a clk advances the time by 5/7 ns, and only a word that no activation issues stops a step. -/
theorem stepsAndTime : Obligations.StepsAndTime := ⟨clockTick, stepsGoOn⟩

end Sys2Proof.Machine
end

section
/-! SUPPORT. Bytes and the units that hold them, and a read of memory in which no write is still to be seen, no line or unit is marked and no injection
is armed (R66, R84, R211, R430). -/
namespace Sys2Proof.Machine

theorem ofBytes_lt (l : List Byte) : ofBytes l < 256 ^ l.length := by
  induction l with
  | nil => simp [ofBytes]
  | cons b r ih =>
    have hb := b.isLt
    simp only [ofBytes, List.length_cons, Nat.pow_succ]
    omega

theorem toBytes_ofBytes (l : List Byte) : toBytes (ofBytes l) l.length = l := by
  induction l with
  | nil => rfl
  | cons b r ih =>
    have hb : b.toNat < 256 := b.isLt
    have hlow : BitVec.ofNat 8 (b.toNat + 256 * ofBytes r) = b := BitVec.eq_of_toNat_eq (by simp only [BitVec.toNat_ofNat]; omega)
    have hhigh : (b.toNat + 256 * ofBytes r) / 256 = ofBytes r := by omega
    rw [List.length_cons, ofBytes, toBytes, hlow, hhigh, ih]

@[simp] theorem MemState.length_bytes (m : MemState) (a n : Nat) : (m.bytes a n).length = n := by simp [MemState.bytes]

theorem MemState.bytes_add (m : MemState) (a n k : Nat) : m.bytes a (n + k) = m.bytes a n ++ m.bytes (a + n) k := by
  simp [MemState.bytes, List.range_add, Nat.add_assoc]

theorem MemState.toBytes_unit (m : MemState) (u : Nat) : toBytes (m.unit u).toNat 8 = m.bytes (u * 8) 8 := by
  have hlt := ofBytes_lt (m.bytes (u * 8) 8)
  rw [MemState.length_bytes] at hlt
  rw [MemState.unit, BitVec.toNat_ofNat, Nat.mod_eq_of_lt (show _ < 2 ^ 64 from hlt)]
  simpa using toBytes_ofBytes (m.bytes (u * 8) 8)

/-- Consecutive units hold the bytes of their range. -/
theorem MemState.flatMap_unit (m : MemState) (q c : Nat) :
    ((List.range c).map (q + ·)).flatMap (fun u => toBytes (m.unit u).toNat 8) = m.bytes (q * 8) (c * 8) := by
  induction c with
  | zero => rfl
  | succ c ih =>
    rw [List.range_succ, List.map_append, List.flatMap_append, ih, Nat.succ_mul, m.bytes_add, ← Nat.add_mul, ← m.toBytes_unit]
    simp

theorem MemState.slice_bytes (m : MemState) {a n off k : Nat} (h : off + k ≤ n) : slice (m.bytes a n) off k = m.bytes (a + off) k := by
  obtain ⟨c, rfl⟩ : ∃ c, n = off + (k + c) := ⟨n - off - k, by omega⟩
  have hpart : ((m.bytes a (off + (k + c))).drop off).take k = m.bytes (a + off) k := by
    rw [m.bytes_add, List.drop_left' (m.length_bytes ..), m.bytes_add, List.take_left' (m.length_bytes ..)]
  simp [slice, hpart]

/-- The bytes of a range, out of the units that it touches. -/
theorem MemState.slice_units (m : MemState) (a n : Nat) :
    slice ((unitsOf a n).flatMap fun u => toBytes (m.unit u).toNat 8) (a % 8) n = m.bytes a n := by
  by_cases hn : n = 0
  · simp [hn, slice, MemState.bytes]
  · rw [unitsOf, if_neg hn, m.flatMap_unit, m.slice_bytes (by omega)]
    congr 1
    omega

theorem le_of_mem_unitsOf {a n u : Nat} (h : u ∈ unitsOf a n) : a / 8 ≤ u := by
  unfold unitsOf at h
  split at h
  · simp at h
  · obtain ⟨i, -, rfl⟩ := List.mem_map.1 h
    omega

/-- Every write is seen, no line or unit is marked, no injection is armed. -/
structure MemState.Settled (m : MemState) : Prop where
  recs : m.recs = []
  units : m.units = []
  lines : m.lines = []
  inj : m.inj = none

namespace MemState.Settled
variable {s : State} (h : s.mem.Settled)
include h

theorem markOf (u : Nat) : s.mem.markOf u = none := by simp [MemState.markOf, h.units, h.lines, h.inj, Tbl.get?]

theorem damaged (u : Nat) : s.mem.damaged u = false := by simp [MemState.damaged, h.markOf]

theorem bad (a n : Nat) : s.mem.bad a n = false := by simp [MemState.bad, h.damaged]

theorem mapRecs (f : WriteRec → WriteRec) : s.mapRecs f = s := by
  have hmem : { s.mem with recs := s.mem.recs.map f } = s.mem := by rw [h.recs, List.map_nil, ← h.recs]
  rw [State.mapRecs, hmem]

theorem readUnit (g : Agent) (b : BitVec 8) (u src : Nat) : s.readUnit g b u src = (s.mem.unit src, s) := by
  have hmem : { s.mem with recs := [] } = s.mem := by rw [← h.recs]
  simp [State.readUnit, h.damaged, h.recs, staleValues, sawUnit, hmem]

theorem readUnits (g : Agent) (a n : Nat) (us : List Nat) (hus : ∀ u ∈ us, a / 8 ≤ u) : s.readUnits g a n a us = (us.map s.mem.unit, s) := by
  induction us with
  | nil => rfl
  | cons u r ih =>
    obtain ⟨hu, hr⟩ := List.forall_mem_cons.1 hus
    simp [State.readUnits, h.readUnit, ih hr, Nat.sub_add_cancel hu]

theorem settle (a n : Nat) : s.settle a n = s := by
  have hmem : { s.mem with units := [], lines := [], inj := none } = s.mem := by
    obtain ⟨-, hunits, hlines, hinj⟩ := h
    generalize s.mem = m at hunits hlines hinj ⊢
    cases m
    cases hunits
    cases hlines
    cases hinj
    rfl
  have hfixed : (unitsOf a n).filter (fun u => s.mem.markOf u == some .correctable) = [] :=
    List.filter_eq_nil_iff.2 fun u _ => by rw [h.markOf]; decide
  have hkeys : ([] : List Nat).eraseDups = [] := rfl
  simp only [State.settle, State.settleUnits, hfixed, h.units, h.lines, h.inj, List.filter_nil, List.map_nil, hkeys, List.foldl_nil, Bool.false_eq_true,
    if_false, hmem]

theorem readBytes (g : Agent) (a n : Nat) : s.readBytes g a n = (s.mem.bytes a n, s) := by
  simp [State.readBytes, h.readUnits g a n _ fun _ => le_of_mem_unitsOf, h.settle, List.flatMap_map, s.mem.slice_units]

theorem readRun (g : Agent) (a n k : Nat) : s.readRun g a n k = ({ bytes := s.mem.bytes a n, bad := [] }, s) := by
  simp [State.readRun, h.bad, h.readBytes]

/-- A piece of HBM with no migration under way is read where it lies. -/
theorem readPiece_hbm (hmig : s.pager.migs = []) (g : Agent) {p : Piece} (htyp : p.typ = 0) :
    s.readPiece g p = ({ bytes := s.mem.bytes p.pa p.len, bad := [] }, s) := by
  have hat : s.migAt p.pa = none := by simp [State.migAt, hmig]
  simp [State.readPiece, htyp, State.routes, State.readRuns, State.fork, hat, h.readRun, ReadRes.append]

theorem serveReads_hbm (hmig : s.pager.migs = []) (id : Nat) (i : Instr) (g : Agent) {p : Piece} (htyp : p.typ = 0) :
    s.serveReads id i g [p] = ({ bytes := s.mem.bytes p.pa p.len, bad := [] }, s) := by
  simp [State.serveReads, State.serveRead, State.away, htyp, h.readPiece_hbm hmig g htyp, ReadRes.append]

end MemState.Settled
end Sys2Proof.Machine
end

section
/-! SUPPORT. A scalar item of a stream: its one page and its one piece, and what the port does with it (R228, R229, R238). -/
namespace Sys2Proof.Machine

/-! ### Ranges that no boundary cuts -/

/-- A naturally aligned range within a stretch of `g` is one piece. -/
theorem cut_aligned {g a n : Nat} (hn : 0 < n) (hg : 0 < g) (hng : n ∣ g) (hna : n ∣ a) : cut g a n = [(a, n)] := by
  have hroom : n ≤ g - a % g :=
    Nat.le_of_dvd (Nat.sub_pos_of_lt (Nat.mod_lt a hg)) (Nat.dvd_sub hng ((Nat.dvd_mod_iff hng).2 hna))
  have hmin : Nat.min n (g - a % g) = n := Nat.min_eq_left hroom
  simp [cut, cutAt, hmin, Nat.ne_of_gt hn]

/-! ### Reading an extent -/

section
variable {s : State} {n c page : Nat}

theorem State.lookup_miss (h : s.extent? n c page = none) (k : AccKind) :
    s.lookup n c k [page] = { found := [], denied := none, missed := [page] } := by simp [State.lookup, h]

theorem State.lookup_read_denied {e : Nat × Extent} (h : s.extent? n c page = some e) (hr : e.2.r = false) :
    s.lookup n c .read [page] = { found := [e.2.xlat page], denied := some page, missed := [] } := by
  simp [State.lookup, h, needs, Extent.xlat, hr]

theorem State.lookup_read_found {e : Nat × Extent} (h : s.extent? n c page = some e) (hr : e.2.r = true) :
    s.lookup n c .read [page] = { found := [e.2.xlat page], denied := none, missed := [] } := by
  simp [State.lookup, h, needs, Extent.xlat, hr]

end

/-! ### The generators of a port -/

/-- After its last item a generator is free. -/
theorem State.gens_nextItem_last (s : State) (n k : Nat) {g : StreamRun} (h : g.d.count ≤ g.pos + 1) :
    Tbl.get? ((s.nextItem n k g).site n).port.gens k = none := by
  simp [State.nextItem, State.modPort, h, Tbl.get?_erase_same]

theorem State.gens_nextItem_more (s : State) (n k : Nat) {g : StreamRun} (h : g.pos + 1 < g.d.count) :
    Tbl.get? ((s.nextItem n k g).site n).port.gens k = some { g with pos := g.pos + 1, parked := false, beat := (g.beat + 1) % 256 } := by
  simp [State.nextItem, State.modPort, Nat.not_le.2 h, Tbl.get?_set_same]

/-! ### Reading a piece of HBM -/

/-- The physical address of `a` under an extent (R215). -/
def Extent.paOf (e : Extent) (a : Nat) : Nat := (e.frame + (a / 2 ^ 21 - e.vpn)) * 2 ^ 21 + a % 2 ^ 21

namespace Piece
variable {s : State} (p : Piece) (htyp : p.typ = 0)
include htyp

theorem local?_hbm : s.local? p = p := by simp [State.local?, htyp]

theorem mustWait_hbm (hwipe : s.pkg.wiping = []) : s.mustWait p = false := by
  simp [State.mustWait, p.local?_hbm htyp, htyp, dieOfPa, hwipe]

theorem checkPiece_read_hbm (hcellar : inCellarRange s.rcv p.pa = false) (opc : Nat) (head : Bool) : s.checkPiece .read opc head p = none := by
  simp [State.checkPiece, pieceFail, allowed, htyp, hcellar]

theorem hostFails_hbm : s.hostFails [p] = 0 := by simp [State.hostFails, p.local?_hbm htyp, htyp]

theorem hostAnswers_hbm : s.hostAnswers [p] = s := by simp [State.hostAnswers, p.local?_hbm htyp, htyp]

end Piece

theorem State.turnOf_unfenced {s : State} {r : PortAcc} (hfence : s.fences = []) (hport : ∀ q ∈ s.portAccs r.g.site, mustFollow q r = false) :
    s.turnOf r = true := by
  simpa [State.turnOf, State.fenced, hfence] using hport

theorem MemState.Settled.itemDone {s : State} (h : s.mem.Settled) (g : StreamRun) (agent : Agent) : s.itemDone g agent = s := by
  simp [State.itemDone, State.noteAfter, State.widenOwn, h.mapRecs]

theorem MemState.Settled.itemRead_hbm {s : State} (h : s.mem.Settled) (hmig : s.pager.migs = []) (g : StreamRun) (agent : Agent) {p : Piece}
    (htyp : p.typ = 0) : s.itemRead g agent [p] = ({ bytes := s.mem.bytes p.pa p.len, bad := [] }, s) := h.serveReads_hbm hmig _ _ _ htyp

/-- A scalar item whose bytes are read without an error is sent as they are. -/
theorem State.deliverItem_scalar {s t : State} {g : StreamRun} (htile : g.d.tile = false) (hreplay : g.d.replay = false) {read : State → ItemData × State}
    {b : List Byte} (hread : read s = ({ res := { bytes := b, bad := [] }, rows := 0, fresh := true }, t)) (n k va : Nat) (agent : Agent) :
    s.deliverItem n k g va agent read = some ((t.bumpFree.sendItem n g (BitVec.ofNat 64 (ofBytes b)) false).nextItem n k g) := by
  simp [State.deliverItem, htile, hread, State.fillWindow, State.keepItem, hreplay]

/-! ### The next item of a generator -/

/-- Generator `k` of site `n` runs `g`, a stream of scalars that is not replayed; its next item lies at `a`, in the address space, and neither its launch nor
the governor holds it. -/
structure State.ScalarTurn (s : State) (n k : Nat) (g : StreamRun) (a : Nat) : Prop where
  slot : k < 8
  run : Tbl.get? (s.site n).port.gens k = some g
  unparked : g.parked = false
  sources : s.sourcesStopped n g.who.ctx = false
  beat : g.beat ≠ 0 ∨ s.duty n = 0
  replay : g.d.replay = false
  tile : g.d.tile = false
  va : g.d.itemVa g.off g.pos = a
  top : a + g.d.itemBytes ≤ 2 ^ 56

namespace State.ScalarTurn
variable {s : State} {n k a : Nat} {g : StreamRun} (h : s.ScalarTurn n k g a)
include h

theorem goes : ¬(8 ≤ k ∨ g.parked ∨ s.sourcesStopped n g.who.ctx ∨ (g.beat = 0 ∧ 0 < s.duty n)) := by
  have hslot := h.slot
  have hbeat := h.beat
  simp only [h.unparked, h.sources, Bool.false_eq_true, false_or]
  omega

theorem replays : s.replays n g = none := by simp [State.replays, h.replay]

theorem itemBytes : g.d.itemBytes = 2 ^ g.d.z := by simp [StreamDesc.itemBytes, h.tile]

theorem itemBytes_pos : 0 < g.d.itemBytes := by
  rw [h.itemBytes]
  exact Nat.two_pow_pos _

/-- A scalar's size, of 1, 2, 4 or 8 B, divides that of a page. -/
theorem itemBytes_dvd : g.d.itemBytes ∣ 2 ^ 21 := by
  have hz : g.d.z < 2 ^ 2 := Nat.mod_lt _ (by decide)
  rw [h.itemBytes]
  exact Nat.pow_dvd_pow 2 (by omega)

theorem cut_page (ha : g.d.itemBytes ∣ a) : cut (2 ^ 21) a g.d.itemBytes = [(a, g.d.itemBytes)] :=
  cut_aligned h.itemBytes_pos (by decide) h.itemBytes_dvd ha

theorem pages (ha : g.d.itemBytes ∣ a) : pagesOf [(a, g.d.itemBytes)] = [a / 2 ^ 21] := by
  rw [pagesOf, List.flatMap_singleton, h.cut_page ha]
  rfl

theorem inRange (ha : g.d.itemBytes ∣ a) :
    ¬((a : Int) < 0 ∨ (2 : Int) ^ 56 < a + g.d.itemBytes ∨ (a : Int) % (if g.d.tile then 64 else g.d.itemBytes) ≠ 0) := by
  have htop := h.top
  have hmod : (a : Int) % g.d.itemBytes = 0 := by exact_mod_cast Nat.mod_eq_zero_of_dvd ha
  simp only [h.tile, Bool.false_eq_true, if_false, hmod]
  omega

/-- R238: a scalar off its natural alignment fails. -/
theorem execStreamItem_misaligned (ha : ¬ g.d.itemBytes ∣ a) : execStreamItem n k s = .next (s.failItem n k g 0x0304 a a) := by
  have htop := h.top
  have hword : (BitVec.ofInt 64 (a : Int)).toNat = a := by
    rw [BitVec.ofInt_natCast, BitVec.toNat_ofNat]
    exact Nat.mod_eq_of_lt (by omega)
  have hmod : (a : Int) % (if g.d.tile then 64 else g.d.itemBytes) ≠ 0 := by
    simp only [h.tile, Bool.false_eq_true, if_false]
    exact_mod_cast mt Nat.dvd_of_mod_eq_zero ha
  simp only [execStreamItem, h.run, if_neg h.goes, h.replays, h.va, if_pos (Or.inr (Or.inr hmod)), hword]

/-- R238: an item of a page that is not readable fails. -/
theorem execStreamItem_denied (ha : g.d.itemBytes ∣ a) {e : Nat × Extent} (he : s.extent? n g.who.ctx (a / 2 ^ 21) = some e) (hr : e.2.r = false) :
    execStreamItem n k s = .next (s.failItem n k g 0x0302 0 a) := by
  have hmax : Nat.max a (a / 2 ^ 21 * 2 ^ 21) = a := Nat.max_eq_left (Nat.div_mul_le_self a _)
  simp only [execStreamItem, h.run, if_neg h.goes, h.replays, h.va, if_neg (h.inRange ha), Int.toNat_natCast, h.pages ha, State.lookup_read_denied he hr, hmax]

/-- R229: an item whose page the extent table does not hold stays where it is while the port has no room to park it. -/
theorem execStreamItem_full (ha : g.d.itemBytes ∣ a) (he : s.extent? n g.who.ctx (a / 2 ^ 21) = none) (hfull : 256 ≤ s.parkedReqs n) :
    execStreamItem n k s = .next s := by
  simp only [execStreamItem, h.run, if_neg h.goes, h.replays, h.va, if_neg (h.inRange ha), Int.toNat_natCast, h.pages ha, State.lookup_miss he, if_pos hfull]

/-- R229: with room it parks its generator and asks for a walk. -/
theorem execStreamItem_miss (ha : g.d.itemBytes ∣ a) (he : s.extent? n g.who.ctx (a / 2 ^ 21) = none) (hroom : s.parkedReqs n < 256) :
    execStreamItem n k s = .next (((s.count n 11).askWalks n g.who.asid g.who.ctx [a / 2 ^ 21]).modPort n fun p =>
      { p with gens := Tbl.set p.gens k { g with parked := true, since := s.clk } }) := by
  simp only [execStreamItem, h.run, if_neg h.goes, h.replays, h.va, if_neg (h.inRange ha), Int.toNat_natCast, h.pages ha, State.lookup_miss he,
    if_neg (Nat.not_le.2 hroom)]
  rfl

/-- R228: a readable item of HBM whose turn has come is read whole, sent, and the generator goes on. -/
theorem execStreamItem_hbm (ha : g.d.itemBytes ∣ a) {e : Nat × Extent} (he : s.extent? n g.who.ctx (a / 2 ^ 21) = some e) (hr : e.2.r = true)
    (htyp : e.2.typ = 0) (hcellar : inCellarRange s.rcv (e.2.paOf a) = false) (hwipe : s.pkg.wiping = []) (hmig : s.pager.migs = [])
    (hmem : s.mem.Settled) (hturn : s.turnOf (s.itemAcc g.who g.seq g.act g.alc g.deps g.d g.off g.pos (g.pos + 1)) = true) :
    execStreamItem n k s = .next (((s.touchExtents n g.who.ctx [a / 2 ^ 21]).bumpFree.sendItem n g
      (BitVec.ofNat 64 (ofBytes (s.mem.bytes (e.2.paOf a) g.d.itemBytes))) false).nextItem n k g) := by
  let p : Piece := { va := a, typ := e.2.typ, dev := e.2.dev, pa := e.2.paOf a, len := g.d.itemBytes }
  have hpieces : xlatPieces [e.2.xlat (a / 2 ^ 21)] a g.d.itemBytes = [p] := by
    rw [xlatPieces, h.cut_page ha]
    simp [Extent.xlat, Extent.paOf, p]
  have hwait : [p].any s.mustWait = false := by simp [p.mustWait_hbm htyp hwipe]
  have hcheck : ([p].findSome? fun q => (s.checkPiece .read 0xAA false q).map fun f => (q, f)) = none := by
    simp [p.checkPiece_read_hbm htyp hcellar]
  have htouched : (s.touchExtents n g.who.ctx [a / 2 ^ 21]).mem.Settled := hmem
  simp only [execStreamItem, h.run, if_neg h.goes, h.replays, h.va, if_neg (h.inRange ha), Int.toNat_natCast, h.pages ha, State.lookup_read_found he hr,
    hpieces, hwait, hturn, hcheck, p.hostFails_hbm htyp, p.hostAnswers_hbm htyp]
  rw [State.deliverItem_scalar h.tile h.replay (t := s.touchExtents n g.who.ctx [a / 2 ^ 21])
    (b := s.mem.bytes (e.2.paOf a) g.d.itemBytes) ?read, Option.getD_some]
  case read => rw [htouched.itemRead_hbm hmig g _ htyp, htouched.itemDone]; rfl
  simp

end State.ScalarTurn

/-! ### `sopen`s, bubbles and items -/

/-- The search for a free generator ends at `k` where all below it are taken. -/
theorem find?_free_gen {gens : Tbl StreamRun} {k : Nat} (hk : k < 8) (hfree : Tbl.get? gens k = none) (hlow : ∀ j < k, (Tbl.get? gens j).isSome) :
    ((List.range 8).find? fun k => !Tbl.has gens k) = some k := by
  rw [List.find?_range_eq_some]
  exact ⟨by simp [Tbl.has, hfree], List.mem_range.2 hk, fun j hj => by simp [Tbl.has, hlow j hj]⟩

/-- The run of a stream that a `sopen` opens (R229). -/
def State.openedRun (s : State) (n : Nat) (r : MemReq) (m : MF) (t : Reply) : StreamRun :=
  { sdx := m.md.toNat, who := r.who, gen := r.gen, psn := r.psn, desc := s.streamWords n r.who.ctx m.md.toNat, target := t, alc := m.alc.toNat,
    off := r.va, pos := 0, replayPos := 0, parked := false, beat := 0, seq := r.id, deps := r.deps, org := r.org, act := r.act }

/-- R229: the first waiting `sopen` takes the lowest free generator. -/
theorem execStreamGeneratorGrant_lowest {s : State} {n k : Nat} {r : MemReq} {rest : List MemReq} {m : MF} {t : Reply}
    (hs : (s.site n).port.sopens = r :: rest) (hins : r.ins = .sopen m) (ht : r.target = some t) (hgens : ∀ g ∈ (s.site n).port.gens, g.1 < 8) (hk : k < 8)
    (hfree : Tbl.get? (s.site n).port.gens k = none) (hlow : ∀ j < k, (Tbl.get? (s.site n).port.gens j).isSome) :
    execStreamGeneratorGrant n s =
      .next (s.modPort n fun p => { p with sopens := rest, gens := Tbl.set p.gens k (s.openedRun n r m t) }) := by
  have hnone : ((s.site n).port.gens.find? fun g => decide (8 ≤ g.1)) = none := by simpa [List.find?_eq_none] using hgens
  simp only [execStreamGeneratorGrant, hnone, hs, find?_free_gen hk hfree hlow, hins, ht, State.openedRun]

/-- R230, R300: the generator goes on after the item times that are held. -/
theorem execBubEmit_gens {s : State} {n k : Nat} {g : StreamRun} (hk : k < 8) (hg : Tbl.get? (s.site n).port.gens k = some g)
    (hsrc : s.sourcesStopped n g.who.ctx = false) (hbeat : g.beat = 0) (hduty : 0 < s.duty n) :
    ∃ u : State, execBubEmit n k s = .next u ∧ Tbl.get? (u.site n).port.gens k = some { g with beat := s.duty n } := by
  have hgo : ¬(8 ≤ k ∨ g.beat ≠ 0 ∨ s.duty n = 0 ∨ s.sourcesStopped n g.who.ctx) := by
    simp only [hsrc, Bool.false_eq_true, or_false]
    omega
  simp only [execBubEmit, hg, if_neg hgo]
  exact ⟨_, rfl, by simp [State.modPort, Tbl.get?_set_same]⟩

/-- R300: until then no item is generated. -/
theorem execStreamItem_held {s : State} {n k : Nat} {g : StreamRun} (hg : Tbl.get? (s.site n).port.gens k = some g) (hbeat : g.beat = 0)
    (hduty : 0 < s.duty n) : execStreamItem n k s = .next s := by
  have hheld : 8 ≤ k ∨ g.parked ∨ s.sourcesStopped n g.who.ctx ∨ (g.beat = 0 ∧ 0 < s.duty n) := .inr (.inr (.inr ⟨hbeat, hduty⟩))
  simp only [execStreamItem, hg, if_pos hheld]

/-- A page of which a walk is asked for is among those to be walked (R217). -/
theorem State.mem_askWalks {pages : List Nat} {page : Nat} (h : page ∈ pages) (s : State) (n asid c : Nat) :
    (n, asid, c, page) ∈ (s.askWalks n asid c pages).pager.walks := by
  by_cases hold : (n, asid, c, page) ∈ s.pager.walks <;> simp [State.askWalks, hold, h]

/-- Settles O43: what each step of a stream does, by the case of the item that it meets. -/
theorem streamSteps : Obligations.StreamSteps := by
  intro s n k p
  constructor
  case left =>
    intro r rest m t hs hins ht hgens hk hfree hlow
    exact ⟨_, s.openedRun n r m t, execStreamGeneratorGrant_lowest hs hins ht hgens hk hfree hlow, by simp [State.modPort],
      by simp [State.modPort, Tbl.get?_set_same], rfl, rfl, rfl, rfl, rfl, rfl, rfl⟩
  case right =>
    intro g hk hg hparked hsrc d va
    refine ⟨fun hbeat hduty => ⟨execStreamItem_held hg hbeat hduty, execBubEmit_gens hk hg hsrc hbeat hduty⟩, fun hbeat hreplay htile => ?_⟩
    have hturn (hlow : 0 ≤ va) (htop : va + d.itemBytes ≤ 2 ^ 56) : s.ScalarTurn n k g va.toNat :=
      ⟨hk, hg, hparked, hsrc, hbeat, hreplay, htile, (Int.toNat_of_nonneg hlow).symm, by change va.toNat + d.itemBytes ≤ _; omega⟩
    have haligned (hlow : 0 ≤ va) : va % d.itemBytes = 0 ↔ g.d.itemBytes ∣ va.toNat := by
      rw [← Int.dvd_iff_emod_eq_zero, ← Int.natCast_dvd_natCast, Int.toNat_of_nonneg hlow]
    refine ⟨fun hlow htop hoff => (hturn hlow htop).execStreamItem_misaligned (mt (haligned hlow).2 hoff), fun hlow htop hal => ?_⟩
    have h := hturn hlow htop
    have ha := (haligned hlow).1 hal
    refine ⟨fun hmiss hroom => ⟨_, h.execStreamItem_miss ha hmiss hroom, ?parked, State.mem_askWalks (by simp) ..⟩, h.execStreamItem_full ha,
      fun e he hr => h.execStreamItem_denied ha he hr, ?read⟩
    case parked => simp [State.modPort, Tbl.get?_set_same]
    case read =>
      intro e he hr htyp _ hcellar hwipe hmig hrecs hunits hlines hinj hfence hport
      exact ⟨(s.touchExtents n g.who.ctx [va.toNat / 2 ^ 21]).bumpFree, _, rfl, h.execStreamItem_hbm ha he hr htyp hcellar hwipe hmig
        ⟨hrecs, hunits, hlines, hinj⟩ (State.turnOf_unfenced hfence hport), rfl, State.gens_nextItem_last _ n k, State.gens_nextItem_more _ n k⟩

end Sys2Proof.Machine
end
